-- ==== Sys2Proof/Word.lean ====
section
/-! DEFINITION. The word types of the Holuno core (spec/03_formats.md R51, R65–R68) and their plainest helpers. -/

namespace Sys2Proof

/-- One byte. -/
abbrev Byte := BitVec 8
/-- A 64-bit scalar register value (R65). -/
abbrev W := BitVec 64
/-- A vector register value of 1,024 bits (R66). -/
abbrev V := BitVec 1024
/-- A mask register value of 128 bits (R67). -/
abbrev K := BitVec 128
/-- An FP32 bit pattern (R34). -/
abbrev F32 := BitVec 32

/-- A scalar register number (R65). -/
abbrev GReg := Fin 64
/-- A scalar register that a five-bit field names: g0 to g31 (R90). -/
abbrev GLow := Fin 32
/-- A vector register number (R66). -/
abbrev VReg := Fin 32
/-- A mask register number (R67). -/
abbrev KReg := Fin 8
/-- An accumulator number (R68). -/
abbrev Acc := Fin 4
/-- A logical tile number (R17). -/
abbrev TileId := Fin 1024
/-- A die position (R12). -/
abbrev DieId := Fin 4
/-- A package stack number (R22). -/
abbrev StackId := Fin 12
/-- A strand of a tile (R5). -/
abbrev StrandId := Fin 8
/-- A copy channel of a tile (R190). -/
abbrev ChanId := Fin 4
/-- A partition of the package (R27). -/
abbrev PartId := Fin 16
/-- A sequence, numbered 16 × partition + sequence within the partition (R27). -/
abbrev SeqId := Fin 256

/-- The scalar register that a five-bit field names. -/
def GLow.toGReg (r : GLow) : GReg := ⟨r.val, by omega⟩

/-- 1 for true and 0 for false, as a natural number. -/
def boolNat (b : Bool) : Nat := if b then 1 else 0

/-- The bits [lo + n − 1 : lo] of a natural number. -/
def bitsAt (w lo n : Nat) : Nat := w / 2 ^ lo % 2 ^ n

end Sys2Proof
end

