-- ==== Sys2Proof/Config.lean ====
section
/-! DEFINITION. What an implementation fixes and the values that spec/ leaves open: opaque constants, so that no proof can
depend on what they are. -/

namespace Sys2Proof

/-- The byte that a read delivers when the bytes at an address were last written under another key than the reader's, or
never (R8, R427): unpredictable. Arguments: the reader's key, the key of the last write, the address. -/
opaque Config.garbage : Nat → Nat → Nat → Byte

/-- The n-th free word: an unpredictable 64-bit value (R8). Log 7: DESIGN CHOICE. Log 101: DESIGN CHOICE. -/
opaque Config.freeWord : Nat → W

/-- The n-th free FP32 element: an unpredictable accumulator element (R304). -/
opaque Config.freeF32 : Nat → Nat → F32

/-- The n-th free byte of a span: the destination bytes of a faulted row (R199), registers outside a live map (R117). Log 47: DEDUCED. -/
opaque Config.freeByte : Nat → Nat → Byte

/-- The port that the partition manager chooses toward a block (R258); arguments: the write's number, the tile, the block.
Which of several routes it takes is not architectural. -/
opaque Config.nextHop : Nat → Nat → Nat → Fin 8

/-- The anchor that the partition manager chooses for a port among the partition's tiles (R272). Log 62: DESIGN CHOICE. -/
opaque Config.anchor : Nat → Nat → Nat

/-- The tree levels between the root of the configuration tree and a router (R245). Log 63: DESIGN CHOICE. -/
opaque Config.treeDepth : Nat → Nat

/-- Which of the outer-edge routers that are left carries the n-th of a die's memory and peer ports (R13, R270). Log 62: DESIGN
CHOICE. -/
opaque Config.outerPlace : Nat → Nat

/-- The router, of a die's 256, beside which its controller sends and takes leased words; on die 0 the host port logic (R422). Log 113:
DESIGN CHOICE. -/
opaque Config.controllerPlace : Nat → Nat

/-- The measurements of boot (R431) and of a launched image (R432). -/
opaque Config.measurement : Nat → BitVec 256

/-- The words of the attestation public key and of a quote's signature (R432), by quote and word. -/
opaque Config.quoteWord : Nat → Nat → W

/-- Whether the DRBG's health test passes at its n-th draw (R227). -/
opaque Config.drbgHealthy : Nat → Bool

/-- Where firmware's boot sets the Monitor bank's TRAPVEC (R224). -/
opaque Config.monitorVector : W

/-- Which of the possible readings two engines' overlapping writes leave is decided by the order of the agenda; the
replacement within the instruction cache (R19) is not given: the n-th line chosen. -/
opaque Config.victim : Nat → Nat

end Sys2Proof
end

