-- ==== Sys2Proof/Syntax.lean ====
section
/-! DEFINITION. The instructions of Efjan and the other steps of the part: the operand kinds of spec/03 and 04, the
bodies that host messages carry (spec/23, 25, 26), and the one inductive Instr with one constructor per row of
spec/opcode_table.json. -/

namespace Sys2Proof

/-! ### Operand kinds of the words -/

/-- Integer types of R75. -/
inductive IType | i8 | i16 | i32 | i64 | n8 | n16 | n32
  deriving DecidableEq, Repr

/-- Ordering suffixes of the atomics (R87). -/
inductive Ord | none | acq | rel | ar
  deriving DecidableEq, Repr

/-- Observer scopes of FENCE (R132). -/
inductive Scope | tile | die | package | domain | system
  deriving DecidableEq, Repr

/-- Integer element widths W2 (R89). -/
inductive W2 | b8 | b16 | b32
  deriving DecidableEq, Repr

/-- Floating-point types FP2 (R89). -/
inductive FP2 | f32 | f16 | bf16
  deriving DecidableEq, Repr

/-- Rounding selections of the conversions (R94): FPCTL.RM or one of the five modes of R41. -/
inductive Rnd | rm | rne | rtz | rup | rdn | rst
  deriving DecidableEq, Repr

/-- VCVT pair codes (R94), destination first. -/
inductive CvtPair
  | f32f16 | f32bf16 | f16f32 | bf16f32 | f16bf16 | bf16f16 | i32f32 | n32f32 | f32i32 | f32n32
  | i16f16 | f16i16
  deriving DecidableEq, Repr

/-- BX block formats (R45). -/
inductive BX | bx3 | bx5 | bx8
  deriving DecidableEq, Repr

/-- VNARROW selectors (R94), destination first. -/
inductive NarrowSel | i16i32 | n16n32 | i8i16 | n8n16
  deriving DecidableEq, Repr

/-- VWIDEN selectors (R94), destination first. -/
inductive WidenSel | i32i16 | n32n16 | i16i8 | n16n8
  deriving DecidableEq, Repr

/-- Integer reduction selectors (R95). -/
inductive RedSel | sum | min | max | minn | maxn
  deriving DecidableEq, Repr

/-- Floating-point reduction selectors (R95). -/
inductive FRedSel | sum | min | max
  deriving DecidableEq, Repr

/-- VCMP conditions (R96). -/
inductive Cond | eq | ne | lt | ge | ltn | gen
  deriving DecidableEq, Repr

/-- VFCMP conditions (R96). -/
inductive FCond | eq | lt | le | un
  deriving DecidableEq, Repr

/-- VAMO types (R91). -/
inductive VAmoT | i32 | f32
  deriving DecidableEq, Repr

/-- CPYS transpose selections (R194). -/
inductive XPose | none | t8 | t16
  deriving DecidableEq, Repr

/-! ### Operands of the steps without an encoding -/

/-- What a command's words are beside the body that they carry (R419): plain, with a reserved field set, or with a CODE that is
no command's. -/
inductive CmdForm | plain | reserved | unknown
  deriving DecidableEq, Repr

/-- The header of a host message (R417, R418). `kind` is the KIND byte, `owner` the function that owns the destination
address, `lenOk` whether LEN agrees with the datagram, `form` what the command's words are beside its body. -/
structure HostHdr where
  kind : BitVec 8
  ver : BitVec 8
  fn : BitVec 8
  owner : BitVec 8
  lenOk : Bool
  form : CmdForm
  seqno : W
  corr : W
  ack : W
  deriving DecidableEq, Repr

/-- CREATE_PARTITION (R420). `reserved` is true where a reserved field is set. -/
structure CreateBody where
  part : PartId
  linkbud : BitVec 8
  blocks : BitVec 64
  s2root : W
  vfs : BitVec 192
  membud : List (BitVec 8)
  mslots : BitVec 8
  reserved : Bool
  deriving DecidableEq, Repr

/-- One S2_WRITE (R419, R437). -/
structure S2Body where
  part : PartId
  ipa : BitVec 48
  level : Fin 4
  value : W
  deriving DecidableEq, Repr

/-- A seed pair (R359, R376): the line indices, the priority and the types' places are read at the launch. -/
structure SeedPair where
  lineA : BitVec 50
  lineB : BitVec 50
  pri : Fin 4
  deriving DecidableEq, Repr

/-- A page of sequence memory that firmware hands to the hardware: its virtual and its physical address. Which pages it
takes is firmware's choice (R357, R379). -/
structure Page where
  va : W
  pa : Nat
  deriving DecidableEq, Repr

/-- START_SEQUENCE (R376), with firmware's choices of pool pages and frames per tile (R377 step 4). A placement is
(argument, base priority, tile, thread-table index). -/
structure StartBody where
  descva : W
  s1root : W
  nodeBudget : Nat
  poolPages : Nat
  frames : Nat
  taPanes : Nat
  spillKb : Nat
  places : List (BitVec 32 × Fin 4 × TileId × Fin 256)
  rtiles : List TileId
  seeds : List SeedPair
  reserved : Bool
  pools : List (TileId × Page)
  frameAt : List (TileId × Page)
  deriving DecidableEq, Repr

/-- REPLAY (R394), with the pool pages' nodes taken by the partition manager in its round. -/
structure ReplayBody where
  seq : Fin 16
  tmplva : W
  pri : Fin 4
  nseed : Nat
  nnode : Nat
  patches : List (Fin 4096 × Fin 4 × W)
  deriving DecidableEq, Repr

/-- TLB_INVAL (R419): KIND 1 (a page) or KIND 2 (the whole sequence). -/
structure InvalBody where
  seq : Fin 16
  page : Option (W × Fin 4)
  deriving DecidableEq, Repr

/-- UNPARK (R419). -/
structure UnparkBody where
  seq : Fin 16
  lineA : BitVec 50
  lineB : BitVec 50
  drop : Bool
  deriving DecidableEq, Repr

/-- PAGE_REPLY (R414). -/
structure ReplyBody where
  tag : BitVec 8
  ipaPage : BitVec 36
  size : Fin 4
  status : BitVec 8
  deriving DecidableEq, Repr

/-- HOST_READ and HOST_WRITE (R424): sequence, address, length in bytes, and the data of a write. -/
structure HostAccess where
  seq : Fin 16
  va : W
  len : Nat
  data : List Byte
  deriving DecidableEq, Repr

/-- PEER_CIRCUIT (R248, R419): the VF that receives the handle, its sequence, the peer port, the other package, the local tile,
whether the local tile is the source, and the words of the request record (R235). -/
structure PeerBody where
  vf : Fin 192
  seq : Fin 16
  port : Fin 16
  pkg : Fin 4096
  tile : TileId
  outgoing : Bool
  req : List W
  deriving DecidableEq, Repr

/-- One peer-port timestamp in 1/256 slot (R262). -/
abbrev Stamp := Nat

/-- The instructions: one constructor per row of spec/opcode_table.json, in its order. The first 222 are Efjan words; the
others are the steps that the table lists without an encoding. Log 8: DESIGN CHOICE. -/
inductive Instr where
  /-- ADD (R101): adds two scalar registers modulo 2^64. -/
  | add (d : GReg) (a : GReg) (b : GReg)
  /-- SUB (R101): subtracts gb from ga modulo 2^64. -/
  | sub (d : GReg) (a : GReg) (b : GReg)
  /-- AND (R101): bitwise AND of two registers. -/
  | and (d : GReg) (a : GReg) (b : GReg)
  /-- OR (R101): bitwise OR of two registers. -/
  | or (d : GReg) (a : GReg) (b : GReg)
  /-- XOR (R101): bitwise XOR of two registers. -/
  | xor (d : GReg) (a : GReg) (b : GReg)
  /-- ANDN (R101): ga AND NOT gb. -/
  | andn (d : GReg) (a : GReg) (b : GReg)
  /-- ORN (R101): ga OR NOT gb. -/
  | orn (d : GReg) (a : GReg) (b : GReg)
  /-- SHL (R101): shifts ga left by gb[5:0]. -/
  | shl (d : GReg) (a : GReg) (b : GReg)
  /-- SHR (R101): shifts ga right logically by gb[5:0]. -/
  | shr (d : GReg) (a : GReg) (b : GReg)
  /-- SHA (R101): shifts ga right arithmetically by gb[5:0]. -/
  | sha (d : GReg) (a : GReg) (b : GReg)
  /-- ROL (R101): rotates ga left by gb[5:0]. -/
  | rol (d : GReg) (a : GReg) (b : GReg)
  /-- SLT (R101): sets 1 when ga is below gb, signed. -/
  | slt (d : GReg) (a : GReg) (b : GReg)
  /-- SLTN (R101): sets 1 when ga is below gb, unsigned. -/
  | sltn (d : GReg) (a : GReg) (b : GReg)
  /-- SEQ (R101): sets 1 when ga equals gb. -/
  | seq (d : GReg) (a : GReg) (b : GReg)
  /-- SNE (R101): sets 1 when ga differs from gb. -/
  | sne (d : GReg) (a : GReg) (b : GReg)
  /-- MIN (R101): signed minimum. -/
  | min (d : GReg) (a : GReg) (b : GReg)
  /-- MAX (R101): signed maximum. -/
  | max (d : GReg) (a : GReg) (b : GReg)
  /-- MINN (R101): unsigned minimum. -/
  | minn (d : GReg) (a : GReg) (b : GReg)
  /-- MAXN (R101): unsigned maximum. -/
  | maxn (d : GReg) (a : GReg) (b : GReg)
  /-- CSEL (R101): selects ga when gd is non-zero, else gb. -/
  | csel (d : GReg) (a : GReg) (b : GReg)
  /-- EXTR (R101): extracts a bit field of ga under control word gb. -/
  | extr (d : GReg) (a : GReg) (b : GReg)
  /-- INSR (R101): inserts a bit field of ga into gd under control word gb. -/
  | insr (d : GReg) (a : GReg) (b : GReg)
  /-- LEA (R101): gd := ga + (gb << 6). -/
  | lea (d : GReg) (a : GReg) (b : GReg)
  /-- CLZ (R101): counts leading zero bits of ga. -/
  | clz (d : GReg) (a : GReg)
  /-- CTZ (R101): counts trailing zero bits of ga. -/
  | ctz (d : GReg) (a : GReg)
  /-- POPC (R101): counts the 1 bits of ga. -/
  | popc (d : GReg) (a : GReg)
  /-- BREV (R101): reverses the bits of ga. -/
  | brev (d : GReg) (a : GReg)
  /-- ADDI (R102): adds a sign-extended 12-bit immediate. -/
  | addi (d : GReg) (a : GReg) (i : BitVec 12)
  /-- ANDI (R102): aND with a sign-extended 9-bit immediate. -/
  | andi (d : GReg) (a : GReg) (i : BitVec 9)
  /-- ORI (R102): oR with a sign-extended 9-bit immediate. -/
  | ori (d : GReg) (a : GReg) (i : BitVec 9)
  /-- XORI (R102): xOR with a sign-extended 9-bit immediate. -/
  | xori (d : GReg) (a : GReg) (i : BitVec 9)
  /-- SHLI (R102): shifts left by an immediate count. -/
  | shli (d : GReg) (a : GReg) (i : BitVec 6)
  /-- SHRI (R102): shifts right logically by an immediate count. -/
  | shri (d : GReg) (a : GReg) (i : BitVec 6)
  /-- SHAI (R102): shifts right arithmetically by an immediate count. -/
  | shai (d : GReg) (a : GReg) (i : BitVec 6)
  /-- SLTI (R102): signed compare with an immediate. -/
  | slti (d : GReg) (a : GReg) (i : BitVec 9)
  /-- SLTNI (R102): unsigned compare with a sign-extended immediate. -/
  | sltni (d : GReg) (a : GReg) (i : BitVec 9)
  /-- SEQI (R102): sets 1 when ga equals the immediate. -/
  | seqi (d : GReg) (a : GReg) (i : BitVec 9)
  /-- LIMM (R103): shifts gd left 16 and ORs in a 16-bit immediate. -/
  | limm (d : GReg) (i : BitVec 16)
  /-- ADDPC (R103): gd := bundle address + offset × 4. -/
  | addpc (d : GReg) (i : BitVec 16)
  /-- MUL (R104): low 64 bits of the product. -/
  | mul (d : GReg) (a : GReg) (b : GReg)
  /-- MULH (R104): high 64 bits of the signed product. -/
  | mulh (d : GReg) (a : GReg) (b : GReg)
  /-- MULHN (R104): high 64 bits of the unsigned product. -/
  | mulhn (d : GReg) (a : GReg) (b : GReg)
  /-- DIV (R105): signed quotient on the shared divider, variable latency. -/
  | div (d : GReg) (a : GReg) (b : GReg)
  /-- DIVN (R105): unsigned quotient on the shared divider. -/
  | divn (d : GReg) (a : GReg) (b : GReg)
  /-- REM (R105): signed remainder on the shared divider. -/
  | rem (d : GReg) (a : GReg) (b : GReg)
  /-- REMN (R105): unsigned remainder on the shared divider. -/
  | remn (d : GReg) (a : GReg) (b : GReg)
  /-- BEQ (R108): branches when ga equals gb. -/
  | beq (a : GReg) (b : GReg) (o : BitVec 9)
  /-- BNE (R108): branches when ga differs from gb. -/
  | bne (a : GReg) (b : GReg) (o : BitVec 9)
  /-- BLT (R108): branches when ga is below gb, signed. -/
  | blt (a : GReg) (b : GReg) (o : BitVec 9)
  /-- BGE (R108): branches when ga is at or above gb, signed. -/
  | bge (a : GReg) (b : GReg) (o : BitVec 9)
  /-- BLTN (R108): branches when ga is below gb, unsigned. -/
  | bltn (a : GReg) (b : GReg) (o : BitVec 9)
  /-- BGEN (R108): branches when ga is at or above gb, unsigned. -/
  | bgen (a : GReg) (b : GReg) (o : BitVec 9)
  /-- BZ (R109): branches when ga is zero. -/
  | bz (a : GReg) (o : BitVec 16)
  /-- BNZ (R109): branches when ga is non-zero. -/
  | bnz (a : GReg) (o : BitVec 16)
  /-- JMP (R109): jumps to an offset target. -/
  | jmp (o : BitVec 22)
  /-- CALL (R109): jumps and writes the return address to g63. -/
  | call (o : BitVec 22)
  /-- NOP (R114): does nothing; counts as a control word. -/
  | nop
  /-- JR (R110): jumps to the address in ga. -/
  | jr (a : GReg)
  /-- CALLR (R110): jumps to ga and writes the link to gd. -/
  | callr (d : GReg) (a : GReg)
  /-- LOOP (R112): opens a hardware loop counted by a register. -/
  | loop (l : BitVec 6) (a : GReg)
  /-- LOOPI (R112): opens a hardware loop with a 12-bit immediate count. -/
  | loopi (l : BitVec 6) (c : BitVec 12)
  /-- TRAP (R114): issues its bundle, then takes a Tenant trap with a 12-bit code. -/
  | trap (c : BitVec 12)
  /-- ERET (R115): returns from a trap after draining handler results. -/
  | eret
  /-- WFE (R116): consumes the event bit or sleeps until it is set. -/
  | wfe
  /-- YIELD (R114): switch event that leaves the strand ready. -/
  | yield
  /-- SAFE (R117): safe point at which a pending pre-emption is taken with the live map. -/
  | safe
  /-- HALT (R118): ends the thread after its results land, or discards a rewrite. -/
  | halt
  /-- BKPT (R114): refuses its bundle and takes a BREAKPOINT trap. -/
  | bkpt
  /-- TLBI (R226): invalidates translation entries selected by ga and waits for completion. -/
  | tlbi (a : GReg) (b : GReg)
  /-- KEYOP (R227): performs a key-slot operation on the die key store and returns its status. -/
  | keyop (d : GReg) (a : GReg) (b : GReg)
  /-- FAULTINJ (R229): arms one fault injection on the tile. -/
  | faultinj (a : GReg) (b : GReg)
  /-- CRR (R119): reads a control register. -/
  | crr (d : GReg) (c : BitVec 10)
  /-- CRW (R119): writes a control register, landing one clock later. -/
  | crw (a : GReg) (c : BitVec 10)
  /-- CRX (R119): exchanges a control register with ga. -/
  | crx (d : GReg) (a : GReg) (c : BitVec 10)
  /-- LD (R129): loads a typed value at ga + offset. -/
  | ld (d : GReg) (a : GReg) (t : IType) (i : BitVec 9)
  /-- ST (R129): stores the low bits of gs at ga + offset. -/
  | st (s : GReg) (a : GReg) (t : IType) (i : BitVec 9)
  /-- LDA (R130): acquiring load, always variable latency. -/
  | lda (d : GReg) (a : GReg) (t : IType)
  /-- STR (R130): releasing store. -/
  | str (a : GReg) (s : GReg) (t : IType)
  /-- PREF (R130): asks the home bank to fetch a line; never traps. -/
  | pref (a : GReg)
  /-- FENCE (R132): holds the strand until earlier memory words are performed at its scope. -/
  | fence (s : Scope)
  /-- FENCE_I (R133): waits as FENCE.t then invalidates the instruction cache for the sequence. -/
  | fenceI
  /-- AMOADD_I64 (R134): 64-bit atomic add returning the old value. -/
  | amoaddI64 (d : GReg) (a : GReg) (b : GReg) (o : Ord)
  /-- AMOAND (R134): 64-bit atomic AND. -/
  | amoand (d : GReg) (a : GReg) (b : GReg) (o : Ord)
  /-- AMOOR (R134): 64-bit atomic OR. -/
  | amoor (d : GReg) (a : GReg) (b : GReg) (o : Ord)
  /-- AMOXOR (R134): 64-bit atomic XOR. -/
  | amoxor (d : GReg) (a : GReg) (b : GReg) (o : Ord)
  /-- AMOMIN (R134): 64-bit atomic signed minimum. -/
  | amomin (d : GReg) (a : GReg) (b : GReg) (o : Ord)
  /-- AMOMAX (R134): 64-bit atomic signed maximum. -/
  | amomax (d : GReg) (a : GReg) (b : GReg) (o : Ord)
  /-- AMOMINN (R134): 64-bit atomic unsigned minimum. -/
  | amominn (d : GReg) (a : GReg) (b : GReg) (o : Ord)
  /-- AMOMAXN (R134): 64-bit atomic unsigned maximum. -/
  | amomaxn (d : GReg) (a : GReg) (b : GReg) (o : Ord)
  /-- AMOSWAP_I64 (R134): 64-bit atomic swap. -/
  | amoswapI64 (d : GReg) (a : GReg) (b : GReg) (o : Ord)
  /-- CAS_I64 (R134): 64-bit compare-and-swap. -/
  | casI64 (d : GReg) (a : GReg) (b : GReg) (o : Ord)
  /-- AMOADD_I32 (R134): 32-bit atomic add. -/
  | amoaddI32 (d : GReg) (a : GReg) (b : GReg) (o : Ord)
  /-- AMOSWAP_I32 (R134): 32-bit atomic swap. -/
  | amoswapI32 (d : GReg) (a : GReg) (b : GReg) (o : Ord)
  /-- CAS_I32 (R134): 32-bit compare-and-swap. -/
  | casI32 (d : GReg) (a : GReg) (b : GReg) (o : Ord)
  /-- AMOFADD (R134): fP32 atomic add rounded to nearest even. -/
  | amofadd (d : GReg) (a : GReg) (b : GReg) (o : Ord)
  /-- PGIVE (R143): gives a pane to the engine, a tile-scope release. -/
  | pgive (a : GReg)
  /-- PTAKE (R143): waits until the pane is idle and takes it back for the core. -/
  | ptake (a : GReg)
  /-- PSTAT (R144): reads a pane's status. -/
  | pstat (d : GReg) (a : GReg)
  /-- BINIT (R146): initialises a barrier object. -/
  | binit (a : GReg) (b : GReg)
  /-- BARRIVE (R146): counts an arrival on a barrier and returns the prior phase. -/
  | barrive (d : GReg) (a : GReg)
  /-- BEXPECT (R146): raises a barrier's byte quota. -/
  | bexpect (a : GReg) (b : GReg)
  /-- BWAIT (R146): waits until a barrier's phase differs from gb[0]. -/
  | bwait (a : GReg) (b : GReg)
  /-- BTRY (R146): tests a barrier's phase without waiting. -/
  | btry (d : GReg) (a : GReg) (b : GReg)
  /-- VLD (R138): contiguous vector load. -/
  | vld (v : VReg) (a : GReg) (k : KReg) (z : W2)
  /-- VST (R138): contiguous vector store. -/
  | vst (v : VReg) (a : GReg) (k : KReg) (z : W2)
  /-- VLDM (R138): loads a mask register from 16 bytes. -/
  | vldm (v : KReg) (a : GReg)
  /-- VSTM (R138): stores a mask register to 16 bytes. -/
  | vstm (v : KReg) (a : GReg)
  /-- VLDS (R138): strided vector load, element by element. -/
  | vlds (v : VReg) (a : GReg) (b : GReg) (k : KReg) (z : W2)
  /-- VSTS (R138): strided vector store. -/
  | vsts (v : VReg) (a : GReg) (b : GReg) (k : KReg) (z : W2)
  /-- VLDB (R138): broadcast load of one element. -/
  | vldb (v : VReg) (a : GReg) (k : KReg) (z : W2)
  /-- VGATH (R141): gather by an index vector with replayable element faults. -/
  | vgath (v : VReg) (a : GReg) (x : VReg) (k : KReg) (z : W2)
  /-- VSCAT (R141): scatter by an index vector. -/
  | vscat (v : VReg) (a : GReg) (x : VReg) (k : KReg) (z : W2)
  /-- VAMO (R138): vector atomic add by an index vector. -/
  | vamo (v : VReg) (a : GReg) (x : VReg) (k : KReg) (t : VAmoT)
  /-- VADD (R150): vector integer add. -/
  | vadd (d : VReg) (a : VReg) (b : VReg) (k : KReg) (z : W2)
  /-- VSUB (R150): vector integer subtract. -/
  | vsub (d : VReg) (a : VReg) (b : VReg) (k : KReg) (z : W2)
  /-- VMUL (R150): vector integer multiply, low bits. -/
  | vmul (d : VReg) (a : VReg) (b : VReg) (k : KReg) (z : W2)
  /-- VMULH (R150): vector signed multiply, high bits. -/
  | vmulh (d : VReg) (a : VReg) (b : VReg) (k : KReg) (z : W2)
  /-- VMIN (R150): vector signed minimum. -/
  | vmin (d : VReg) (a : VReg) (b : VReg) (k : KReg) (z : W2)
  /-- VMAX (R150): vector signed maximum. -/
  | vmax (d : VReg) (a : VReg) (b : VReg) (k : KReg) (z : W2)
  /-- VMINN (R150): vector unsigned minimum. -/
  | vminn (d : VReg) (a : VReg) (b : VReg) (k : KReg) (z : W2)
  /-- VMAXN (R150): vector unsigned maximum. -/
  | vmaxn (d : VReg) (a : VReg) (b : VReg) (k : KReg) (z : W2)
  /-- VSHL (R150): vector shift left. -/
  | vshl (d : VReg) (a : VReg) (b : VReg) (k : KReg) (z : W2)
  /-- VSHR (R150): vector logical shift right. -/
  | vshr (d : VReg) (a : VReg) (b : VReg) (k : KReg) (z : W2)
  /-- VSHA (R150): vector arithmetic shift right. -/
  | vsha (d : VReg) (a : VReg) (b : VReg) (k : KReg) (z : W2)
  /-- VABS (R150): vector absolute value, wrapping. -/
  | vabs (d : VReg) (a : VReg) (k : KReg) (z : W2)
  /-- VNEG (R150): vector negate, wrapping. -/
  | vneg (d : VReg) (a : VReg) (k : KReg) (z : W2)
  /-- VSAT (R150): vector saturating signed add. -/
  | vsat (d : VReg) (a : VReg) (b : VReg) (k : KReg) (z : W2)
  /-- VCLZ (R150): vector count leading zeros. -/
  | vclz (d : VReg) (a : VReg) (k : KReg) (z : W2)
  /-- VPOPC (R150): vector population count. -/
  | vpopc (d : VReg) (a : VReg) (k : KReg) (z : W2)
  /-- VAND (R150): vector bitwise AND. -/
  | vand (d : VReg) (a : VReg) (b : VReg) (k : KReg) (z : W2)
  /-- VOR (R150): vector bitwise OR. -/
  | vor (d : VReg) (a : VReg) (b : VReg) (k : KReg) (z : W2)
  /-- VXOR (R150): vector bitwise XOR. -/
  | vxor (d : VReg) (a : VReg) (b : VReg) (k : KReg) (z : W2)
  /-- VANDN (R150): vector va AND NOT vb. -/
  | vandn (d : VReg) (a : VReg) (b : VReg) (k : KReg) (z : W2)
  /-- VFADD (R152): vector FP add. -/
  | vfadd (d : VReg) (a : VReg) (b : VReg) (k : KReg) (t : FP2)
  /-- VFSUB (R152): vector FP subtract. -/
  | vfsub (d : VReg) (a : VReg) (b : VReg) (k : KReg) (t : FP2)
  /-- VFMUL (R152): vector FP multiply. -/
  | vfmul (d : VReg) (a : VReg) (b : VReg) (k : KReg) (t : FP2)
  /-- VFMIN (R153): vector FP minimum. -/
  | vfmin (d : VReg) (a : VReg) (b : VReg) (k : KReg) (t : FP2)
  /-- VFMAX (R153): vector FP maximum. -/
  | vfmax (d : VReg) (a : VReg) (b : VReg) (k : KReg) (t : FP2)
  /-- VFABS (R152): clears the sign bit of each element. -/
  | vfabs (d : VReg) (a : VReg) (k : KReg) (t : FP2)
  /-- VFNEG (R152): inverts the sign bit of each element. -/
  | vfneg (d : VReg) (a : VReg) (k : KReg) (t : FP2)
  /-- VFRND (R152): rounds each element to an integral value. -/
  | vfrnd (d : VReg) (a : VReg) (k : KReg) (t : FP2)
  /-- VFCLASS (R153): writes a one-hot class code per element. -/
  | vfclass (d : VReg) (a : VReg) (k : KReg) (t : FP2)
  /-- VFRCP (R156): table reciprocal approximation. -/
  | vfrcp (d : VReg) (a : VReg) (k : KReg)
  /-- VFRSQ (R157): table reciprocal square root approximation. -/
  | vfrsq (d : VReg) (a : VReg) (k : KReg)
  /-- VFEXP2 (R158): table 2^x approximation. -/
  | vfexp2 (d : VReg) (a : VReg) (k : KReg)
  /-- VFLOG2 (R159): table log2 approximation. -/
  | vflog2 (d : VReg) (a : VReg) (k : KReg)
  /-- VFMA (R154): fused va × vb + vd. -/
  | vfma (d : VReg) (a : VReg) (b : VReg) (k : KReg) (t : FP2)
  /-- VFMS (R154): fused va × vb − vd. -/
  | vfms (d : VReg) (a : VReg) (b : VReg) (k : KReg) (t : FP2)
  /-- VFNMA (R154): fused vd − va × vb. -/
  | vfnma (d : VReg) (a : VReg) (b : VReg) (k : KReg) (t : FP2)
  /-- VCVT (R160): converts elements between the pair code's formats. -/
  | vcvt (d : VReg) (a : VReg) (p : CvtPair) (k : KReg) (r : Rnd)
  /-- VPACK (R161): packs FP32 elements into two BX blocks. -/
  | vpack (d : VReg) (a : VReg) (s : BX) (r : Rnd)
  /-- VUNPK (R161): decodes two BX blocks to FP32 elements. -/
  | vunpk (d : VReg) (a : VReg) (s : BX) (k : KReg)
  /-- VNARROW (R162): narrows integer elements with clamping. -/
  | vnarrow (d : VReg) (a : VReg) (s : NarrowSel) (k : KReg)
  /-- VWIDEN (R162): widens integer elements by sign or zero extension. -/
  | vwiden (d : VReg) (a : VReg) (s : WidenSel) (k : KReg)
  /-- VPERM (R163): permutes elements by an index vector. -/
  | vperm (d : VReg) (a : VReg) (b : VReg) (k : KReg) (z : W2)
  /-- VSLIDE (R163): slides elements by a scalar amount. -/
  | vslide (d : VReg) (a : VReg) (g : GLow) (k : KReg) (z : W2)
  /-- VTRN (R163): interleaves two vectors. -/
  | vtrn (d : VReg) (a : VReg) (b : VReg) (k : KReg) (z : W2)
  /-- VCOMPR (R163): compresses selected elements to the low end. -/
  | vcompr (d : VReg) (a : VReg) (k : KReg) (z : W2)
  /-- VEXPD (R163): expands low elements into the selected positions. -/
  | vexpd (d : VReg) (a : VReg) (k : KReg) (z : W2)
  /-- VRED_INT (R164): integer reduction over a fixed tree. -/
  | vredInt (d : VReg) (a : VReg) (s : RedSel) (k : KReg) (z : W2)
  /-- VRED_FP (R164): fP reduction over a fixed tree. -/
  | vredFp (d : VReg) (a : VReg) (s : FRedSel) (k : KReg) (t : FP2)
  /-- VSCAN_INT (R165): integer inclusive prefix scan. -/
  | vscanInt (d : VReg) (a : VReg) (s : RedSel) (k : KReg) (z : W2)
  /-- VSCAN_FP (R165): fP inclusive prefix scan. -/
  | vscanFp (d : VReg) (a : VReg) (s : FRedSel) (k : KReg) (t : FP2)
  /-- VRORD (R167): contributes a slice to an ordered reduction object. -/
  | vrord (s : VReg) (g : GLow) (h : GLow) (k : KReg)
  /-- KAND (R171): mask AND. -/
  | kand (d : KReg) (a : KReg) (b : KReg)
  /-- KOR (R171): mask OR. -/
  | kor (d : KReg) (a : KReg) (b : KReg)
  /-- KXOR (R171): mask XOR. -/
  | kxor (d : KReg) (a : KReg) (b : KReg)
  /-- KNOT (R171): mask NOT. -/
  | knot (d : KReg) (a : KReg)
  /-- KMOV (R171): mask copy. -/
  | kmov (d : KReg) (a : KReg)
  /-- KPOPC (R171): counts mask bits into a g register. -/
  | kpopc (d : GLow) (a : KReg)
  /-- KFIRST (R171): index of the lowest set mask bit. -/
  | kfirst (d : GLow) (a : KReg)
  /-- KSET (R171): sets the low ga mask bits. -/
  | kset (d : KReg) (a : GLow)
  /-- VSEL (R170): selects elements from va or vb by mask. -/
  | vsel (d : VReg) (a : VReg) (b : VReg) (k : KReg) (z : W2)
  /-- VBCAST (R170): broadcasts a scalar to active elements. -/
  | vbcast (d : VReg) (g : GLow) (k : KReg) (z : W2)
  /-- VEXT (R170): extracts one element to a g register. -/
  | vext (g : GLow) (a : VReg) (h : GLow) (z : W2)
  /-- VINS (R170): inserts a scalar into one element. -/
  | vins (d : VReg) (g : GLow) (h : GLow) (z : W2)
  /-- VCMP (R169): integer element compare into a mask. -/
  | vcmp (d : KReg) (a : VReg) (b : VReg) (k : KReg) (c : Cond) (z : W2)
  /-- VFCMP (R169): fP element compare into a mask. -/
  | vfcmp (d : KReg) (a : VReg) (b : VReg) (k : KReg) (c : FCond) (t : FP2)
  /-- MMA (R180): queues a 32×32×32 product into an accumulator's working bank. -/
  | mma (a : GReg) (b : GReg) (c : Acc) (k : Bool)
  /-- MMA_RING (R180): mMA with B captured from the ring latch head. -/
  | mmaRing (a : GReg) (c : Acc) (k : Bool)
  /-- MMAT (R180): product with A transposed. -/
  | mmat (a : GReg) (b : GReg) (c : Acc) (k : Bool)
  /-- MMAT_RING (R180): mMAT with B from the ring latch. -/
  | mmatRing (a : GReg) (c : Acc) (k : Bool)
  /-- MCLAIM (R173): claims the matrix unit, waiting until it is free and cleared. -/
  | mclaim
  /-- MREL (R173): drains the queue, frees the unit and starts clearing it. -/
  | mrel
  /-- MZERO (R182): zeroes a working bank and validates its checksums. -/
  | mzero (c : Acc)
  /-- MSWAP (R292): exchanges working and visible banks once the unit is quiescent. -/
  | mswap (c : Acc)
  /-- MLDACC (R182): loads a visible bank from a pane and recomputes checksums. -/
  | mldacc (a : GReg) (c : Acc)
  /-- MSTACC (R182): stores a visible bank to a pane. -/
  | mstacc (a : GReg) (c : Acc)
  /-- MRING_SEND (R184): sends an operand over a latch circuit. -/
  | mringSend (a : GReg) (h : GReg)
  /-- MRING_SEND_POP (R184): sends an operand, then pops the own latch head. -/
  | mringSendPop (a : GReg) (h : GReg)
  /-- MRING_LATCH (R184): forwards a copy of the latch head. -/
  | mringLatch (h : GReg)
  /-- MRING_LATCH_POP (R184): forwards the latch head, then pops it. -/
  | mringLatchPop (h : GReg)
  /-- MRING_POP (R184): pops the latch head and returns a credit. -/
  | mringPop
  /-- MCHK (R183): checks a visible bank against its checksums and writes a record. -/
  | mchk (a : GReg) (d : GReg) (c : Acc)
  /-- MFIX (R182): writes one visible-bank element. -/
  | mfix (a : GReg) (b : GReg) (c : Acc)
  /-- MSTAT (R185): reads the matrix unit's status. -/
  | mstat (d : GReg)
  /-- MWAIT (R176): waits until earlier M words are performed; tile acquire. -/
  | mwait
  /-- CPY (R194): queues a single aligned copy on a channel. -/
  | cpy (a : GReg) (b : GReg) (l : BitVec 6) (c : ChanId)
  /-- CPYS (R194): queues a shaped copy, optionally transposing. -/
  | cpys (a : GReg) (b : GReg) (x : XPose) (c : ChanId)
  /-- CGATH (R194): queues a row gather. -/
  | cgath (a : GReg) (b : GReg) (c : ChanId)
  /-- CSCAT (R194): queues a row scatter. -/
  | cscat (a : GReg) (b : GReg) (c : ChanId)
  /-- CHAIN (R197): queues a walk of transfer records. -/
  | chain (a : GReg) (c : ChanId)
  /-- CSEAL (R191): seals the open batch and returns its number. -/
  | cseal (d : GReg)
  /-- CWAIT (R192): waits until at most n sealed batches are unfinished; reports faults. -/
  | cwait (n : Fin 16)
  /-- CSTAT (R201): reports a channel's state for the sequence. -/
  | cstat (d : GReg) (s : Bool) (c : ChanId)
  /-- CCANCEL (R202): cancels the sequence's commands on a channel. -/
  | ccancel (c : ChanId)
  /-- CIRQ (R203): sends a circuit request record to the Meridian. -/
  | cirq (a : GReg) (b : GReg)
  /-- CIRZ (R203): asks for a circuit to be resized. -/
  | cirz (a : GReg) (h : GReg) (n : BitVec 6)
  /-- CIRX (R203): asks for a circuit to be closed. -/
  | cirx (a : GReg) (h : GReg)
  /-- CSEND (R205): places 1 to 4 words into a circuit's injection queue. -/
  | csend (h : GReg) (v : VReg) (m : Fin 4)
  /-- CRECV (R206): reads landed words from a pane ring and returns credits. -/
  | crecv (h : GReg) (v : VReg) (m : Fin 4)
  /-- MSEND (R208): sends a relay message to a tile's queue. -/
  | msend (a : GReg) (v : VReg) (l : Fin 64)
  /-- MRECV (R209): waits for and removes the oldest relay message. -/
  | mrecv (d : GReg) (v : VReg)
  /-- MPOLL (R209): counts waiting relay messages. -/
  | mpoll (d : GReg)
  /-- NALLOC (R215): takes and initialises a node from the tile's Nebula pool. -/
  | nalloc (d : GReg) (h : GReg)
  /-- NFREE (R216): places a node on its dusk list. -/
  | nfree (n : GReg)
  /-- NLINK (R217): joins two wire ends by link resolution. -/
  | nlink (n : GReg) (m : GReg) (r : Fin 4) (q : Fin 4) (p : Fin 4)
  /-- NPUSH (R218): pushes a pair to the home bag. -/
  | npush (n : GReg) (m : GReg) (r : Fin 4)
  /-- NPORT (R219): reads a port word or header at the node's home. -/
  | nport (d : GReg) (n : GReg) (h : Bool) (p : Fin 4)
  /-- RCOMMIT (R221): commits a rewrite's buffered effects and releases its claim. -/
  | rcommit
  /-- RABORT (R222): discards a rewrite, re-pushing or dropping its pair. -/
  | rabort (x : Bool)
  /-- SPAWN (R220): starts a thread of the sequence from the thread table. -/
  | spawn (i : GReg) (x : GReg)
  /-- LFSRSEED_WRITE (R43): sets the strand generator state, replacing zero by 1. -/
  | lfsrseedWrite (t : TileId) (k : StrandId) (v : W)
  /-- TRAPVEC_WRITE (R121): sets the sequence's trap handler address for all its strands on the tile. -/
  | trapvecWrite (t : TileId) (k : StrandId) (v : W)
  /-- PLACEMASK_WRITE (R405): monitor write of the blocks used by SPREAD placement. -/
  | placemaskWrite (t : TileId) (k : StrandId) (v : W)
  /-- FAULTINJ_DISARM (R231): writing DISARM clears an armed injection. -/
  | faultinjDisarm (t : TileId) (k : StrandId) (v : W)
  /-- CONTROL_REGISTER_WRITE (R120): write of any control register without its own row, subject to access rules. -/
  | controlRegisterWrite (t : TileId) (k : StrandId) (n : BitVec 10) (v : W)
  /-- KEYOP_GEN (R227): draws a fresh key into an empty slot and binds it. -/
  | keyopGen (d : DieId) (slot : Fin 512) (part : PartId) (seq : Fin 16)
  /-- KEYOP_ZERO (R227): zeroizes both key generations and voids the slot. -/
  | keyopZero (d : DieId) (slot : Fin 512)
  /-- KEYOP_ROTATE (R227): draws a next-generation key and starts rotation. -/
  | keyopRotate (d : DieId) (slot : Fin 512)
  /-- KEYOP_RETIRE (R227): zeroizes the old generation after the sweep. -/
  | keyopRetire (d : DieId) (slot : Fin 512)
  /-- KEYOP_STAT (R228): returns the key slot's status unchanged. -/
  | keyopStat (d : DieId) (slot : Fin 512)
  /-- TLBI_KEY_SLOT (R225): invalidates entries of one key slot; frees a VOID slot. -/
  | tlbiKeySlot (t : TileId) (scope : Fin 3) (tlbs : BitVec 4) (slot : Fin 512)
  /-- TLBI_PAGE (R410): invalidates one page of a sequence via the directory. -/
  | tlbiPage (t : TileId) (scope : Fin 3) (tlbs : BitVec 4) (part : PartId) (seq : Fin 16) (size : Fin 4) (va : W)
  /-- TLBI_SEQUENCE (R225): invalidates all entries of a sequence. -/
  | tlbiSequence (t : TileId) (scope : Fin 3) (tlbs : BitVec 4) (part : PartId) (seq : Fin 16)
  /-- TLBI_STAGE2_PAGE (R410): invalidates one stage-2 page of a partition. -/
  | tlbiStage2Page (t : TileId) (scope : Fin 3) (tlbs : BitVec 4) (part : PartId) (size : Fin 4) (ipa : W)
  /-- TLBI_PARTITION (R225): invalidates all entries of a partition. -/
  | tlbiPartition (t : TileId) (scope : Fin 3) (tlbs : BitVec 4) (part : PartId)
  /-- TLBI_ALL (R225): invalidates every entry. -/
  | tlbiAll (t : TileId) (scope : Fin 3) (tlbs : BitVec 4)
  /-- PARALLAX_RETRY (R300): after the 12-cycle hold, re-executes the bundle skipping released words. -/
  | parallaxRetry (t : TileId)
  /-- DIVIDE_COMPLETE (R106): the divider writes its result and clears the scoreboard mark. -/
  | divideComplete (t : TileId)
  /-- MATRIX_WORD_COMPLETE (R290): a queued M word completes, returning panes and ORing flags. -/
  | matrixWordComplete (t : TileId) (n : Fin 8)
  /-- MATRIX_CLEAR_END (R173): the 8-cycle clearing after MREL ends and the unit is free for a claim. -/
  | matrixClearEnd (t : TileId)
  /-- TRANSFER_RECORD (R196): a channel performs one transfer record or single copy and writes it back. -/
  | transferRecord (t : TileId) (c : ChanId)
  /-- CHAIN_OWN_POLL (R197): a channel re-reads a record's control word every 256 cycles while OWN is 0. -/
  | chainOwnPoll (t : TileId) (c : ChanId)
  /-- CIRQ_REQUEST (R248): the Meridian checks a circuit request, reserves slots and writes tables and reply. -/
  | cirqRequest (d : DieId)
  /-- CIRZ_REQUEST (R253): the Meridian resizes a circuit make-before-break. -/
  | cirzRequest (d : DieId)
  /-- CIRX_REQUEST (R254): the Meridian marks a circuit closing. -/
  | cirxRequest (d : DieId)
  /-- CIRCUIT_CLOSE_END (R254): circuit entries are removed at t + D + 1 and RING clears after the last landing. -/
  | circuitCloseEnd (h : BitVec 32)
  /-- CONFIG_WORD (R245): a router's configuration agent acts on or forwards a slot-0 word. -/
  | configWord (n : Nat)
  /-- SLOT_TABLE_ACTIVATION (R246): pending table writes are applied at their activation SIDCOUNT. -/
  | slotTableActivation
  /-- CIRCUIT_WORD_INJECT (R232): a queued word leaves in an owned slot of its circuit. -/
  | circuitWordInject (h : BitVec 32)
  /-- CIRCUIT_WORD_LAND (R234): a circuit word lands in its ring and updates the ring's barrier. -/
  | circuitWordLand (h : BitVec 32)
  /-- LATCH_ENTRY_LAND (R293): the last word of a ring entry lands and the entry joins the latch. -/
  | latchEntryLand (h : BitVec 32)
  /-- READREQ (R257): relay read request served at a line's home. -/
  | readreq (n : Nat)
  /-- READRSP (R257): relay read reply writes the requester's register. -/
  | readrsp (n : Nat)
  /-- WRITE (R257): relay write performed at the target. -/
  | write (n : Nat)
  /-- AMOREQ (R136): relay atomic request performed at the home. -/
  | amoreq (n : Nat)
  /-- AMORSP (R257): relay atomic reply returns the old value and flags. -/
  | amorsp (n : Nat)
  /-- PAIRPUSH (R359): a pair arrives for a tile's bag, spilling or being refused when full. -/
  | pairpush (n : Nat)
  /-- NETOP (R354): hold request or link operation at a node's home. -/
  | netop (n : Nat)
  /-- NETRSP (R354): grant or result of a net operation at a home. -/
  | netrsp (n : Nat)
  /-- BORROW (R368): a neighbour's borrow request is answered with a ROAM pair or nothing. -/
  | borrow (n : Nat)
  /-- MSG (R208): a relay message lands in a sequence's queue or is refused. -/
  | msg (n : Nat)
  /-- CREDIT (R438): returns circuit credits or readmits a refused message. -/
  | credit (n : Nat)
  /-- ACK (R259): acknowledges a relay message so the source drops it. -/
  | ack (n : Nat)
  /-- RECALL (R136): the home recalls a line from a near buffer. -/
  | recall (n : Nat)
  /-- RELAY_RESEND (R259): an unacknowledged message is resent after 16,384 slots. -/
  | relayResend (n : Nat)
  /-- ACK_FORCED (R259): an ACK waiting 4,096 slots takes the next slot ahead of others. -/
  | ackForced (n : Nat)
  /-- SLICE_ARRIVAL (R167): a VRORD slice reaches the object's home and is merged, held or dropped. -/
  | sliceArrival (n : Nat)
  /-- MEMORY_READ (R273): a read header reaches a memory port queue. -/
  | memoryRead (n : Nat)
  /-- MEMORY_WRITE (R273): a write header and data reach a memory port queue. -/
  | memoryWrite (n : Nat)
  /-- PORT_SERVICE (R274): the port serves a queued request within its bound and sends the reply. -/
  | portService (port : Fin 96) (part : PartId) (chan : Fin 48)
  /-- RDATA (R276): read data installs a line in its home bank. -/
  | rdata (n : Nat)
  /-- WACK (R276): write acknowledgement releases a written-back line. -/
  | wack (n : Nat)
  /-- NACK (R273): refusal from a fenced pseudo-channel, treated as poison. -/
  | nack (n : Nat)
  /-- BYPASS (R278): a bank-bypass access performed directly on HBM. -/
  | bypass (n : Nat)
  /-- TRANSLATION_WALK (R400): a queued two-stage walk completes, installs or faults. -/
  | translationWalk (t : TileId) (n : Fin 2)
  /-- SCOREBOARD_SWITCH (R381): a variable-latency wait reaching its 9th cycle is a switch event. -/
  | scoreboardSwitch (t : TileId)
  /-- QUANTUM_EXPIRY (R383): the 4,096-cycle quantum ends. -/
  | quantumExpiry (t : TileId)
  /-- AGING (R382): each 65,536 ready cycles raises a candidate's effective priority. -/
  | aging (t : TileId)
  /-- PREEMPT_LIMIT (R385): a pending pre-emption is taken after 256 bundles without SAFE. -/
  | preemptLimit (t : TileId)
  /-- THREAD_RESTORE_END (R391): a context load completes and the thread resumes with its residues. -/
  | threadRestoreEnd (t : TileId) (k : StrandId)
  /-- RUNAWAY (R214): a rewrite's 4,097th bundle raises RUNAWAY. -/
  | runaway (t : TileId)
  /-- BORROW_START (R368): a tile idle for 256 cycles sends BORROW to a neighbour. -/
  | borrowStart (t : TileId)
  /-- POOL_REFILL (R357): the partition manager refills an empty Nebula pool. -/
  | poolRefill (t : TileId) (q : SeqId) (page : Page)
  /-- HELD_SPAWN_START (R380): a held spawn starts when a thread-table entry frees. -/
  | heldSpawnStart (t : TileId)
  /-- QUIET_SWEEP (R371): die controllers sweep activity counts every 65,536 slots. -/
  | quietSweep
  /-- EVENT_SEND (R422): a die controller sends one queued event toward the host port. -/
  | eventSend (d : DieId)
  /-- CREATE_PARTITION (R420): creates a partition with blocks, VFs, budgets and memory circuits. -/
  | createPartition (h : HostHdr) (b : CreateBody)
  /-- DESTROY_PARTITION (R419): resets and releases a partition. -/
  | destroyPartition (h : HostHdr) (part : PartId)
  /-- RESET_VF (R423): ends a VF's sequences and restarts its streams and tags. -/
  | resetVf (h : HostHdr) (vf : Fin 192)
  /-- RESET_PARTITION (R423): resets every VF of a partition and reopens its memory circuits. -/
  | resetPartition (h : HostHdr) (part : PartId)
  /-- RESET_DIE (R277): stops a die's tiles, drains banks and enters bypass. -/
  | resetDie (h : HostHdr) (d : DieId)
  /-- DIE_RESET_END (R277): tiles leave reset and bypass ends. -/
  | dieResetEnd (d : DieId)
  /-- DIE_RESET_TIMEOUT (R277): a die still in reset after 50 ms is fenced. -/
  | dieResetTimeout (d : DieId)
  /-- RESET_PACKAGE (R423): destroys all partitions, zeroizes keys and reboots. -/
  | resetPackage (h : HostHdr)
  /-- S2_WRITE (R437): writes one stage-2 entry and invalidates. -/
  | s2Write (h : HostHdr) (b : S2Body)
  /-- COOL (R283): moves the cold state machine from WARM to NIGHTFALL. -/
  | cool (h : HostHdr)
  /-- WARMUP (R283): moves the cold state machine toward DAYBREAK or WARM. -/
  | warmup (h : HostHdr)
  /-- FAULTINJ_COMMAND (R419): firmware issues FAULTINJ on a named tile for the host. -/
  | faultinjCommand (h : HostHdr) (t : TileId) (ga : W) (gb : W)
  /-- PEER_CIRCUIT (R248): opens a circuit across peer links for a VF. -/
  | peerCircuit (h : HostHdr) (b : PeerBody)
  /-- OCCULT (R266): revokes or restores a package's partition keys. -/
  | occult (h : HostHdr) (pkg : Fin 4096) (restore : Bool)
  /-- RESEND (R418): resends a function's kept messages from a SEQNO. -/
  | resend (h : HostHdr) (first : W)
  /-- START_SEQUENCE (R377): launches a sequence image. -/
  | startSequence (h : HostHdr) (b : StartBody)
  /-- END_SEQUENCE (R427): ends a sequence by an Eclipse. -/
  | endSequence (h : HostHdr) (seq : Fin 16)
  /-- REPLAY (R395): instantiates a net template and pushes its seed pairs. -/
  | replay (h : HostHdr) (b : ReplayBody)
  /-- TLB_INVAL (R410): guest-requested invalidation of its sequence. -/
  | tlbInval (h : HostHdr) (b : InvalBody)
  /-- UNPARK (R419): re-runs or drops a pair parked for poison or fault. -/
  | unpark (h : HostHdr) (b : UnparkBody)
  /-- KEY_ROTATE (R429): rotates a sequence's keys with a Transit sweep. -/
  | keyRotate (h : HostHdr) (seq : Fin 16)
  /-- TRANSIT_SWEEP_UNIT (R429): the sweep pointer re-enciphers one unit under the new generation. -/
  | transitSweepUnit (d : DieId) (q : SeqId)
  /-- ATTEST (R432): returns a signed attestation quote. -/
  | attest (h : HostHdr) (nonce : BitVec 256) (seq : Fin 16)
  /-- READ_COUNTERS (R433): returns coarse counters of the last window. -/
  | readCounters (h : HostHdr) (target : Fin 16)
  /-- COUNTER_WINDOW (R433): a counter window of 1.6 × 10^9 SIDCOUNT steps closes. -/
  | counterWindow
  /-- SET_DUMPAREA (R434): names the area for sealed dumps. -/
  | setDumparea (h : HostHdr) (seq : Fin 16) (va : W)
  /-- PAGE_REPLY (R414): answers a page request, waking or failing its requesters. -/
  | pageReply (h : HostHdr) (b : ReplyBody)
  /-- HOST_READ (R424): host reads sequence memory unit by unit. -/
  | hostRead (h : HostHdr) (b : HostAccess)
  /-- HOST_WRITE (R424): host writes sequence memory unit by unit. -/
  | hostWrite (h : HostHdr) (b : HostAccess)
  /-- SYNC_PERIOD (R263): every 65,536 slots the upstream end sends SYNC. -/
  | syncPeriod (p : Fin 16) (t1 : Stamp)
  /-- SYNC (R263): downstream stamps SYNC arrival and sends DREQ. -/
  | sync (p : Fin 16) (t2 : Stamp)
  /-- DREQ (R263): upstream answers with DRESP. -/
  | dreq (p : Fin 16) (t4 : Stamp)
  /-- DRESP (R263): downstream computes offset and delay, slews or leaves the domain. -/
  | dresp (p : Fin 16) (sid : Nat)
  /-- LSU_DOWN (R267): flooded fencing stops transmission toward a package. -/
  | lsuDown (pkg : Fin 4096)
  /-- LSU_UP (R267): readmits a fenced package. -/
  | lsuUp (pkg : Fin 4096)
  /-- REVOKE (R266): an Occultation epoch is applied once and forwarded. -/
  | revoke (pkg : Fin 4096) (epoch : BitVec 12) (restore : Bool)
  /-- DRAIN (R267): a numbered drain round discards words for the fenced package. -/
  | drain (pkg : Fin 4096) (round : Fin 4)
  /-- DRAIN_ROUND_END (R267): a 65,536-slot drain round ends; after round 3 slots are freed. -/
  | drainRoundEnd (pkg : Fin 4096)
  /-- PEER_WORD_INGRESS (R265): an incoming peer word with a revoked PKEY is discarded. -/
  | peerWordIngress (p : Fin 16) (pkey : BitVec 16) (h : BitVec 32) (w : BitVec 256)
  /-- PEER_LINK_TRAIN (R261): trains a peer link and measures its hop delay; W and the package that it finds there. -/
  | peerLinkTrain (p : Fin 16) (ok : Bool) (delta : Nat) (w : Nat) (pkg : Fin 4096)
  /-- PEER_LINK_WANDER (R261): wander beyond ±2 slots takes the link out of service. -/
  | peerLinkWander (p : Fin 16)
  /-- SENSOR_READ (R279): every 1 ms sensors are read and bands, clocks and refresh updated. -/
  | sensorRead (d : DieId) (die : Nat) (temps : List Nat) (rate : Nat)
  /-- NIGHTFALL_SETTLED (R283): after 60 s at 82 K or below the package trains and enters COLD. -/
  | nightfallSettled
  /-- SLOT_CLOCK_CHANGE (R285): after in-flight words land, the slot clock changes speed. -/
  | slotClockChange
  /-- HBM_RETRAIN_END (R281): a stack's ports finish retraining at the new rate. -/
  | hbmRetrainEnd (k : StackId)
  /-- SUPPLY_LOSS (R31): loss of supply. -/
  | supplyLoss
  /-- SUPPLY_RETURN (R284): zeroizes key slots and starts the state machine in WARM or NIGHTFALL. -/
  | supplyReturn
  /-- PATROL_SCRUB (R282): the base die scrubs one line. -/
  | patrolScrub (k : StackId) (line : Nat) (bits : Fin 3)
  /-- PSEUDO_CHANNEL_COPY_END (R309): the spare takes over the pseudo-channel's number. -/
  | pseudoChannelCopyEnd (k : StackId) (c : Fin 384)
  /-- LANE_REPAIR (R310): a failing lane moves to a spare at a revolution boundary. -/
  | laneRepair (d : DieId) (peer : Bool) (unit : Fin 48)
  /-- TILE_TRANSPLANT (R307): moves a fenced logical tile to a spare. -/
  | tileTransplant (t : TileId)
  /-- DIE_LINK_DOWN (R311): a die-edge link goes down and circuits are re-pathed. -/
  | dieLinkDown (d : DieId)
  /-- DIE_SPLIT (R312): dies without die 0 for 1 ms fence themselves. -/
  | dieSplit (d : DieId)
  /-- ILLEGAL_OP (R80): a fetched bundle that fails decoding or breaks a bundle rule issues no word and raises ILLEGAL_OP at its bundle address. -/
  | illegalOp (t : TileId)
  /-- FETCH_FAULT (R53): fetch of a bundle's words faults (translation, permission, poison or a stage-2 miss) and is reported at the bundle address or parks the thread. -/
  | fetchFault (t : TileId)
  /-- PEER_LINK_FAILURE (R266): a peer link, or its Ephemeris exchange, fails twice in a row, and firmware starts an Occultation of the attached package. -/
  | peerLinkFailure (p : Fin 16)
  /-- DIE_LINK_HEAL (R312): failed die-edge links heal, and the fenced group reports through die 0 and may be readmitted. -/
  | dieLinkHeal (d : DieId)
  /-- SLOT_DOMAIN_FORMATION (R240): the fabric manager forms a slot domain, choosing W, the reference package and each package's upstream peer port. -/
  | slotDomainFormation (w : Fin 4) (refPkg : Fin 4096) (own : Fin 4096) (up : Option (Fin 16))
  /-- TILE_TRANSPLANT_END (R307): a transplant completes, and held loads, Meridian requests and any second fault on the die proceed. -/
  | tileTransplantEnd (d : DieId)
  deriving DecidableEq, Repr

end Sys2Proof
end

