-- ==== Sys2Proof/WellFormed.lean ====
section
/-! DEFINITION. The conditions on an instruction's operands that its constructor's types do not already hold: the reserved
values of spec/04 that only several fields together show. -/

namespace Sys2Proof

/-- The pairs that R94 marks narrowing FP, on which .rst is accepted. -/
def CvtPair.narrowing : CvtPair → Bool
  | .f16f32 | .bf16f32 | .f16bf16 | .bf16f16 => true
  | .f32f16 | .f32bf16 | .i32f32 | .n32f32 | .f32i32 | .f32n32 | .i16f16 | .f16i16 => false

/-- No reserved value (R80 step 4). -/
def Instr.wellFormed : Instr → Bool
  | .loop l _ => l != 0                                  -- R85
  | .loopi l _ => l != 0                                 -- R85
  | .vcvt _ _ p _ r => r != .rst || p.narrowing          -- R94
  | .cpys _ b _ _ => b.val + 1 < 64                      -- R188
  | .cgath _ b _ => b.val + 2 < 64                       -- R188
  | .cscat _ b _ => b.val + 2 < 64                       -- R188
  | .cirz _ _ n => n != 0                                -- R203
  | .nport _ _ h p => !h || p == 0                       -- R211
  | .add .. | .sub .. | .and .. | .or .. | .xor .. | .andn .. | .orn .. | .shl .. | .shr .. | .sha ..
  | .rol .. | .slt .. | .sltn .. | .seq .. | .sne .. | .min .. | .max .. | .minn .. | .maxn .. | .csel ..
  | .extr .. | .insr .. | .lea .. | .clz .. | .ctz .. | .popc .. | .brev .. | .addi .. | .andi .. | .ori ..
  | .xori .. | .shli .. | .shri .. | .shai .. | .slti .. | .sltni .. | .seqi .. | .limm .. | .addpc ..
  | .mul .. | .mulh .. | .mulhn .. | .div .. | .divn .. | .rem .. | .remn .. | .beq .. | .bne .. | .blt ..
  | .bge .. | .bltn .. | .bgen .. | .bz .. | .bnz .. | .jmp .. | .call .. | .nop | .jr .. | .callr ..
  | .trap .. | .eret | .wfe | .yield | .safe | .halt | .bkpt | .tlbi .. | .keyop .. | .faultinj .. | .crr ..
  | .crw .. | .crx .. | .ld .. | .st .. | .lda .. | .str .. | .pref .. | .fence .. | .fenceI | .amoaddI64 ..
  | .amoand .. | .amoor .. | .amoxor .. | .amomin .. | .amomax .. | .amominn .. | .amomaxn .. | .amoswapI64 ..
  | .casI64 .. | .amoaddI32 .. | .amoswapI32 .. | .casI32 .. | .amofadd .. | .pgive .. | .ptake .. | .pstat ..
  | .binit .. | .barrive .. | .bexpect .. | .bwait .. | .btry .. | .vld .. | .vst .. | .vldm .. | .vstm ..
  | .vlds .. | .vsts .. | .vldb .. | .vgath .. | .vscat .. | .vamo .. | .vadd .. | .vsub .. | .vmul ..
  | .vmulh .. | .vmin .. | .vmax .. | .vminn .. | .vmaxn .. | .vshl .. | .vshr .. | .vsha .. | .vabs ..
  | .vneg .. | .vsat .. | .vclz .. | .vpopc .. | .vand .. | .vor .. | .vxor .. | .vandn .. | .vfadd ..
  | .vfsub .. | .vfmul .. | .vfmin .. | .vfmax .. | .vfabs .. | .vfneg .. | .vfrnd .. | .vfclass ..
  | .vfrcp .. | .vfrsq .. | .vfexp2 .. | .vflog2 .. | .vfma .. | .vfms .. | .vfnma .. | .vpack .. | .vunpk ..
  | .vnarrow .. | .vwiden .. | .vperm .. | .vslide .. | .vtrn .. | .vcompr .. | .vexpd .. | .vredInt ..
  | .vredFp .. | .vscanInt .. | .vscanFp .. | .vrord .. | .kand .. | .kor .. | .kxor .. | .knot .. | .kmov ..
  | .kpopc .. | .kfirst .. | .kset .. | .vsel .. | .vbcast .. | .vext .. | .vins .. | .vcmp .. | .vfcmp ..
  | .mma .. | .mmaRing .. | .mmat .. | .mmatRing .. | .mclaim | .mrel | .mzero .. | .mswap .. | .mldacc ..
  | .mstacc .. | .mringSend .. | .mringSendPop .. | .mringLatch .. | .mringLatchPop .. | .mringPop | .mchk ..
  | .mfix .. | .mstat .. | .mwait | .cpy .. | .chain .. | .cseal .. | .cwait .. | .cstat .. | .ccancel ..
  | .cirq .. | .cirx .. | .csend .. | .crecv .. | .msend .. | .mrecv .. | .mpoll .. | .nalloc .. | .nfree ..
  | .nlink .. | .npush .. | .rcommit | .rabort .. | .spawn .. | .lfsrseedWrite .. | .trapvecWrite ..
  | .placemaskWrite .. | .faultinjDisarm .. | .controlRegisterWrite .. | .keyopGen .. | .keyopZero ..
  | .keyopRotate .. | .keyopRetire .. | .keyopStat .. | .tlbiKeySlot .. | .tlbiPage .. | .tlbiSequence ..
  | .tlbiStage2Page .. | .tlbiPartition .. | .tlbiAll .. | .parallaxRetry .. | .divideComplete ..
  | .matrixWordComplete .. | .matrixClearEnd .. | .transferRecord .. | .chainOwnPoll .. | .cirqRequest ..
  | .cirzRequest .. | .cirxRequest .. | .circuitCloseEnd .. | .configWord .. | .slotTableActivation
  | .circuitWordInject .. | .circuitWordLand .. | .latchEntryLand .. | .readreq .. | .readrsp .. | .write ..
  | .amoreq .. | .amorsp .. | .pairpush .. | .netop .. | .netrsp .. | .borrow .. | .msg .. | .credit ..
  | .ack .. | .recall .. | .relayResend .. | .ackForced .. | .sliceArrival .. | .memoryRead ..
  | .memoryWrite .. | .portService .. | .rdata .. | .wack .. | .nack .. | .bypass .. | .translationWalk ..
  | .scoreboardSwitch .. | .quantumExpiry .. | .aging .. | .preemptLimit .. | .threadRestoreEnd ..
  | .runaway .. | .borrowStart .. | .poolRefill .. | .heldSpawnStart .. | .quietSweep | .eventSend ..
  | .createPartition .. | .destroyPartition .. | .resetVf .. | .resetPartition .. | .resetDie ..
  | .dieResetEnd .. | .dieResetTimeout .. | .resetPackage .. | .s2Write .. | .cool .. | .warmup ..
  | .faultinjCommand .. | .peerCircuit .. | .occult .. | .resend .. | .startSequence .. | .endSequence ..
  | .replay .. | .tlbInval .. | .unpark .. | .keyRotate .. | .transitSweepUnit .. | .attest ..
  | .readCounters .. | .counterWindow | .setDumparea .. | .pageReply .. | .hostRead .. | .hostWrite ..
  | .syncPeriod .. | .sync .. | .dreq .. | .dresp .. | .lsuDown .. | .lsuUp .. | .revoke .. | .drain ..
  | .drainRoundEnd .. | .peerWordIngress .. | .peerLinkTrain .. | .peerLinkWander .. | .sensorRead ..
  | .nightfallSettled | .slotClockChange | .hbmRetrainEnd .. | .supplyLoss | .supplyReturn | .patrolScrub ..
  | .pseudoChannelCopyEnd .. | .laneRepair .. | .tileTransplant .. | .dieLinkDown .. | .dieSplit ..
  | .illegalOp .. | .fetchFault .. | .peerLinkFailure .. | .dieLinkHeal .. | .slotDomainFormation ..
  | .tileTransplantEnd .. => true

end Sys2Proof
end

