-- ==== Sys2Proof/Decode.lean ====
section
/-! DEFINITION. Decoding of Efjan words (spec/03 R51, R73–R75; spec/04 R80–R97), total and rejecting by name, and the
encoder written from the same tables. Words are numbers, bit 0 least significant (R2). -/

namespace Sys2Proof

/-- Why a word is no instruction: the four steps of R80. -/
inductive Reject
  /-- Step 1: MAJ 0x00, 0x1E or 0x1F. -/
  | major
  /-- Step 2: a reserved function code. -/
  | function
  /-- Step 3: a field that the form does not use is not zero. -/
  | unused
  /-- Step 4: a reserved field value. -/
  | value
  deriving DecidableEq, Repr

/-- A word with its bundle fields (R51). -/
structure Word where
  e : Bool
  w : Fin 4
  i : Instr
  deriving DecidableEq, Repr

/-- The code of IType (spec/04). -/
def IType.code : IType → Nat
  | .i8 => 0
  | .i16 => 1
  | .i32 => 2
  | .i64 => 3
  | .n8 => 4
  | .n16 => 5
  | .n32 => 6

/-- The IType of a code, none where the code is reserved. -/
def IType.ofCode (n : Nat) : Option IType :=
  match n with
  | 0 => some .i8
  | 1 => some .i16
  | 2 => some .i32
  | 3 => some .i64
  | 4 => some .n8
  | 5 => some .n16
  | 6 => some .n32
  | _ => Option.none

/-- The code of Ord (spec/04). -/
def Ord.code : Ord → Nat
  | .none => 0
  | .acq => 1
  | .rel => 2
  | .ar => 3

/-- The Ord of a code, none where the code is reserved. -/
def Ord.ofCode (n : Nat) : Option Ord :=
  match n with
  | 0 => some .none
  | 1 => some .acq
  | 2 => some .rel
  | 3 => some .ar
  | _ => Option.none

/-- The code of Scope (spec/04). -/
def Scope.code : Scope → Nat
  | .tile => 0
  | .die => 1
  | .package => 2
  | .domain => 3
  | .system => 4

/-- The Scope of a code, none where the code is reserved. -/
def Scope.ofCode (n : Nat) : Option Scope :=
  match n with
  | 0 => some .tile
  | 1 => some .die
  | 2 => some .package
  | 3 => some .domain
  | 4 => some .system
  | _ => Option.none

/-- The code of W2 (spec/04). -/
def W2.code : W2 → Nat
  | .b8 => 0
  | .b16 => 1
  | .b32 => 2

/-- The W2 of a code, none where the code is reserved. -/
def W2.ofCode (n : Nat) : Option W2 :=
  match n with
  | 0 => some .b8
  | 1 => some .b16
  | 2 => some .b32
  | _ => Option.none

/-- The code of FP2 (spec/04). -/
def FP2.code : FP2 → Nat
  | .f32 => 0
  | .f16 => 1
  | .bf16 => 2

/-- The FP2 of a code, none where the code is reserved. -/
def FP2.ofCode (n : Nat) : Option FP2 :=
  match n with
  | 0 => some .f32
  | 1 => some .f16
  | 2 => some .bf16
  | _ => Option.none

/-- The code of Rnd (spec/04). -/
def Rnd.code : Rnd → Nat
  | .rm => 0
  | .rne => 1
  | .rtz => 2
  | .rup => 3
  | .rdn => 4
  | .rst => 5

/-- The Rnd of a code, none where the code is reserved. -/
def Rnd.ofCode (n : Nat) : Option Rnd :=
  match n with
  | 0 => some .rm
  | 1 => some .rne
  | 2 => some .rtz
  | 3 => some .rup
  | 4 => some .rdn
  | 5 => some .rst
  | _ => Option.none

/-- The code of CvtPair (spec/04). -/
def CvtPair.code : CvtPair → Nat
  | .f32f16 => 0
  | .f32bf16 => 1
  | .f16f32 => 2
  | .bf16f32 => 3
  | .f16bf16 => 4
  | .bf16f16 => 5
  | .i32f32 => 8
  | .n32f32 => 9
  | .f32i32 => 10
  | .f32n32 => 11
  | .i16f16 => 12
  | .f16i16 => 13

/-- The CvtPair of a code, none where the code is reserved. -/
def CvtPair.ofCode (n : Nat) : Option CvtPair :=
  match n with
  | 0 => some .f32f16
  | 1 => some .f32bf16
  | 2 => some .f16f32
  | 3 => some .bf16f32
  | 4 => some .f16bf16
  | 5 => some .bf16f16
  | 8 => some .i32f32
  | 9 => some .n32f32
  | 10 => some .f32i32
  | 11 => some .f32n32
  | 12 => some .i16f16
  | 13 => some .f16i16
  | _ => Option.none

/-- The code of BX (spec/04). -/
def BX.code : BX → Nat
  | .bx3 => 0
  | .bx5 => 1
  | .bx8 => 2

/-- The BX of a code, none where the code is reserved. -/
def BX.ofCode (n : Nat) : Option BX :=
  match n with
  | 0 => some .bx3
  | 1 => some .bx5
  | 2 => some .bx8
  | _ => Option.none

/-- The code of NarrowSel (spec/04). -/
def NarrowSel.code : NarrowSel → Nat
  | .i16i32 => 0
  | .n16n32 => 1
  | .i8i16 => 2
  | .n8n16 => 3

/-- The NarrowSel of a code, none where the code is reserved. -/
def NarrowSel.ofCode (n : Nat) : Option NarrowSel :=
  match n with
  | 0 => some .i16i32
  | 1 => some .n16n32
  | 2 => some .i8i16
  | 3 => some .n8n16
  | _ => Option.none

/-- The code of WidenSel (spec/04). -/
def WidenSel.code : WidenSel → Nat
  | .i32i16 => 0
  | .n32n16 => 1
  | .i16i8 => 2
  | .n16n8 => 3

/-- The WidenSel of a code, none where the code is reserved. -/
def WidenSel.ofCode (n : Nat) : Option WidenSel :=
  match n with
  | 0 => some .i32i16
  | 1 => some .n32n16
  | 2 => some .i16i8
  | 3 => some .n16n8
  | _ => Option.none

/-- The code of RedSel (spec/04). -/
def RedSel.code : RedSel → Nat
  | .sum => 0
  | .min => 1
  | .max => 2
  | .minn => 3
  | .maxn => 4

/-- The RedSel of a code, none where the code is reserved. -/
def RedSel.ofCode (n : Nat) : Option RedSel :=
  match n with
  | 0 => some .sum
  | 1 => some .min
  | 2 => some .max
  | 3 => some .minn
  | 4 => some .maxn
  | _ => Option.none

/-- The code of FRedSel (spec/04). -/
def FRedSel.code : FRedSel → Nat
  | .sum => 0
  | .min => 1
  | .max => 2

/-- The FRedSel of a code, none where the code is reserved. -/
def FRedSel.ofCode (n : Nat) : Option FRedSel :=
  match n with
  | 0 => some .sum
  | 1 => some .min
  | 2 => some .max
  | _ => Option.none

/-- The code of Cond (spec/04). -/
def Cond.code : Cond → Nat
  | .eq => 0
  | .ne => 1
  | .lt => 2
  | .ge => 3
  | .ltn => 4
  | .gen => 5

/-- The Cond of a code, none where the code is reserved. -/
def Cond.ofCode (n : Nat) : Option Cond :=
  match n with
  | 0 => some .eq
  | 1 => some .ne
  | 2 => some .lt
  | 3 => some .ge
  | 4 => some .ltn
  | 5 => some .gen
  | _ => Option.none

/-- The code of FCond (spec/04). -/
def FCond.code : FCond → Nat
  | .eq => 0
  | .lt => 1
  | .le => 2
  | .un => 3

/-- The FCond of a code, none where the code is reserved. -/
def FCond.ofCode (n : Nat) : Option FCond :=
  match n with
  | 0 => some .eq
  | 1 => some .lt
  | 2 => some .le
  | 3 => some .un
  | _ => Option.none

/-- The code of VAmoT (spec/04). -/
def VAmoT.code : VAmoT → Nat
  | .i32 => 0
  | .f32 => 1

/-- The VAmoT of a code, none where the code is reserved. -/
def VAmoT.ofCode (n : Nat) : Option VAmoT :=
  match n with
  | 0 => some .i32
  | 1 => some .f32
  | _ => Option.none

/-- The code of XPose (spec/04). -/
def XPose.code : XPose → Nat
  | .none => 0
  | .t8 => 1
  | .t16 => 2

/-- The XPose of a code, none where the code is reserved. -/
def XPose.ofCode (n : Nat) : Option XPose :=
  match n with
  | 0 => some .none
  | 1 => some .t8
  | 2 => some .t16
  | _ => Option.none

/-! ### Fields -/

/-- A six-bit scalar-register field (R73). -/
def gAt (w lo : Nat) : GReg := ⟨bitsAt w lo 6, by unfold bitsAt; omega⟩
/-- A five-bit scalar-register field: g0 to g31 (R90). -/
def gLowAt (w lo : Nat) : GLow := ⟨bitsAt w lo 5, by unfold bitsAt; omega⟩
/-- A five-bit vector-register field. -/
def vAt (w lo : Nat) : VReg := ⟨bitsAt w lo 5, by unfold bitsAt; omega⟩
/-- A six-bit vector-register field: 32 to 63 are reserved (R90). -/
def v6At (w lo : Nat) : Option VReg := if h : bitsAt w lo 6 < 32 then some ⟨bitsAt w lo 6, h⟩ else none
/-- A three-bit mask-register field. -/
def kAt (w lo : Nat) : KReg := ⟨bitsAt w lo 3, by unfold bitsAt; omega⟩
/-- A five-bit field that names a mask register: 8 to 31 are reserved (R90). -/
def k5At (w lo : Nat) : Option KReg := if h : bitsAt w lo 5 < 8 then some ⟨bitsAt w lo 5, h⟩ else none
/-- The accumulator field. -/
def accAt (w lo : Nat) : Acc := ⟨bitsAt w lo 2, by unfold bitsAt; omega⟩
/-- The channel field. -/
def chanAt (w lo : Nat) : ChanId := ⟨bitsAt w lo 2, by unfold bitsAt; omega⟩
/-- A two-bit count. -/
def fin4At (w lo : Nat) : Fin 4 := ⟨bitsAt w lo 2, by unfold bitsAt; omega⟩
/-- A four-bit count. -/
def fin16At (w lo : Nat) : Fin 16 := ⟨bitsAt w lo 4, by unfold bitsAt; omega⟩
/-- A six-bit count. -/
def fin64At (w lo : Nat) : Fin 64 := ⟨bitsAt w lo 6, by unfold bitsAt; omega⟩
/-- A one-bit flag. -/
def boolAt (w lo : Nat) : Bool := bitsAt w lo 1 == 1
/-- An immediate field. -/
def bvAt (w lo n : Nat) : BitVec n := BitVec.ofNat n (bitsAt w lo n)

/-- Step 3 of R80: the field must be zero. -/
def zeroField (w lo n : Nat) (k : Except Reject Instr) : Except Reject Instr :=
  if bitsAt w lo n = 0 then k else .error .unused

/-- Step 4 of R80: the field must hold a value that its table defines. -/
def value {α : Type} (o : Option α) (k : α → Except Reject Instr) : Except Reject Instr :=
  match o with
  | some a => k a
  | none => .error .value

/-- Step 4 of R80 for values that only the whole word shows (R85, R94, R188, R203, R211). -/
def checked (i : Instr) : Except Reject Instr := if i.wellFormed then .ok i else .error .value

/-! ### One decoder per major -/

/-- MAJ 0x01: register ALU forms (R83). -/
def decodeMaj01 (w : Nat) : Except Reject Instr :=
  match bitsAt w 0 6 with
  | 0 => .ok (.add (gAt w 18) (gAt w 12) (gAt w 6))
  | 1 => .ok (.sub (gAt w 18) (gAt w 12) (gAt w 6))
  | 2 => .ok (.and (gAt w 18) (gAt w 12) (gAt w 6))
  | 3 => .ok (.or (gAt w 18) (gAt w 12) (gAt w 6))
  | 4 => .ok (.xor (gAt w 18) (gAt w 12) (gAt w 6))
  | 5 => .ok (.andn (gAt w 18) (gAt w 12) (gAt w 6))
  | 6 => .ok (.orn (gAt w 18) (gAt w 12) (gAt w 6))
  | 8 => .ok (.shl (gAt w 18) (gAt w 12) (gAt w 6))
  | 9 => .ok (.shr (gAt w 18) (gAt w 12) (gAt w 6))
  | 10 => .ok (.sha (gAt w 18) (gAt w 12) (gAt w 6))
  | 11 => .ok (.rol (gAt w 18) (gAt w 12) (gAt w 6))
  | 16 => .ok (.slt (gAt w 18) (gAt w 12) (gAt w 6))
  | 17 => .ok (.sltn (gAt w 18) (gAt w 12) (gAt w 6))
  | 18 => .ok (.seq (gAt w 18) (gAt w 12) (gAt w 6))
  | 19 => .ok (.sne (gAt w 18) (gAt w 12) (gAt w 6))
  | 20 => .ok (.min (gAt w 18) (gAt w 12) (gAt w 6))
  | 21 => .ok (.max (gAt w 18) (gAt w 12) (gAt w 6))
  | 22 => .ok (.minn (gAt w 18) (gAt w 12) (gAt w 6))
  | 23 => .ok (.maxn (gAt w 18) (gAt w 12) (gAt w 6))
  | 24 => .ok (.csel (gAt w 18) (gAt w 12) (gAt w 6))
  | 28 => .ok (.extr (gAt w 18) (gAt w 12) (gAt w 6))
  | 29 => .ok (.insr (gAt w 18) (gAt w 12) (gAt w 6))
  | 30 => .ok (.lea (gAt w 18) (gAt w 12) (gAt w 6))
  | 32 => zeroField w 6 6 (.ok (.clz (gAt w 18) (gAt w 12)))
  | 33 => zeroField w 6 6 (.ok (.ctz (gAt w 18) (gAt w 12)))
  | 34 => zeroField w 6 6 (.ok (.popc (gAt w 18) (gAt w 12)))
  | 35 => zeroField w 6 6 (.ok (.brev (gAt w 18) (gAt w 12)))
  | _ => .error .function

/-- MAJ 0x02: ADDI (R84). -/
def decodeMaj02 (w : Nat) : Except Reject Instr :=
  .ok (.addi (gAt w 18) (gAt w 12) (bvAt w 0 12))

/-- MAJ 0x03: logical immediates (R84). -/
def decodeMaj03 (w : Nat) : Except Reject Instr :=
  match bitsAt w 9 3 with
  | 0 => .ok (.andi (gAt w 18) (gAt w 12) (bvAt w 0 9))
  | 1 => .ok (.ori (gAt w 18) (gAt w 12) (bvAt w 0 9))
  | 2 => .ok (.xori (gAt w 18) (gAt w 12) (bvAt w 0 9))
  | _ => .error .function

/-- MAJ 0x04: shift and compare immediates (R84). -/
def decodeMaj04 (w : Nat) : Except Reject Instr :=
  match bitsAt w 9 3 with
  | 0 => zeroField w 6 3 (.ok (.shli (gAt w 18) (gAt w 12) (bvAt w 0 6)))
  | 1 => zeroField w 6 3 (.ok (.shri (gAt w 18) (gAt w 12) (bvAt w 0 6)))
  | 2 => zeroField w 6 3 (.ok (.shai (gAt w 18) (gAt w 12) (bvAt w 0 6)))
  | 3 => .ok (.slti (gAt w 18) (gAt w 12) (bvAt w 0 9))
  | 4 => .ok (.sltni (gAt w 18) (gAt w 12) (bvAt w 0 9))
  | 5 => .ok (.seqi (gAt w 18) (gAt w 12) (bvAt w 0 9))
  | _ => .error .function

/-- MAJ 0x05: LIMM and ADDPC (R84). -/
def decodeMaj05 (w : Nat) : Except Reject Instr :=
  match bitsAt w 16 2 with
  | 0 => .ok (.limm (gAt w 18) (bvAt w 0 16))
  | 1 => .ok (.addpc (gAt w 18) (bvAt w 0 16))
  | _ => .error .function

/-- MAJ 0x06: multiply and divide (R84). -/
def decodeMaj06 (w : Nat) : Except Reject Instr :=
  match bitsAt w 0 6 with
  | 0 => .ok (.mul (gAt w 18) (gAt w 12) (gAt w 6))
  | 1 => .ok (.mulh (gAt w 18) (gAt w 12) (gAt w 6))
  | 2 => .ok (.mulhn (gAt w 18) (gAt w 12) (gAt w 6))
  | 8 => .ok (.div (gAt w 18) (gAt w 12) (gAt w 6))
  | 9 => .ok (.divn (gAt w 18) (gAt w 12) (gAt w 6))
  | 10 => .ok (.rem (gAt w 18) (gAt w 12) (gAt w 6))
  | 11 => .ok (.remn (gAt w 18) (gAt w 12) (gAt w 6))
  | _ => .error .function

/-- MAJ 0x07: compare-branches (R84). -/
def decodeMaj07 (w : Nat) : Except Reject Instr :=
  match bitsAt w 9 3 with
  | 0 => .ok (.beq (gAt w 18) (gAt w 12) (bvAt w 0 9))
  | 1 => .ok (.bne (gAt w 18) (gAt w 12) (bvAt w 0 9))
  | 2 => .ok (.blt (gAt w 18) (gAt w 12) (bvAt w 0 9))
  | 3 => .ok (.bge (gAt w 18) (gAt w 12) (bvAt w 0 9))
  | 4 => .ok (.bltn (gAt w 18) (gAt w 12) (bvAt w 0 9))
  | 5 => .ok (.bgen (gAt w 18) (gAt w 12) (bvAt w 0 9))
  | _ => .error .function

/-- MAJ 0x08: BZ, BNZ, JMP, CALL (R84). -/
def decodeMaj08 (w : Nat) : Except Reject Instr :=
  match bitsAt w 22 2 with
  | 0 => .ok (.bz (gAt w 16) (bvAt w 0 16))
  | 1 => .ok (.bnz (gAt w 16) (bvAt w 0 16))
  | 2 => .ok (.jmp (bvAt w 0 22))
  | 3 => .ok (.call (bvAt w 0 22))
  | _ => .error .function

/-- MAJ 0x09: register jumps, loops and system forms (R85). -/
def decodeMaj09 (w : Nat) : Except Reject Instr :=
  match bitsAt w 0 6 with
  | 0 => zeroField w 6 18 (.ok .nop)
  | 1 => zeroField w 6 6 (zeroField w 18 6 (.ok (.jr (gAt w 12))))
  | 2 => zeroField w 6 6 (.ok (.callr (gAt w 18) (gAt w 12)))
  | 4 => zeroField w 6 6 (checked (.loop (bvAt w 18 6) (gAt w 12)))
  | 5 => checked (.loopi (bvAt w 18 6) (bvAt w 6 12))
  | 16 => zeroField w 18 6 (.ok (.trap (bvAt w 6 12)))
  | 17 => zeroField w 6 18 (.ok .eret)
  | 18 => zeroField w 6 18 (.ok .wfe)
  | 19 => zeroField w 6 18 (.ok .yield)
  | 20 => zeroField w 6 18 (.ok .safe)
  | 21 => zeroField w 6 18 (.ok .halt)
  | 22 => zeroField w 6 18 (.ok .bkpt)
  | 24 => zeroField w 18 6 (.ok (.tlbi (gAt w 12) (gAt w 6)))
  | 25 => .ok (.keyop (gAt w 18) (gAt w 12) (gAt w 6))
  | 26 => zeroField w 18 6 (.ok (.faultinj (gAt w 12) (gAt w 6)))
  | _ => .error .function

/-- MAJ 0x0A: control registers (R84). -/
def decodeMaj0A (w : Nat) : Except Reject Instr :=
  match bitsAt w 10 2 with
  | 0 => zeroField w 12 6 (.ok (.crr (gAt w 18) (bvAt w 0 10)))
  | 1 => zeroField w 18 6 (.ok (.crw (gAt w 12) (bvAt w 0 10)))
  | 2 => .ok (.crx (gAt w 18) (gAt w 12) (bvAt w 0 10))
  | _ => .error .function

/-- MAJ 0x0B: LD (R84). -/
def decodeMaj0B (w : Nat) : Except Reject Instr :=
  value (IType.ofCode (bitsAt w 9 3)) fun t => .ok (.ld (gAt w 18) (gAt w 12) t (bvAt w 0 9))

/-- MAJ 0x0C: ST (R84). -/
def decodeMaj0C (w : Nat) : Except Reject Instr :=
  value (IType.ofCode (bitsAt w 9 3)) fun t => .ok (.st (gAt w 18) (gAt w 12) t (bvAt w 0 9))

/-- MAJ 0x0D: LDA, STR, PREF, FENCE (R86). -/
def decodeMaj0D (w : Nat) : Except Reject Instr :=
  if bitsAt w 3 3 = 0 then zeroField w 6 6 (value (IType.ofCode (bitsAt w 0 3)) fun t => .ok (.lda (gAt w 18) (gAt w 12) t))
  else if bitsAt w 3 3 = 1 then zeroField w 18 6 (value (IType.ofCode (bitsAt w 0 3)) fun t => .ok (.str (gAt w 12) (gAt w 6) t))
  else if bitsAt w 0 6 = 16 then zeroField w 6 6 (zeroField w 18 6 (.ok (.pref (gAt w 12))))
  else if bitsAt w 3 3 = 4 then zeroField w 6 18 (value (Scope.ofCode (bitsAt w 0 3)) fun s => .ok (.fence s))
  else if bitsAt w 0 6 = 40 then zeroField w 6 18 (.ok .fenceI)
  else .error .function

/-- MAJ 0x0E: atomics (R87). -/
def decodeMaj0E (w : Nat) : Except Reject Instr :=
  match bitsAt w 2 4 with
  | 0 => value (Ord.ofCode (bitsAt w 0 2)) fun o => .ok (.amoaddI64 (gAt w 18) (gAt w 12) (gAt w 6) o)
  | 1 => value (Ord.ofCode (bitsAt w 0 2)) fun o => .ok (.amoand (gAt w 18) (gAt w 12) (gAt w 6) o)
  | 2 => value (Ord.ofCode (bitsAt w 0 2)) fun o => .ok (.amoor (gAt w 18) (gAt w 12) (gAt w 6) o)
  | 3 => value (Ord.ofCode (bitsAt w 0 2)) fun o => .ok (.amoxor (gAt w 18) (gAt w 12) (gAt w 6) o)
  | 4 => value (Ord.ofCode (bitsAt w 0 2)) fun o => .ok (.amomin (gAt w 18) (gAt w 12) (gAt w 6) o)
  | 5 => value (Ord.ofCode (bitsAt w 0 2)) fun o => .ok (.amomax (gAt w 18) (gAt w 12) (gAt w 6) o)
  | 6 => value (Ord.ofCode (bitsAt w 0 2)) fun o => .ok (.amominn (gAt w 18) (gAt w 12) (gAt w 6) o)
  | 7 => value (Ord.ofCode (bitsAt w 0 2)) fun o => .ok (.amomaxn (gAt w 18) (gAt w 12) (gAt w 6) o)
  | 8 => value (Ord.ofCode (bitsAt w 0 2)) fun o => .ok (.amoswapI64 (gAt w 18) (gAt w 12) (gAt w 6) o)
  | 9 => value (Ord.ofCode (bitsAt w 0 2)) fun o => .ok (.casI64 (gAt w 18) (gAt w 12) (gAt w 6) o)
  | 10 => value (Ord.ofCode (bitsAt w 0 2)) fun o => .ok (.amoaddI32 (gAt w 18) (gAt w 12) (gAt w 6) o)
  | 11 => value (Ord.ofCode (bitsAt w 0 2)) fun o => .ok (.amoswapI32 (gAt w 18) (gAt w 12) (gAt w 6) o)
  | 12 => value (Ord.ofCode (bitsAt w 0 2)) fun o => .ok (.casI32 (gAt w 18) (gAt w 12) (gAt w 6) o)
  | 13 => value (Ord.ofCode (bitsAt w 0 2)) fun o => .ok (.amofadd (gAt w 18) (gAt w 12) (gAt w 6) o)
  | _ => .error .function

/-- MAJ 0x0F: panes and barriers (R88). -/
def decodeMaj0F (w : Nat) : Except Reject Instr :=
  match bitsAt w 0 6 with
  | 0 => zeroField w 6 6 (zeroField w 18 6 (.ok (.pgive (gAt w 12))))
  | 1 => zeroField w 6 6 (zeroField w 18 6 (.ok (.ptake (gAt w 12))))
  | 2 => zeroField w 6 6 (.ok (.pstat (gAt w 18) (gAt w 12)))
  | 8 => zeroField w 18 6 (.ok (.binit (gAt w 12) (gAt w 6)))
  | 9 => zeroField w 6 6 (.ok (.barrive (gAt w 18) (gAt w 12)))
  | 10 => zeroField w 18 6 (.ok (.bexpect (gAt w 12) (gAt w 6)))
  | 11 => zeroField w 18 6 (.ok (.bwait (gAt w 12) (gAt w 6)))
  | 12 => .ok (.btry (gAt w 18) (gAt w 12) (gAt w 6))
  | _ => .error .function

/-- MAJ 0x10: contiguous vector memory (R91). -/
def decodeMaj10 (w : Nat) : Except Reject Instr :=
  if bitsAt w 2 2 = 0 then zeroField w 7 6 (value (W2.ofCode (bitsAt w 0 2)) fun z => .ok (.vld (vAt w 19) (gAt w 13) (kAt w 4) z))
  else if bitsAt w 2 2 = 1 then zeroField w 7 6 (value (W2.ofCode (bitsAt w 0 2)) fun z => .ok (.vst (vAt w 19) (gAt w 13) (kAt w 4) z))
  else if bitsAt w 0 4 = 8 then zeroField w 4 9 (value (k5At w 19) fun v => .ok (.vldm v (gAt w 13)))
  else if bitsAt w 0 4 = 12 then zeroField w 4 9 (value (k5At w 19) fun v => .ok (.vstm v (gAt w 13)))
  else .error .function

/-- MAJ 0x11: strided vector memory (R91). -/
def decodeMaj11 (w : Nat) : Except Reject Instr :=
  match bitsAt w 2 2 with
  | 0 => value (W2.ofCode (bitsAt w 0 2)) fun z => .ok (.vlds (vAt w 19) (gAt w 13) (gAt w 7) (kAt w 4) z)
  | 1 => value (W2.ofCode (bitsAt w 0 2)) fun z => .ok (.vsts (vAt w 19) (gAt w 13) (gAt w 7) (kAt w 4) z)
  | 2 => zeroField w 7 6 (value (W2.ofCode (bitsAt w 0 2)) fun z => .ok (.vldb (vAt w 19) (gAt w 13) (kAt w 4) z))
  | _ => .error .function

/-- MAJ 0x12: gather, scatter, VAMO (R91). -/
def decodeMaj12 (w : Nat) : Except Reject Instr :=
  if bitsAt w 2 2 = 0 then value (v6At w 7) fun x => value (W2.ofCode (bitsAt w 0 2)) fun z => .ok (.vgath (vAt w 19) (gAt w 13) x (kAt w 4) z)
  else if bitsAt w 2 2 = 1 then value (v6At w 7) fun x => value (W2.ofCode (bitsAt w 0 2)) fun z => .ok (.vscat (vAt w 19) (gAt w 13) x (kAt w 4) z)
  else if bitsAt w 1 3 = 4 then value (v6At w 7) fun x => value (VAmoT.ofCode (bitsAt w 0 1)) fun t => .ok (.vamo (vAt w 19) (gAt w 13) x (kAt w 4) t)
  else .error .function

/-- MAJ 0x13: vector integer (R92). -/
def decodeMaj13 (w : Nat) : Except Reject Instr :=
  if bitsAt w 4 2 = 3 then
    match bitsAt w 0 2 with
    | 0 => value (W2.ofCode (bitsAt w 2 2)) fun z => .ok (.vand (vAt w 19) (vAt w 14) (vAt w 9) (kAt w 6) z)
    | 1 => value (W2.ofCode (bitsAt w 2 2)) fun z => .ok (.vor (vAt w 19) (vAt w 14) (vAt w 9) (kAt w 6) z)
    | 2 => value (W2.ofCode (bitsAt w 2 2)) fun z => .ok (.vxor (vAt w 19) (vAt w 14) (vAt w 9) (kAt w 6) z)
    | 3 => value (W2.ofCode (bitsAt w 2 2)) fun z => .ok (.vandn (vAt w 19) (vAt w 14) (vAt w 9) (kAt w 6) z)
    | _ => .error .function
  else match bitsAt w 0 4 with
    | 0 => value (W2.ofCode (bitsAt w 4 2)) fun z => .ok (.vadd (vAt w 19) (vAt w 14) (vAt w 9) (kAt w 6) z)
    | 1 => value (W2.ofCode (bitsAt w 4 2)) fun z => .ok (.vsub (vAt w 19) (vAt w 14) (vAt w 9) (kAt w 6) z)
    | 2 => value (W2.ofCode (bitsAt w 4 2)) fun z => .ok (.vmul (vAt w 19) (vAt w 14) (vAt w 9) (kAt w 6) z)
    | 3 => value (W2.ofCode (bitsAt w 4 2)) fun z => .ok (.vmulh (vAt w 19) (vAt w 14) (vAt w 9) (kAt w 6) z)
    | 4 => value (W2.ofCode (bitsAt w 4 2)) fun z => .ok (.vmin (vAt w 19) (vAt w 14) (vAt w 9) (kAt w 6) z)
    | 5 => value (W2.ofCode (bitsAt w 4 2)) fun z => .ok (.vmax (vAt w 19) (vAt w 14) (vAt w 9) (kAt w 6) z)
    | 6 => value (W2.ofCode (bitsAt w 4 2)) fun z => .ok (.vminn (vAt w 19) (vAt w 14) (vAt w 9) (kAt w 6) z)
    | 7 => value (W2.ofCode (bitsAt w 4 2)) fun z => .ok (.vmaxn (vAt w 19) (vAt w 14) (vAt w 9) (kAt w 6) z)
    | 8 => value (W2.ofCode (bitsAt w 4 2)) fun z => .ok (.vshl (vAt w 19) (vAt w 14) (vAt w 9) (kAt w 6) z)
    | 9 => value (W2.ofCode (bitsAt w 4 2)) fun z => .ok (.vshr (vAt w 19) (vAt w 14) (vAt w 9) (kAt w 6) z)
    | 10 => value (W2.ofCode (bitsAt w 4 2)) fun z => .ok (.vsha (vAt w 19) (vAt w 14) (vAt w 9) (kAt w 6) z)
    | 11 => zeroField w 9 5 (value (W2.ofCode (bitsAt w 4 2)) fun z => .ok (.vabs (vAt w 19) (vAt w 14) (kAt w 6) z))
    | 12 => zeroField w 9 5 (value (W2.ofCode (bitsAt w 4 2)) fun z => .ok (.vneg (vAt w 19) (vAt w 14) (kAt w 6) z))
    | 13 => value (W2.ofCode (bitsAt w 4 2)) fun z => .ok (.vsat (vAt w 19) (vAt w 14) (vAt w 9) (kAt w 6) z)
    | 14 => zeroField w 9 5 (value (W2.ofCode (bitsAt w 4 2)) fun z => .ok (.vclz (vAt w 19) (vAt w 14) (kAt w 6) z))
    | 15 => zeroField w 9 5 (value (W2.ofCode (bitsAt w 4 2)) fun z => .ok (.vpopc (vAt w 19) (vAt w 14) (kAt w 6) z))
    | _ => .error .function

/-- MAJ 0x14: vector FP (R93). -/
def decodeMaj14 (w : Nat) : Except Reject Instr :=
  if bitsAt w 0 4 = 0 then value (FP2.ofCode (bitsAt w 4 2)) fun t => .ok (.vfadd (vAt w 19) (vAt w 14) (vAt w 9) (kAt w 6) t)
  else if bitsAt w 0 4 = 1 then value (FP2.ofCode (bitsAt w 4 2)) fun t => .ok (.vfsub (vAt w 19) (vAt w 14) (vAt w 9) (kAt w 6) t)
  else if bitsAt w 0 4 = 2 then value (FP2.ofCode (bitsAt w 4 2)) fun t => .ok (.vfmul (vAt w 19) (vAt w 14) (vAt w 9) (kAt w 6) t)
  else if bitsAt w 0 4 = 3 then value (FP2.ofCode (bitsAt w 4 2)) fun t => .ok (.vfmin (vAt w 19) (vAt w 14) (vAt w 9) (kAt w 6) t)
  else if bitsAt w 0 4 = 4 then value (FP2.ofCode (bitsAt w 4 2)) fun t => .ok (.vfmax (vAt w 19) (vAt w 14) (vAt w 9) (kAt w 6) t)
  else if bitsAt w 0 4 = 5 then zeroField w 9 5 (value (FP2.ofCode (bitsAt w 4 2)) fun t => .ok (.vfabs (vAt w 19) (vAt w 14) (kAt w 6) t))
  else if bitsAt w 0 4 = 6 then zeroField w 9 5 (value (FP2.ofCode (bitsAt w 4 2)) fun t => .ok (.vfneg (vAt w 19) (vAt w 14) (kAt w 6) t))
  else if bitsAt w 0 4 = 7 then zeroField w 9 5 (value (FP2.ofCode (bitsAt w 4 2)) fun t => .ok (.vfrnd (vAt w 19) (vAt w 14) (kAt w 6) t))
  else if bitsAt w 0 4 = 8 then zeroField w 9 5 (value (FP2.ofCode (bitsAt w 4 2)) fun t => .ok (.vfclass (vAt w 19) (vAt w 14) (kAt w 6) t))
  else if bitsAt w 0 6 = 9 then zeroField w 9 5 (.ok (.vfrcp (vAt w 19) (vAt w 14) (kAt w 6)))
  else if bitsAt w 0 6 = 10 then zeroField w 9 5 (.ok (.vfrsq (vAt w 19) (vAt w 14) (kAt w 6)))
  else if bitsAt w 0 6 = 11 then zeroField w 9 5 (.ok (.vfexp2 (vAt w 19) (vAt w 14) (kAt w 6)))
  else if bitsAt w 0 6 = 12 then zeroField w 9 5 (.ok (.vflog2 (vAt w 19) (vAt w 14) (kAt w 6)))
  else .error .function

/-- MAJ 0x15: FMA family (R93). -/
def decodeMaj15 (w : Nat) : Except Reject Instr :=
  match bitsAt w 0 4 with
  | 0 => value (FP2.ofCode (bitsAt w 4 2)) fun t => .ok (.vfma (vAt w 19) (vAt w 14) (vAt w 9) (kAt w 6) t)
  | 1 => value (FP2.ofCode (bitsAt w 4 2)) fun t => .ok (.vfms (vAt w 19) (vAt w 14) (vAt w 9) (kAt w 6) t)
  | 2 => value (FP2.ofCode (bitsAt w 4 2)) fun t => .ok (.vfnma (vAt w 19) (vAt w 14) (vAt w 9) (kAt w 6) t)
  | _ => .error .function

/-- MAJ 0x16: conversions (R94). -/
def decodeMaj16 (w : Nat) : Except Reject Instr :=
  if bitsAt w 3 3 = 0 then value (CvtPair.ofCode (bitsAt w 9 5)) fun p => value (Rnd.ofCode (bitsAt w 0 3)) fun r => checked (.vcvt (vAt w 19) (vAt w 14) p (kAt w 6) r)
  else if bitsAt w 3 3 = 1 then zeroField w 6 3 (value (BX.ofCode (bitsAt w 9 5)) fun s => value (Rnd.ofCode (bitsAt w 0 3)) fun r => .ok (.vpack (vAt w 19) (vAt w 14) s r))
  else if bitsAt w 0 6 = 16 then value (BX.ofCode (bitsAt w 9 5)) fun s => .ok (.vunpk (vAt w 19) (vAt w 14) s (kAt w 6))
  else if bitsAt w 0 6 = 24 then value (NarrowSel.ofCode (bitsAt w 9 5)) fun s => .ok (.vnarrow (vAt w 19) (vAt w 14) s (kAt w 6))
  else if bitsAt w 0 6 = 32 then value (WidenSel.ofCode (bitsAt w 9 5)) fun s => .ok (.vwiden (vAt w 19) (vAt w 14) s (kAt w 6))
  else .error .function

/-- MAJ 0x17: permute, reduce, scan (R95). -/
def decodeMaj17 (w : Nat) : Except Reject Instr :=
  if bitsAt w 2 4 = 0 then value (W2.ofCode (bitsAt w 0 2)) fun z => .ok (.vperm (vAt w 19) (vAt w 14) (vAt w 9) (kAt w 6) z)
  else if bitsAt w 2 4 = 1 then value (W2.ofCode (bitsAt w 0 2)) fun z => .ok (.vslide (vAt w 19) (vAt w 14) (gLowAt w 9) (kAt w 6) z)
  else if bitsAt w 2 4 = 2 then value (W2.ofCode (bitsAt w 0 2)) fun z => .ok (.vtrn (vAt w 19) (vAt w 14) (vAt w 9) (kAt w 6) z)
  else if bitsAt w 2 4 = 3 then zeroField w 9 5 (value (W2.ofCode (bitsAt w 0 2)) fun z => .ok (.vcompr (vAt w 19) (vAt w 14) (kAt w 6) z))
  else if bitsAt w 2 4 = 4 then zeroField w 9 5 (value (W2.ofCode (bitsAt w 0 2)) fun z => .ok (.vexpd (vAt w 19) (vAt w 14) (kAt w 6) z))
  else if bitsAt w 2 4 = 5 then value (RedSel.ofCode (bitsAt w 9 5)) fun s => value (W2.ofCode (bitsAt w 0 2)) fun z => .ok (.vredInt (vAt w 19) (vAt w 14) s (kAt w 6) z)
  else if bitsAt w 2 4 = 6 then value (FRedSel.ofCode (bitsAt w 9 5)) fun s => value (FP2.ofCode (bitsAt w 0 2)) fun t => .ok (.vredFp (vAt w 19) (vAt w 14) s (kAt w 6) t)
  else if bitsAt w 2 4 = 7 then value (RedSel.ofCode (bitsAt w 9 5)) fun s => value (W2.ofCode (bitsAt w 0 2)) fun z => .ok (.vscanInt (vAt w 19) (vAt w 14) s (kAt w 6) z)
  else if bitsAt w 2 4 = 8 then value (FRedSel.ofCode (bitsAt w 9 5)) fun s => value (FP2.ofCode (bitsAt w 0 2)) fun t => .ok (.vscanFp (vAt w 19) (vAt w 14) s (kAt w 6) t)
  else if bitsAt w 0 6 = 36 then .ok (.vrord (vAt w 19) (gLowAt w 14) (gLowAt w 9) (kAt w 6))
  else .error .function

/-- MAJ 0x18: masks, compares, moves (R96). -/
def decodeMaj18 (w : Nat) : Except Reject Instr :=
  if bitsAt w 3 3 = 0 then
    match bitsAt w 0 3 with
    | 0 => zeroField w 6 3 (value (k5At w 19) fun d => value (k5At w 14) fun a => value (k5At w 9) fun b => .ok (.kand d a b))
    | 1 => zeroField w 6 3 (value (k5At w 19) fun d => value (k5At w 14) fun a => value (k5At w 9) fun b => .ok (.kor d a b))
    | 2 => zeroField w 6 3 (value (k5At w 19) fun d => value (k5At w 14) fun a => value (k5At w 9) fun b => .ok (.kxor d a b))
    | 3 => zeroField w 6 8 (value (k5At w 19) fun d => value (k5At w 14) fun a => .ok (.knot d a))
    | 4 => zeroField w 6 8 (value (k5At w 19) fun d => value (k5At w 14) fun a => .ok (.kmov d a))
    | 5 => zeroField w 6 8 (value (k5At w 14) fun a => .ok (.kpopc (gLowAt w 19) a))
    | 6 => zeroField w 6 8 (value (k5At w 14) fun a => .ok (.kfirst (gLowAt w 19) a))
    | 7 => zeroField w 6 8 (value (k5At w 19) fun d => .ok (.kset d (gLowAt w 14)))
    | _ => .error .function
  else match bitsAt w 2 4 with
    | 2 => value (W2.ofCode (bitsAt w 0 2)) fun z => .ok (.vsel (vAt w 19) (vAt w 14) (vAt w 9) (kAt w 6) z)
    | 3 => zeroField w 9 5 (value (W2.ofCode (bitsAt w 0 2)) fun z => .ok (.vbcast (vAt w 19) (gLowAt w 14) (kAt w 6) z))
    | 4 => zeroField w 6 3 (value (W2.ofCode (bitsAt w 0 2)) fun z => .ok (.vext (gLowAt w 19) (vAt w 14) (gLowAt w 9) z))
    | 5 => zeroField w 6 3 (value (W2.ofCode (bitsAt w 0 2)) fun z => .ok (.vins (vAt w 19) (gLowAt w 14) (gLowAt w 9) z))
    | 12 | 13 | 14 | 15 => value (k5At w 19) fun d => value (FCond.ofCode (bitsAt w 2 2)) fun c => value (FP2.ofCode (bitsAt w 0 2)) fun t => .ok (.vfcmp d (vAt w 14) (vAt w 9) (kAt w 6) c t)
    | _ => value (k5At w 19) fun d => value (Cond.ofCode (bitsAt w 2 4 - 6)) fun c => value (W2.ofCode (bitsAt w 0 2)) fun z => .ok (.vcmp d (vAt w 14) (vAt w 9) (kAt w 6) c z)

/-- MAJ 0x19: MMA family (R97). -/
def decodeMaj19 (w : Nat) : Except Reject Instr :=
  match bitsAt w 20 4, bitsAt w 0 1 with
  | 0, 0 => zeroField w 2 4 (.ok (.mma (gAt w 14) (gAt w 8) (accAt w 6) (boolAt w 1)))
  | 0, 1 => zeroField w 2 4 (zeroField w 8 6 (.ok (.mmaRing (gAt w 14) (accAt w 6) (boolAt w 1))))
  | 1, 0 => zeroField w 2 4 (.ok (.mmat (gAt w 14) (gAt w 8) (accAt w 6) (boolAt w 1)))
  | 1, 1 => zeroField w 2 4 (zeroField w 8 6 (.ok (.mmatRing (gAt w 14) (accAt w 6) (boolAt w 1))))
  | _, _ => .error .function

/-- MRING by its q field (R184): q[5:3] must be 0, and 4, 5 and 7 are reserved. -/
def decodeRing (w : Nat) : Except Reject Instr :=
  match bitsAt w 0 3 with
  | 0 => zeroField w 6 2 (.ok (.mringSend (gAt w 14) (gAt w 8)))
  | 2 => zeroField w 6 2 (.ok (.mringSendPop (gAt w 14) (gAt w 8)))
  | 1 => zeroField w 6 2 (zeroField w 14 6 (.ok (.mringLatch (gAt w 8))))
  | 3 => zeroField w 6 2 (zeroField w 14 6 (.ok (.mringLatchPop (gAt w 8))))
  | 6 => zeroField w 6 14 (.ok .mringPop)
  | _ => .error .value

/-- MAJ 0x1A: accumulator and matrix control (R97). -/
def decodeMaj1A (w : Nat) : Except Reject Instr :=
  match bitsAt w 20 4 with
  | 0 => zeroField w 0 20 (.ok .mclaim)
  | 1 => zeroField w 0 20 (.ok .mrel)
  | 2 => zeroField w 0 6 (zeroField w 8 12 (.ok (.mzero (accAt w 6))))
  | 3 => zeroField w 0 6 (zeroField w 8 12 (.ok (.mswap (accAt w 6))))
  | 4 => zeroField w 0 6 (zeroField w 8 6 (.ok (.mldacc (gAt w 14) (accAt w 6))))
  | 5 => zeroField w 0 6 (zeroField w 8 6 (.ok (.mstacc (gAt w 14) (accAt w 6))))
  | 7 => zeroField w 0 6 (.ok (.mchk (gAt w 14) (gAt w 8) (accAt w 6)))
  | 8 => zeroField w 0 6 (.ok (.mfix (gAt w 14) (gAt w 8) (accAt w 6)))
  | 9 => zeroField w 0 14 (.ok (.mstat (gAt w 14)))
  | 10 => zeroField w 0 20 (.ok .mwait)
  | 6 => if bitsAt w 3 3 = 0 then decodeRing w else .error .unused
  | _ => .error .function

/-- MAJ 0x1B: copy engine (R97). -/
def decodeMaj1B (w : Nat) : Except Reject Instr :=
  match bitsAt w 20 4 with
  | 0 => .ok (.cpy (gAt w 14) (gAt w 8) (bvAt w 2 6) (chanAt w 0))
  | 1 => zeroField w 4 4 (value (XPose.ofCode (bitsAt w 2 2)) fun x => checked (.cpys (gAt w 14) (gAt w 8) x (chanAt w 0)))
  | 2 => zeroField w 2 6 (checked (.cgath (gAt w 14) (gAt w 8) (chanAt w 0)))
  | 3 => zeroField w 2 6 (checked (.cscat (gAt w 14) (gAt w 8) (chanAt w 0)))
  | 4 => zeroField w 2 12 (.ok (.chain (gAt w 14) (chanAt w 0)))
  | 5 => zeroField w 0 14 (.ok (.cseal (gAt w 14)))
  | 6 => zeroField w 4 16 (.ok (.cwait (fin16At w 0)))
  | 7 => zeroField w 3 11 (.ok (.cstat (gAt w 14) (boolAt w 2) (chanAt w 0)))
  | 8 => zeroField w 2 18 (.ok (.ccancel (chanAt w 0)))
  | _ => .error .function

/-- MAJ 0x1C: circuits and messages (R97). -/
def decodeMaj1C (w : Nat) : Except Reject Instr :=
  match bitsAt w 20 4 with
  | 0 => zeroField w 0 8 (.ok (.cirq (gAt w 14) (gAt w 8)))
  | 1 => zeroField w 6 2 (checked (.cirz (gAt w 14) (gAt w 8) (bvAt w 0 6)))
  | 2 => zeroField w 0 8 (.ok (.cirx (gAt w 14) (gAt w 8)))
  | 3 => zeroField w 2 6 (value (v6At w 8) fun v => .ok (.csend (gAt w 14) v (fin4At w 0)))
  | 4 => zeroField w 2 6 (value (v6At w 8) fun v => .ok (.crecv (gAt w 14) v (fin4At w 0)))
  | 5 => zeroField w 6 2 (value (v6At w 8) fun v => .ok (.msend (gAt w 14) v (fin64At w 0)))
  | 6 => zeroField w 0 8 (value (v6At w 8) fun v => .ok (.mrecv (gAt w 14) v))
  | 7 => zeroField w 0 14 (.ok (.mpoll (gAt w 14)))
  | _ => .error .function

/-- MAJ 0x1D: net (R97). -/
def decodeMaj1D (w : Nat) : Except Reject Instr :=
  match bitsAt w 20 4 with
  | 0 => zeroField w 0 8 (.ok (.nalloc (gAt w 14) (gAt w 8)))
  | 1 => zeroField w 0 14 (.ok (.nfree (gAt w 14)))
  | 2 => zeroField w 6 2 (.ok (.nlink (gAt w 14) (gAt w 8) (fin4At w 4) (fin4At w 2) (fin4At w 0)))
  | 3 => zeroField w 2 6 (.ok (.npush (gAt w 14) (gAt w 8) (fin4At w 0)))
  | 4 => zeroField w 3 5 (checked (.nport (gAt w 14) (gAt w 8) (boolAt w 2) (fin4At w 0)))
  | 5 => zeroField w 0 20 (.ok .rcommit)
  | 6 => zeroField w 1 19 (.ok (.rabort (boolAt w 0)))
  | 7 => zeroField w 0 8 (.ok (.spawn (gAt w 14) (gAt w 8)))
  | _ => .error .function

/-- The instruction of a word, E and W aside (R80). -/
def decodeInstr (w : Nat) : Except Reject Instr :=
  match bitsAt w 24 5 with
  | 1 => decodeMaj01 w
  | 2 => decodeMaj02 w
  | 3 => decodeMaj03 w
  | 4 => decodeMaj04 w
  | 5 => decodeMaj05 w
  | 6 => decodeMaj06 w
  | 7 => decodeMaj07 w
  | 8 => decodeMaj08 w
  | 9 => decodeMaj09 w
  | 10 => decodeMaj0A w
  | 11 => decodeMaj0B w
  | 12 => decodeMaj0C w
  | 13 => decodeMaj0D w
  | 14 => decodeMaj0E w
  | 15 => decodeMaj0F w
  | 16 => decodeMaj10 w
  | 17 => decodeMaj11 w
  | 18 => decodeMaj12 w
  | 19 => decodeMaj13 w
  | 20 => decodeMaj14 w
  | 21 => decodeMaj15 w
  | 22 => decodeMaj16 w
  | 23 => decodeMaj17 w
  | 24 => decodeMaj18 w
  | 25 => decodeMaj19 w
  | 26 => decodeMaj1A w
  | 27 => decodeMaj1B w
  | 28 => decodeMaj1C w
  | 29 => decodeMaj1D w
  | _ => .error .major

/-- A word: its bundle fields never cause a decode failure (R80). -/
def decodeWord (w : Nat) : Except Reject Word :=
  match decodeInstr w with
  | .ok i => .ok { e := boolAt w 31, w := fin4At w 29, i := i }
  | .error r => .error r

/-! ### The encoder -/

/-- A word with a field's value added at its place. -/
def put (acc v lo : Nat) : Nat := acc + v * 2 ^ lo

/-- The bits [28:0] of an instruction; none for the steps without an encoding. -/
def encodeInstr : Instr → Option Nat
  | .add d a b => some (put (put (put 0x01000000 d.val 18) a.val 12) b.val 6)
  | .sub d a b => some (put (put (put 0x01000001 d.val 18) a.val 12) b.val 6)
  | .and d a b => some (put (put (put 0x01000002 d.val 18) a.val 12) b.val 6)
  | .or d a b => some (put (put (put 0x01000003 d.val 18) a.val 12) b.val 6)
  | .xor d a b => some (put (put (put 0x01000004 d.val 18) a.val 12) b.val 6)
  | .andn d a b => some (put (put (put 0x01000005 d.val 18) a.val 12) b.val 6)
  | .orn d a b => some (put (put (put 0x01000006 d.val 18) a.val 12) b.val 6)
  | .shl d a b => some (put (put (put 0x01000008 d.val 18) a.val 12) b.val 6)
  | .shr d a b => some (put (put (put 0x01000009 d.val 18) a.val 12) b.val 6)
  | .sha d a b => some (put (put (put 0x0100000A d.val 18) a.val 12) b.val 6)
  | .rol d a b => some (put (put (put 0x0100000B d.val 18) a.val 12) b.val 6)
  | .slt d a b => some (put (put (put 0x01000010 d.val 18) a.val 12) b.val 6)
  | .sltn d a b => some (put (put (put 0x01000011 d.val 18) a.val 12) b.val 6)
  | .seq d a b => some (put (put (put 0x01000012 d.val 18) a.val 12) b.val 6)
  | .sne d a b => some (put (put (put 0x01000013 d.val 18) a.val 12) b.val 6)
  | .min d a b => some (put (put (put 0x01000014 d.val 18) a.val 12) b.val 6)
  | .max d a b => some (put (put (put 0x01000015 d.val 18) a.val 12) b.val 6)
  | .minn d a b => some (put (put (put 0x01000016 d.val 18) a.val 12) b.val 6)
  | .maxn d a b => some (put (put (put 0x01000017 d.val 18) a.val 12) b.val 6)
  | .csel d a b => some (put (put (put 0x01000018 d.val 18) a.val 12) b.val 6)
  | .extr d a b => some (put (put (put 0x0100001C d.val 18) a.val 12) b.val 6)
  | .insr d a b => some (put (put (put 0x0100001D d.val 18) a.val 12) b.val 6)
  | .lea d a b => some (put (put (put 0x0100001E d.val 18) a.val 12) b.val 6)
  | .clz d a => some (put (put 0x01000020 d.val 18) a.val 12)
  | .ctz d a => some (put (put 0x01000021 d.val 18) a.val 12)
  | .popc d a => some (put (put 0x01000022 d.val 18) a.val 12)
  | .brev d a => some (put (put 0x01000023 d.val 18) a.val 12)
  | .addi d a i => some (put (put (put 0x02000000 d.val 18) a.val 12) i.toNat 0)
  | .andi d a i => some (put (put (put 0x03000000 d.val 18) a.val 12) i.toNat 0)
  | .ori d a i => some (put (put (put 0x03000200 d.val 18) a.val 12) i.toNat 0)
  | .xori d a i => some (put (put (put 0x03000400 d.val 18) a.val 12) i.toNat 0)
  | .shli d a i => some (put (put (put 0x04000000 d.val 18) a.val 12) i.toNat 0)
  | .shri d a i => some (put (put (put 0x04000200 d.val 18) a.val 12) i.toNat 0)
  | .shai d a i => some (put (put (put 0x04000400 d.val 18) a.val 12) i.toNat 0)
  | .slti d a i => some (put (put (put 0x04000600 d.val 18) a.val 12) i.toNat 0)
  | .sltni d a i => some (put (put (put 0x04000800 d.val 18) a.val 12) i.toNat 0)
  | .seqi d a i => some (put (put (put 0x04000A00 d.val 18) a.val 12) i.toNat 0)
  | .limm d i => some (put (put 0x05000000 d.val 18) i.toNat 0)
  | .addpc d i => some (put (put 0x05010000 d.val 18) i.toNat 0)
  | .mul d a b => some (put (put (put 0x06000000 d.val 18) a.val 12) b.val 6)
  | .mulh d a b => some (put (put (put 0x06000001 d.val 18) a.val 12) b.val 6)
  | .mulhn d a b => some (put (put (put 0x06000002 d.val 18) a.val 12) b.val 6)
  | .div d a b => some (put (put (put 0x06000008 d.val 18) a.val 12) b.val 6)
  | .divn d a b => some (put (put (put 0x06000009 d.val 18) a.val 12) b.val 6)
  | .rem d a b => some (put (put (put 0x0600000A d.val 18) a.val 12) b.val 6)
  | .remn d a b => some (put (put (put 0x0600000B d.val 18) a.val 12) b.val 6)
  | .beq a b o => some (put (put (put 0x07000000 a.val 18) b.val 12) o.toNat 0)
  | .bne a b o => some (put (put (put 0x07000200 a.val 18) b.val 12) o.toNat 0)
  | .blt a b o => some (put (put (put 0x07000400 a.val 18) b.val 12) o.toNat 0)
  | .bge a b o => some (put (put (put 0x07000600 a.val 18) b.val 12) o.toNat 0)
  | .bltn a b o => some (put (put (put 0x07000800 a.val 18) b.val 12) o.toNat 0)
  | .bgen a b o => some (put (put (put 0x07000A00 a.val 18) b.val 12) o.toNat 0)
  | .bz a o => some (put (put 0x08000000 a.val 16) o.toNat 0)
  | .bnz a o => some (put (put 0x08400000 a.val 16) o.toNat 0)
  | .jmp o => some (put 0x08800000 o.toNat 0)
  | .call o => some (put 0x08C00000 o.toNat 0)
  | .nop => some 0x09000000
  | .jr a => some (put 0x09000001 a.val 12)
  | .callr d a => some (put (put 0x09000002 d.val 18) a.val 12)
  | .loop l a => some (put (put 0x09000004 l.toNat 18) a.val 12)
  | .loopi l c => some (put (put 0x09000005 l.toNat 18) c.toNat 6)
  | .trap c => some (put 0x09000010 c.toNat 6)
  | .eret => some 0x09000011
  | .wfe => some 0x09000012
  | .yield => some 0x09000013
  | .safe => some 0x09000014
  | .halt => some 0x09000015
  | .bkpt => some 0x09000016
  | .tlbi a b => some (put (put 0x09000018 a.val 12) b.val 6)
  | .keyop d a b => some (put (put (put 0x09000019 d.val 18) a.val 12) b.val 6)
  | .faultinj a b => some (put (put 0x0900001A a.val 12) b.val 6)
  | .crr d c => some (put (put 0x0A000000 d.val 18) c.toNat 0)
  | .crw a c => some (put (put 0x0A000400 a.val 12) c.toNat 0)
  | .crx d a c => some (put (put (put 0x0A000800 d.val 18) a.val 12) c.toNat 0)
  | .ld d a t i => some (put (put (put (put 0x0B000000 d.val 18) a.val 12) t.code 9) i.toNat 0)
  | .st s a t i => some (put (put (put (put 0x0C000000 s.val 18) a.val 12) t.code 9) i.toNat 0)
  | .lda d a t => some (put (put (put 0x0D000000 d.val 18) a.val 12) t.code 0)
  | .str a s t => some (put (put (put 0x0D000008 a.val 12) s.val 6) t.code 0)
  | .pref a => some (put 0x0D000010 a.val 12)
  | .fence s => some (put 0x0D000020 s.code 0)
  | .fenceI => some 0x0D000028
  | .amoaddI64 d a b o => some (put (put (put (put 0x0E000000 d.val 18) a.val 12) b.val 6) o.code 0)
  | .amoand d a b o => some (put (put (put (put 0x0E000004 d.val 18) a.val 12) b.val 6) o.code 0)
  | .amoor d a b o => some (put (put (put (put 0x0E000008 d.val 18) a.val 12) b.val 6) o.code 0)
  | .amoxor d a b o => some (put (put (put (put 0x0E00000C d.val 18) a.val 12) b.val 6) o.code 0)
  | .amomin d a b o => some (put (put (put (put 0x0E000010 d.val 18) a.val 12) b.val 6) o.code 0)
  | .amomax d a b o => some (put (put (put (put 0x0E000014 d.val 18) a.val 12) b.val 6) o.code 0)
  | .amominn d a b o => some (put (put (put (put 0x0E000018 d.val 18) a.val 12) b.val 6) o.code 0)
  | .amomaxn d a b o => some (put (put (put (put 0x0E00001C d.val 18) a.val 12) b.val 6) o.code 0)
  | .amoswapI64 d a b o => some (put (put (put (put 0x0E000020 d.val 18) a.val 12) b.val 6) o.code 0)
  | .casI64 d a b o => some (put (put (put (put 0x0E000024 d.val 18) a.val 12) b.val 6) o.code 0)
  | .amoaddI32 d a b o => some (put (put (put (put 0x0E000028 d.val 18) a.val 12) b.val 6) o.code 0)
  | .amoswapI32 d a b o => some (put (put (put (put 0x0E00002C d.val 18) a.val 12) b.val 6) o.code 0)
  | .casI32 d a b o => some (put (put (put (put 0x0E000030 d.val 18) a.val 12) b.val 6) o.code 0)
  | .amofadd d a b o => some (put (put (put (put 0x0E000034 d.val 18) a.val 12) b.val 6) o.code 0)
  | .pgive a => some (put 0x0F000000 a.val 12)
  | .ptake a => some (put 0x0F000001 a.val 12)
  | .pstat d a => some (put (put 0x0F000002 d.val 18) a.val 12)
  | .binit a b => some (put (put 0x0F000008 a.val 12) b.val 6)
  | .barrive d a => some (put (put 0x0F000009 d.val 18) a.val 12)
  | .bexpect a b => some (put (put 0x0F00000A a.val 12) b.val 6)
  | .bwait a b => some (put (put 0x0F00000B a.val 12) b.val 6)
  | .btry d a b => some (put (put (put 0x0F00000C d.val 18) a.val 12) b.val 6)
  | .vld v a k z => some (put (put (put (put 0x10000000 v.val 19) a.val 13) k.val 4) z.code 0)
  | .vst v a k z => some (put (put (put (put 0x10000004 v.val 19) a.val 13) k.val 4) z.code 0)
  | .vldm v a => some (put (put 0x10000008 v.val 19) a.val 13)
  | .vstm v a => some (put (put 0x1000000C v.val 19) a.val 13)
  | .vlds v a b k z => some (put (put (put (put (put 0x11000000 v.val 19) a.val 13) b.val 7) k.val 4) z.code 0)
  | .vsts v a b k z => some (put (put (put (put (put 0x11000004 v.val 19) a.val 13) b.val 7) k.val 4) z.code 0)
  | .vldb v a k z => some (put (put (put (put 0x11000008 v.val 19) a.val 13) k.val 4) z.code 0)
  | .vgath v a x k z => some (put (put (put (put (put 0x12000000 v.val 19) a.val 13) x.val 7) k.val 4) z.code 0)
  | .vscat v a x k z => some (put (put (put (put (put 0x12000004 v.val 19) a.val 13) x.val 7) k.val 4) z.code 0)
  | .vamo v a x k t => some (put (put (put (put (put 0x12000008 v.val 19) a.val 13) x.val 7) k.val 4) t.code 0)
  | .vadd d a b k z => some (put (put (put (put (put 0x13000000 d.val 19) a.val 14) b.val 9) k.val 6) z.code 4)
  | .vsub d a b k z => some (put (put (put (put (put 0x13000001 d.val 19) a.val 14) b.val 9) k.val 6) z.code 4)
  | .vmul d a b k z => some (put (put (put (put (put 0x13000002 d.val 19) a.val 14) b.val 9) k.val 6) z.code 4)
  | .vmulh d a b k z => some (put (put (put (put (put 0x13000003 d.val 19) a.val 14) b.val 9) k.val 6) z.code 4)
  | .vmin d a b k z => some (put (put (put (put (put 0x13000004 d.val 19) a.val 14) b.val 9) k.val 6) z.code 4)
  | .vmax d a b k z => some (put (put (put (put (put 0x13000005 d.val 19) a.val 14) b.val 9) k.val 6) z.code 4)
  | .vminn d a b k z => some (put (put (put (put (put 0x13000006 d.val 19) a.val 14) b.val 9) k.val 6) z.code 4)
  | .vmaxn d a b k z => some (put (put (put (put (put 0x13000007 d.val 19) a.val 14) b.val 9) k.val 6) z.code 4)
  | .vshl d a b k z => some (put (put (put (put (put 0x13000008 d.val 19) a.val 14) b.val 9) k.val 6) z.code 4)
  | .vshr d a b k z => some (put (put (put (put (put 0x13000009 d.val 19) a.val 14) b.val 9) k.val 6) z.code 4)
  | .vsha d a b k z => some (put (put (put (put (put 0x1300000A d.val 19) a.val 14) b.val 9) k.val 6) z.code 4)
  | .vabs d a k z => some (put (put (put (put 0x1300000B d.val 19) a.val 14) k.val 6) z.code 4)
  | .vneg d a k z => some (put (put (put (put 0x1300000C d.val 19) a.val 14) k.val 6) z.code 4)
  | .vsat d a b k z => some (put (put (put (put (put 0x1300000D d.val 19) a.val 14) b.val 9) k.val 6) z.code 4)
  | .vclz d a k z => some (put (put (put (put 0x1300000E d.val 19) a.val 14) k.val 6) z.code 4)
  | .vpopc d a k z => some (put (put (put (put 0x1300000F d.val 19) a.val 14) k.val 6) z.code 4)
  | .vand d a b k z => some (put (put (put (put (put 0x13000030 d.val 19) a.val 14) b.val 9) k.val 6) z.code 2)
  | .vor d a b k z => some (put (put (put (put (put 0x13000031 d.val 19) a.val 14) b.val 9) k.val 6) z.code 2)
  | .vxor d a b k z => some (put (put (put (put (put 0x13000032 d.val 19) a.val 14) b.val 9) k.val 6) z.code 2)
  | .vandn d a b k z => some (put (put (put (put (put 0x13000033 d.val 19) a.val 14) b.val 9) k.val 6) z.code 2)
  | .vfadd d a b k t => some (put (put (put (put (put 0x14000000 d.val 19) a.val 14) b.val 9) k.val 6) t.code 4)
  | .vfsub d a b k t => some (put (put (put (put (put 0x14000001 d.val 19) a.val 14) b.val 9) k.val 6) t.code 4)
  | .vfmul d a b k t => some (put (put (put (put (put 0x14000002 d.val 19) a.val 14) b.val 9) k.val 6) t.code 4)
  | .vfmin d a b k t => some (put (put (put (put (put 0x14000003 d.val 19) a.val 14) b.val 9) k.val 6) t.code 4)
  | .vfmax d a b k t => some (put (put (put (put (put 0x14000004 d.val 19) a.val 14) b.val 9) k.val 6) t.code 4)
  | .vfabs d a k t => some (put (put (put (put 0x14000005 d.val 19) a.val 14) k.val 6) t.code 4)
  | .vfneg d a k t => some (put (put (put (put 0x14000006 d.val 19) a.val 14) k.val 6) t.code 4)
  | .vfrnd d a k t => some (put (put (put (put 0x14000007 d.val 19) a.val 14) k.val 6) t.code 4)
  | .vfclass d a k t => some (put (put (put (put 0x14000008 d.val 19) a.val 14) k.val 6) t.code 4)
  | .vfrcp d a k => some (put (put (put 0x14000009 d.val 19) a.val 14) k.val 6)
  | .vfrsq d a k => some (put (put (put 0x1400000A d.val 19) a.val 14) k.val 6)
  | .vfexp2 d a k => some (put (put (put 0x1400000B d.val 19) a.val 14) k.val 6)
  | .vflog2 d a k => some (put (put (put 0x1400000C d.val 19) a.val 14) k.val 6)
  | .vfma d a b k t => some (put (put (put (put (put 0x15000000 d.val 19) a.val 14) b.val 9) k.val 6) t.code 4)
  | .vfms d a b k t => some (put (put (put (put (put 0x15000001 d.val 19) a.val 14) b.val 9) k.val 6) t.code 4)
  | .vfnma d a b k t => some (put (put (put (put (put 0x15000002 d.val 19) a.val 14) b.val 9) k.val 6) t.code 4)
  | .vcvt d a p k r => some (put (put (put (put (put 0x16000000 d.val 19) a.val 14) p.code 9) k.val 6) r.code 0)
  | .vpack d a s r => some (put (put (put (put 0x16000008 d.val 19) a.val 14) s.code 9) r.code 0)
  | .vunpk d a s k => some (put (put (put (put 0x16000010 d.val 19) a.val 14) s.code 9) k.val 6)
  | .vnarrow d a s k => some (put (put (put (put 0x16000018 d.val 19) a.val 14) s.code 9) k.val 6)
  | .vwiden d a s k => some (put (put (put (put 0x16000020 d.val 19) a.val 14) s.code 9) k.val 6)
  | .vperm d a b k z => some (put (put (put (put (put 0x17000000 d.val 19) a.val 14) b.val 9) k.val 6) z.code 0)
  | .vslide d a g k z => some (put (put (put (put (put 0x17000004 d.val 19) a.val 14) g.val 9) k.val 6) z.code 0)
  | .vtrn d a b k z => some (put (put (put (put (put 0x17000008 d.val 19) a.val 14) b.val 9) k.val 6) z.code 0)
  | .vcompr d a k z => some (put (put (put (put 0x1700000C d.val 19) a.val 14) k.val 6) z.code 0)
  | .vexpd d a k z => some (put (put (put (put 0x17000010 d.val 19) a.val 14) k.val 6) z.code 0)
  | .vredInt d a s k z => some (put (put (put (put (put 0x17000014 d.val 19) a.val 14) s.code 9) k.val 6) z.code 0)
  | .vredFp d a s k t => some (put (put (put (put (put 0x17000018 d.val 19) a.val 14) s.code 9) k.val 6) t.code 0)
  | .vscanInt d a s k z => some (put (put (put (put (put 0x1700001C d.val 19) a.val 14) s.code 9) k.val 6) z.code 0)
  | .vscanFp d a s k t => some (put (put (put (put (put 0x17000020 d.val 19) a.val 14) s.code 9) k.val 6) t.code 0)
  | .vrord s g h k => some (put (put (put (put 0x17000024 s.val 19) g.val 14) h.val 9) k.val 6)
  | .kand d a b => some (put (put (put 0x18000000 d.val 19) a.val 14) b.val 9)
  | .kor d a b => some (put (put (put 0x18000001 d.val 19) a.val 14) b.val 9)
  | .kxor d a b => some (put (put (put 0x18000002 d.val 19) a.val 14) b.val 9)
  | .knot d a => some (put (put 0x18000003 d.val 19) a.val 14)
  | .kmov d a => some (put (put 0x18000004 d.val 19) a.val 14)
  | .kpopc d a => some (put (put 0x18000005 d.val 19) a.val 14)
  | .kfirst d a => some (put (put 0x18000006 d.val 19) a.val 14)
  | .kset d a => some (put (put 0x18000007 d.val 19) a.val 14)
  | .vsel d a b k z => some (put (put (put (put (put 0x18000008 d.val 19) a.val 14) b.val 9) k.val 6) z.code 0)
  | .vbcast d g k z => some (put (put (put (put 0x1800000C d.val 19) g.val 14) k.val 6) z.code 0)
  | .vext g a h z => some (put (put (put (put 0x18000010 g.val 19) a.val 14) h.val 9) z.code 0)
  | .vins d g h z => some (put (put (put (put 0x18000014 d.val 19) g.val 14) h.val 9) z.code 0)
  | .vcmp d a b k c z => some (put (put (put (put (put (put 0x18000000 d.val 19) a.val 14) b.val 9) k.val 6) (c.code + 6) 2) z.code 0)
  | .vfcmp d a b k c t => some (put (put (put (put (put (put 0x18000030 d.val 19) a.val 14) b.val 9) k.val 6) c.code 2) t.code 0)
  | .mma a b c k => some (put (put (put (put 0x19000000 a.val 14) b.val 8) c.val 6) (boolNat k) 1)
  | .mmaRing a c k => some (put (put (put 0x19000001 a.val 14) c.val 6) (boolNat k) 1)
  | .mmat a b c k => some (put (put (put (put 0x19100000 a.val 14) b.val 8) c.val 6) (boolNat k) 1)
  | .mmatRing a c k => some (put (put (put 0x19100001 a.val 14) c.val 6) (boolNat k) 1)
  | .mclaim => some 0x1A000000
  | .mrel => some 0x1A100000
  | .mzero c => some (put 0x1A200000 c.val 6)
  | .mswap c => some (put 0x1A300000 c.val 6)
  | .mldacc a c => some (put (put 0x1A400000 a.val 14) c.val 6)
  | .mstacc a c => some (put (put 0x1A500000 a.val 14) c.val 6)
  | .mringSend a h => some (put (put 0x1A600000 a.val 14) h.val 8)
  | .mringSendPop a h => some (put (put 0x1A600002 a.val 14) h.val 8)
  | .mringLatch h => some (put 0x1A600001 h.val 8)
  | .mringLatchPop h => some (put 0x1A600003 h.val 8)
  | .mringPop => some 0x1A600006
  | .mchk a d c => some (put (put (put 0x1A700000 a.val 14) d.val 8) c.val 6)
  | .mfix a b c => some (put (put (put 0x1A800000 a.val 14) b.val 8) c.val 6)
  | .mstat d => some (put 0x1A900000 d.val 14)
  | .mwait => some 0x1AA00000
  | .cpy a b l c => some (put (put (put (put 0x1B000000 a.val 14) b.val 8) l.toNat 2) c.val 0)
  | .cpys a b x c => some (put (put (put (put 0x1B100000 a.val 14) b.val 8) x.code 2) c.val 0)
  | .cgath a b c => some (put (put (put 0x1B200000 a.val 14) b.val 8) c.val 0)
  | .cscat a b c => some (put (put (put 0x1B300000 a.val 14) b.val 8) c.val 0)
  | .chain a c => some (put (put 0x1B400000 a.val 14) c.val 0)
  | .cseal d => some (put 0x1B500000 d.val 14)
  | .cwait n => some (put 0x1B600000 n.val 0)
  | .cstat d s c => some (put (put (put 0x1B700000 d.val 14) (boolNat s) 2) c.val 0)
  | .ccancel c => some (put 0x1B800000 c.val 0)
  | .cirq a b => some (put (put 0x1C000000 a.val 14) b.val 8)
  | .cirz a h n => some (put (put (put 0x1C100000 a.val 14) h.val 8) n.toNat 0)
  | .cirx a h => some (put (put 0x1C200000 a.val 14) h.val 8)
  | .csend h v m => some (put (put (put 0x1C300000 h.val 14) v.val 8) m.val 0)
  | .crecv h v m => some (put (put (put 0x1C400000 h.val 14) v.val 8) m.val 0)
  | .msend a v l => some (put (put (put 0x1C500000 a.val 14) v.val 8) l.val 0)
  | .mrecv d v => some (put (put 0x1C600000 d.val 14) v.val 8)
  | .mpoll d => some (put 0x1C700000 d.val 14)
  | .nalloc d h => some (put (put 0x1D000000 d.val 14) h.val 8)
  | .nfree n => some (put 0x1D100000 n.val 14)
  | .nlink n m r q p => some (put (put (put (put (put 0x1D200000 n.val 14) m.val 8) r.val 4) q.val 2) p.val 0)
  | .npush n m r => some (put (put (put 0x1D300000 n.val 14) m.val 8) r.val 0)
  | .nport d n h p => some (put (put (put (put 0x1D400000 d.val 14) n.val 8) (boolNat h) 2) p.val 0)
  | .rcommit => some 0x1D500000
  | .rabort x => some (put 0x1D600000 (boolNat x) 0)
  | .spawn i x => some (put (put 0x1D700000 i.val 14) x.val 8)
  | .lfsrseedWrite .. => none
  | .trapvecWrite .. => none
  | .placemaskWrite .. => none
  | .faultinjDisarm .. => none
  | .controlRegisterWrite .. => none
  | .keyopGen .. => none
  | .keyopZero .. => none
  | .keyopRotate .. => none
  | .keyopRetire .. => none
  | .keyopStat .. => none
  | .tlbiKeySlot .. => none
  | .tlbiPage .. => none
  | .tlbiSequence .. => none
  | .tlbiStage2Page .. => none
  | .tlbiPartition .. => none
  | .tlbiAll .. => none
  | .parallaxRetry .. => none
  | .divideComplete .. => none
  | .matrixWordComplete .. => none
  | .matrixClearEnd .. => none
  | .transferRecord .. => none
  | .chainOwnPoll .. => none
  | .cirqRequest .. => none
  | .cirzRequest .. => none
  | .cirxRequest .. => none
  | .circuitCloseEnd .. => none
  | .configWord .. => none
  | .slotTableActivation => none
  | .circuitWordInject .. => none
  | .circuitWordLand .. => none
  | .latchEntryLand .. => none
  | .readreq .. => none
  | .readrsp .. => none
  | .write .. => none
  | .amoreq .. => none
  | .amorsp .. => none
  | .pairpush .. => none
  | .netop .. => none
  | .netrsp .. => none
  | .borrow .. => none
  | .msg .. => none
  | .credit .. => none
  | .ack .. => none
  | .recall .. => none
  | .relayResend .. => none
  | .ackForced .. => none
  | .sliceArrival .. => none
  | .memoryRead .. => none
  | .memoryWrite .. => none
  | .portService .. => none
  | .rdata .. => none
  | .wack .. => none
  | .nack .. => none
  | .bypass .. => none
  | .translationWalk .. => none
  | .scoreboardSwitch .. => none
  | .quantumExpiry .. => none
  | .aging .. => none
  | .preemptLimit .. => none
  | .threadRestoreEnd .. => none
  | .runaway .. => none
  | .borrowStart .. => none
  | .poolRefill .. => none
  | .heldSpawnStart .. => none
  | .quietSweep => none
  | .eventSend .. => none
  | .createPartition .. => none
  | .destroyPartition .. => none
  | .resetVf .. => none
  | .resetPartition .. => none
  | .resetDie .. => none
  | .dieResetEnd .. => none
  | .dieResetTimeout .. => none
  | .resetPackage .. => none
  | .s2Write .. => none
  | .cool .. => none
  | .warmup .. => none
  | .faultinjCommand .. => none
  | .peerCircuit .. => none
  | .occult .. => none
  | .resend .. => none
  | .startSequence .. => none
  | .endSequence .. => none
  | .replay .. => none
  | .tlbInval .. => none
  | .unpark .. => none
  | .keyRotate .. => none
  | .transitSweepUnit .. => none
  | .attest .. => none
  | .readCounters .. => none
  | .counterWindow => none
  | .setDumparea .. => none
  | .pageReply .. => none
  | .hostRead .. => none
  | .hostWrite .. => none
  | .syncPeriod .. => none
  | .sync .. => none
  | .dreq .. => none
  | .dresp .. => none
  | .lsuDown .. => none
  | .lsuUp .. => none
  | .revoke .. => none
  | .drain .. => none
  | .drainRoundEnd .. => none
  | .peerWordIngress .. => none
  | .peerLinkTrain .. => none
  | .peerLinkWander .. => none
  | .sensorRead .. => none
  | .nightfallSettled => none
  | .slotClockChange => none
  | .hbmRetrainEnd .. => none
  | .supplyLoss => none
  | .supplyReturn => none
  | .patrolScrub .. => none
  | .pseudoChannelCopyEnd .. => none
  | .laneRepair .. => none
  | .tileTransplant .. => none
  | .dieLinkDown .. => none
  | .dieSplit .. => none
  | .illegalOp .. => none
  | .fetchFault .. => none
  | .peerLinkFailure .. => none
  | .dieLinkHeal .. => none
  | .slotDomainFormation .. => none
  | .tileTransplantEnd .. => none

/-- The 32-bit word of an instruction with its bundle fields (R51). -/
def encodeWord (x : Word) : Option Nat :=
  match encodeInstr x.i with
  | some b => some (boolNat x.e * 2 ^ 31 + x.w.val * 2 ^ 29 + b)
  | none => none

/-- A word as it stands in memory: four bytes, the least significant first (R2, R51). -/
def wordBytes (w : Nat) : List Byte :=
  [BitVec.ofNat 8 w, BitVec.ofNat 8 (w / 2 ^ 8), BitVec.ofNat 8 (w / 2 ^ 16), BitVec.ofNat 8 (w / 2 ^ 24)]

/-- The word that four bytes of memory hold (R2). -/
def bytesWord (b0 b1 b2 b3 : Byte) : Nat :=
  b0.toNat + b1.toNat * 2 ^ 8 + b2.toNat * 2 ^ 16 + b3.toNat * 2 ^ 24

/-- The instruction that the decoder reads from a word of the opcode table. Every word is 32 bits, so no operand bits lie
above nbits. -/
def decodeTableWord (nbits w : Nat) : Option Instr :=
  match wordBytes (w % 2 ^ nbits) with
  | [b0, b1, b2, b3] =>
    match decodeWord (bytesWord b0 b1 b2 b3) with
    | .ok x => some x.i
    | .error _ => none
  | _ => none

end Sys2Proof
end

