-- ==== Sys2Proof/Machine/State.lean ====
section
/-! DEFINITION. The state of the package, as plain data: strands and their contexts, tiles, dies, stacks, sequences,
partitions, circuits, the relay plane, memory service, the host port, the slot domain and the cold; its faults and
refusals; and State.reset. Field comments cite the rule of spec/ that names the piece of state. Fields marked MODEL are
the model's own: they say what is under way or hold free values, and no rule of the spec names them. -/

namespace Sys2Proof.Machine

/-! ### Traps, results and waits -/

/-- Trap causes (R98). -/
inductive Cause
  | illegalOp | priv | misalign | xlateS1 | xlateS2 | xlateDenied | permission | poison | checkStall
  | paneViolation | commitOverflow | runaway | keyVoid | circuit | fp | trapWord | breakpoint
  deriving DecidableEq, Repr

/-- Where a result goes (R61, R63); `cr` is a control register (R121). -/
inductive Dest
  | none
  | g (r : GReg)
  | v (r : VReg)
  | k (r : KReg)
  | cr (n : BitVec 10)
  deriving DecidableEq, Repr

/-- A fixed-latency result in flight (R57, R61): destination, value (scalars and masks in the low bits), the bytes of a
vector register that it writes (R66), the strand clock at which it lands, its class at one clock (0 control-register write, R121; 1 ordinary; 2 a CALL link, R111), the
flags raised, the elements that raised a flag enabled at issue (R40, R121), the address of faulting data (R61), and the
issuing bundle. In a trap residue `due` counts from the resumed bundle (R63). -/
structure Landing where
  dest : Dest
  val : V
  act : K
  due : Nat
  cls : Nat
  flags : BitVec 6
  hot : K
  fault : Option W
  ba : W
  deriving DecidableEq, Repr

/-- How the value of a variable-latency result is written (R129, R134, R138). -/
inductive PendFmt
  | int (t : IType)
  | old (wide : Bool)
  | bytes
  | bcast (w : Nat)
  | mask
  | word
  | message
  | drop
  deriving DecidableEq, Repr

/-- An operation of a strand that is not yet performed, or whose variable-latency result has not arrived (R58, R127,
R210): its number (MODEL), destinations (their scoreboard marks), how the value is formed, the replies still due, the
value collected, the bytes it covers, flags, the first fault met, whether it is an acquire or a release (R130, R341),
whether it is a memory word for FENCE (R132), and the issuing bundle. -/
structure Pend where
  uid : Nat
  dest : Dest
  dest2 : Dest
  fmt : PendFmt
  need : Nat
  val : V
  act : K
  flags : BitVec 6
  fault : Option (Cause × W)
  acq : Bool
  rel : Bool
  mem : Bool
  ba : W
  deriving DecidableEq, Repr

/-- A trap that waits for the strand's next bundle boundary (R63, R184, R304, R320). -/
structure DueTrap where
  cause : Cause
  val : W
  mask : Option K
  deriving DecidableEq, Repr

/-- A hardware-loop entry (R112). -/
structure LoopEntry where
  start : W
  stop : W
  left : Nat
  deriving DecidableEq, Repr

/-- The replay record of an element-addressed word (R141, R387); `running` (MODEL) is true while the word is being
performed, false once a fault has been delivered; `ba` is the address of the word's bundle (R98). -/
structure Replay where
  word : Instr
  ga : W
  gb : W
  data : V
  index : V
  mask : K
  done : K
  ba : W
  running : Bool
  deriving DecidableEq, Repr

/-- A batch of copy work (R191, R192): its number, the members not finished, whether it is sealed, its first fault in member
order with the member's number, and whether that was reported. -/
structure Batch where
  num : W
  members : Nat
  used : Bool
  sealed : Bool
  fault : Option (Nat × Cause × W)
  reported : Bool
  deriving DecidableEq, Repr

/-- The register files of a strand (R65–R67). -/
structure Regs where
  g : Vector W 64
  v : Vector V 32
  k : Vector K 8
  deriving DecidableEq, Repr

/-- One bank of trap registers (R70, R224). TRAPVEC of the Tenant bank has sequence scope and stands in TileSeq; that of the
Monitor bank stands in Core. -/
structure TrapBank where
  cause : W
  pc : W
  val : W
  mask : K
  deriving DecidableEq, Repr

/-- Access kinds of R402 and R413. -/
inductive Access | read | write | atomic | fetch
  deriving DecidableEq, Repr

/-- What the checks of a word answer: it passes; it traps; the whole core waits (R60); the strand waits (R58); or a walk is
needed (R408). -/
inductive Verdict
  | pass
  | trap (c : Cause) (v : W)
  | stall
  | wait
  | miss (acc : Access) (va : W) (tlb : Fin 4)
  deriving DecidableEq, Repr

/-- MODEL: the issue under way: the bundle's address, its number of words and its W (R55), whether its checks have passed,
whether a word is only asked for the verdict of its own check and what it answered, the position and bits of the word at hand,
and what its words ask for once it has issued. -/
structure Issue where
  ba : W
  bw : Nat
  w : Nat
  checked : Bool
  probe : Bool
  verdict : Verdict
  pos : Nat
  /-- The 32 bits of the word (R98). -/
  word : BitVec 32
  /-- The address of a taken transfer, and whether loops that it leaves end (R107, R113). -/
  target : Option (W × Bool)
  /-- The loop that the bundle opens (R112). -/
  opened : Option LoopEntry
  /-- A word of the bundle has itself said where the strand goes on, or has ended its work. -/
  atEnd : Bool
  /-- The number of its first operation, for the order of its own stores (R129). -/
  first : Nat
  deriving DecidableEq, Repr

/-- The words of a bundle that has begun to issue which wait behind earlier words of it (R130, R132, R135, R139, R143): the
issue, the registers as they stood at it (R54), and the positions and bits of the words. -/
structure Tail where
  issue : Issue
  regs : Regs
  words : List (Nat × Nat)
  deriving DecidableEq, Repr

/-- The context of a strand (R61, R63, R112, R116, R141, R191, R387). -/
structure Ctx where
  /-- Address of the next bundle (R55). -/
  pc : W
  /-- Scalar, vector and mask files (R65–R67). -/
  regs : Regs
  /-- CHKCTL (R59). -/
  chkctl : W
  /-- FPCTL (R38). -/
  fpctl : W
  /-- FPFLAGS (R39). -/
  fpflags : W
  /-- The stochastic generator (R43). -/
  lfsr : BitVec 32
  /-- TRAPCAUSE, TRAPPC, TRAPVAL, TRAPMASK at Tenant level (R70). -/
  trap : TrapBank
  /-- The Monitor bank of the same registers (R224). -/
  mon : TrapBank
  /-- STRANDMODE (R71). -/
  mode : W
  /-- BATCHNOW (R191). -/
  batchnow : W
  /-- Batches not yet forgotten (R191). -/
  batches : List Batch
  /-- The event bit (R116). -/
  event : Bool
  /-- The loop stack, innermost first (R112, R113). -/
  loops : List LoopEntry
  /-- Loop entries moved aside at trap entry (R113). -/
  aside : List LoopEntry
  /-- The replay record (R141). -/
  replay : Option Replay
  /-- The replay record of the word that a trap interrupted, moved aside at trap entry until ERET (R142). -/
  replayAside : Option Replay
  /-- MODEL: the words of the bundle under way that wait behind earlier words of it. -/
  tail : Option Tail
  /-- Fixed-latency results in flight: the ordinary residue when switched out (R61). -/
  inflight : List Landing
  /-- The trap residue (R63). -/
  trapRes : List Landing
  /-- The strand clock (R55). -/
  clock : Nat
  /-- Operations and results outstanding, with their scoreboard marks (R58). -/
  pends : List Pend
  /-- Traps that wait for the next bundle boundary (R63). -/
  due : List DueTrap
  /-- Traps that a trap at the same boundary left waiting: they wait until ERET (MODEL). -/
  dueAside : List DueTrap
  /-- MODEL: the fault that ended the walk of an access, taken when the bundle checks it again (R400, R416). -/
  xfault : Option (W × Cause)
  /-- The IPA ranges whose page requests failed (R392, R397). -/
  refused : List (Nat × Fin 4)
  /-- Asleep in WFE (R116, R379 SLEEP). -/
  sleeping : Bool
  /-- A HALT waits for results and stores (R118). -/
  halting : Bool
  /-- Page tags the work waits for: parked (R379 PARKED, R392). -/
  parked : Bool
  deriving DecidableEq, Repr

/-! ### Places and translations -/

/-- What an address translates to: a byte of HBM with the home bank of its line (R404), or an offset in a tile's window
(R317, R403). -/
inductive Place
  | hbm (pa : Nat) (home : TileId)
  | win (t : TileId) (off : Nat)
  deriving DecidableEq, Repr

/-- A TLB entry (R407): its tags, page and size; for a window leaf the first logical tile of the quarter; otherwise the
physical frame, both stages' X W R, the placement and the IPA page; and the key slot of the sequence on the TLB's die
(R406). -/
structure TlbEntry where
  seq : SeqId
  page : Nat
  size : Fin 4
  window : Option (Fin 4)
  frame : Nat
  perm1 : BitVec 3
  perm2 : BitVec 3
  pin : Option TileId
  ipa : Nat
  slot : Fin 512
  deriving DecidableEq, Repr

/-- Who waits for a walk or a page (R408, R412, R416). -/
inductive Waiter
  | thread (t : TileId) (owner : Nat)
  | chan (t : TileId) (c : ChanId) (uid : Nat)
  | pair (t : TileId) (q : SeqId) (a b : BitVec 50)
  deriving DecidableEq, Repr

/-- A queued walk (R408): sequence, address, access, the TLBs that take the result (0 load/store, 1 matrix, 2 copy with its channel, 3
fetch), and the requesters. -/
structure Walk where
  seq : SeqId
  va : W
  acc : Access
  into : List (Fin 4 × ChanId)
  who : List Waiter
  deriving DecidableEq, Repr

/-! ### Nets -/

/-- An end of a wire (R353, R355). -/
inductive WireEnd
  | none
  | free (v : Fin 4)
  | port (line : BitVec 50) (p : Fin 4)
  deriving DecidableEq, Repr

/-- A bag entry (R359): `types` are the nodes' types, which travel with the push and are not kept in the bag; `spilled` says the entry lies in the spill region (R360), `park` is
PARK, `waited` the cycles it has waited runnable (R382), `poisons` counts consecutive poisoned runs (R305),
`borrowed` marks a pair lent by another tile (R368). -/
structure BagEntry where
  seq : SeqId
  lineA : BitVec 50
  lineB : BitVec 50
  types : BitVec 16 × BitVec 16
  pri : Fin 4
  roam : Bool
  quiet : Bool
  park : Fin 8
  spilled : Bool
  waited : Nat
  poisons : Nat
  borrowed : Bool
  deriving DecidableEq, Repr

/-- Atomic operations (R134). -/
inductive AmoOp
  | add | and | or | xor | min | max | minn | maxn | swap | cas | fadd
  deriving DecidableEq, Repr

/-- One entry of a commit buffer (R366). Stores and atomics hold their place, width in bytes and value. -/
inductive Commit
  | stores (cells : List (Place × W × Nat × W))
  | amos (op : AmoOp) (wide : Bool) (cells : List (Place × W × W × W))
  | init (node : W) (header : W) (addr : W)
  | link (a b : WireEnd) (pri : Fin 4)
  | free (node : W)
  | slice (obj : W) (pl : Place) (more : List Place) (idx : Nat) (data : V) (mask : K)
  | push (a b : W) (pri : Fin 4)
  | spawn (entry : Nat) (arg : W)
  | send (dst : TileId) (tag : BitVec 16) (len : Nat) (data : BitVec 512)
  deriving DecidableEq, Repr

/-- A rewrite on a strand (R214, R221): its pair, the claimed nodes in g1, g2 order, the commit buffer (oldest first), the
bundle count, and the nodes allocated (address, header, payload address). -/
structure Rewrite where
  pair : BagEntry
  node1 : W
  node2 : W
  buf : List Commit
  bundles : Nat
  allocs : List (W × W × W)
  /-- The panes that M words of the rewrite have written (R187, R222). -/
  wrote : List (Fin 128)
  staged : List (Fin 128)
  committing : Bool
  deriving DecidableEq, Repr

/-! ### Strands and threads -/

/-- What a strand holds (R379): nothing, a resident thread (its thread-table entry), a rewrite, or a firmware task. -/
inductive Work
  | free
  | thread (entry : Fin 32)
  | rewrite (r : Rewrite)
  | firmware
  deriving DecidableEq, Repr

/-- A strand of a tile (R5, R379). -/
structure Strand where
  /-- What the strand holds (R379). -/
  work : Work
  /-- MODEL: the number of the work, by which results find it when it is switched out (R40). -/
  owner : Nat
  /-- The sequence of the work (R70 SEQID). -/
  seq : SeqId
  /-- Its context. -/
  ctx : Ctx
  /-- The Tenant context below a Monitor trap (R224). -/
  under : Option Ctx
  /-- Cycles the foreground strand has waited at its bundle (R58, R381). -/
  waited : Nat
  /-- Cycles ready without becoming foreground (R382). -/
  ready : Nat
  /-- Cycles not ready (R384). -/
  unready : Nat
  /-- Base priority (R380, R382). -/
  pri : Fin 4
  /-- Cycles of the current quantum (R383). -/
  quantum : Nat
  /-- A pending pre-emption and the thread's bundles since the request (R385). -/
  preempt : Option Nat
  /-- The SAFE bundle at which the pre-emption is taken (R117, R385). -/
  safeAt : Option W
  /-- MODEL: the pre-emption is being taken: the thread issues nothing more until it is saved (R385). -/
  leaving : Bool
  deriving DecidableEq, Repr

/-- Where a thread's context is held (R379). -/
inductive ThreadState
  | resident (k : StrandId)
  | saved
  | parked
  | sleep
  deriving DecidableEq, Repr

/-- A thread-table entry (R379): `saved` is the context that its frame holds; `frame` the frame's page (R387); `mapped`
and `accs` are MAPPED and ACCSAVED of the frame word (R388). -/
structure Thread where
  owner : Nat
  seq : SeqId
  entryIx : Nat
  state : ThreadState
  pri : Fin 4
  ready : Nat
  saved : Ctx
  frame : Page
  mapped : Bool
  accs : Bool
  deriving DecidableEq, Repr

/-- A held spawn (R220, R380). -/
structure Spawn where
  seq : SeqId
  entry : Nat
  arg : W
  pri : Fin 4
  deriving DecidableEq, Repr

/-! ### The engines of a tile -/

/-- The formats of a matrix operand (R177), numbered as FMT of R293. -/
inductive OpFmt | bf16 | bx8 | bx5 | bx3
  deriving DecidableEq, Repr

/-- A matrix operand as it stood at issue (R179): format, bytes, poison, the panes handed over and the address. -/
structure Operand where
  fmt : OpFmt
  bytes : List Byte
  poison : Bool
  pane : Option (Fin 128)
  addr : W
  deriving DecidableEq, Repr

/-- What a queued M word does (R180, R182–R184). -/
inductive MKind
  | mma (trans chk : Bool) (acc : Acc) (a b : Operand)
  | mzero (acc : Acc)
  | mswap (acc : Acc)
  | mldacc (acc : Acc) (src : Operand)
  | mstacc (acc : Acc) (pane : Fin 128)
  | mchk (acc : Acc) (pane : Fin 128) (off : Nat) (pend : Nat)
  | mfix (acc : Acc) (i j : Fin 32) (x : F32)
  | send (h : W) (src : Option Operand) (pop : Bool)
  | pop
  deriving DecidableEq, Repr

/-- A word in the matrix unit's queue (R175) with the owner and strand that issued it (R186). -/
structure MWord where
  kind : MKind
  owner : Nat
  strand : StrandId
  seq : SeqId
  ba : W
  /-- The rewrite that issued it has been discarded: a pane that it writes holds free values (R187, R222). -/
  spoil : Bool
  /-- It has read its operands' last bytes: the panes are STAGED by it no longer (R179, R291). -/
  read : Bool
  /-- The words of a begun send that the injection queue has not taken yet (R290). -/
  left : Option (List (BitVec 256))
  deriving DecidableEq, Repr

/-- One bank of an accumulator with its checksums and validity bit (R68, R181). -/
structure AccBank where
  m : Vector F32 1024
  sr : Vector F32 32
  sc : Vector F32 32
  ar : Vector F32 32
  ac : Vector F32 32
  ck : Bool
  deriving DecidableEq, Repr

/-- An accumulator: its working and visible banks (R68). -/
structure AccPair where
  work : AccBank
  vis : AccBank
  deriving DecidableEq, Repr

/-- The matrix unit of a tile (R172–R185, R293). -/
structure Matrix where
  /-- The holder's number and strand (R172). -/
  holder : Option (Nat × StrandId)
  /-- The 8-cycle clearing after MREL is under way (R173). -/
  clearing : Bool
  accs : Vector AccPair 4
  /-- Queued words, oldest first, at most 8 (R175). -/
  queue : List MWord
  /-- The ring latch, head first, at most two entries (R184). -/
  latch : List Operand
  /-- The circuit that lands on the latch (R251). -/
  latchBy : Option (BitVec 32)
  deriving DecidableEq, Repr

/-- A pane (R144, R320–R325). `busy` counts engine activity, `staged` the words and pre-stages that hold it, `handed` says
it is an M word's destination, `ret` that it returns to the core when BUSY clears (R194). -/
structure Pane where
  engine : Bool
  busy : Nat
  staged : Nat
  ring : Bool
  handed : Bool
  ret : Bool
  seq : Option SeqId
  system : Bool
  deriving DecidableEq, Repr

/-- Copy operations (R195): COPY, GATHER, SCATTER. -/
inductive CopyOp | copy | gather | scatter
  deriving DecidableEq, Repr

/-- A copy command (R190): a single copy with its shape, or a chain walk at its current record. -/
inductive CmdKind
  | single (op : CopyOp) (xp : XPose) (src dst shape index : W)
  | chain (rec0 : W)
  deriving DecidableEq, Repr

/-- How far a running command has come (R197, R199): it reads its record, performs rows, or writes its control word back, with
the STATUS, the TRAPVAL of its fault and the word. -/
inductive CmdStep
  | fetch
  | rows
  | back (status : BitVec 8) (val : W) (word : W)
  deriving DecidableEq, Repr

/-- A queued command (R190, R191, R199): its issuer and batch, the operations that it waits for, its step and row, whether it is
parked or cancelled, the record that it runs (R195), the panes that it keeps BUSY (R325), the end of a failed walk and the IPA
ranges refused (R199, R415). -/
structure Cmd where
  uid : Nat
  owner : Nat
  seq : SeqId
  batch : W
  kind : CmdKind
  after : List Nat
  step : CmdStep
  row : Nat
  parked : Bool
  cancel : Bool
  held : List W
  busy : List (Fin 128)
  xfault : Option (W × Cause)
  refused : List (Nat × Fin 4)
  deriving DecidableEq, Repr

/-- States of a channel (R201). -/
inductive ChanState | idle | run | waitOwn | waitPage | cancel
  deriving DecidableEq, Repr

/-- A copy channel (R190, R201): its queue (running command first), its state, and for each sequence the last record and
the cause of its last faulted command. -/
structure Chan where
  queue : List Cmd
  state : ChanState
  lastRec : List (SeqId × W)
  lastCause : List (SeqId × BitVec 8)
  deriving DecidableEq, Repr

/-- A line in a cache bank (R276): its line index PA >> 6, the sequence that asked for it (R433), dirty, and the poison marks of
its two granules (R303). -/
structure BankLine where
  line : Nat
  seq : SeqId
  dirty : Bool
  bad0 : Bool
  bad1 : Bool
  deriving DecidableEq, Repr

/-- A divide in flight (R106): the strand's number, the pend it completes, and the result. -/
structure Divide where
  owner : Nat
  pend : Nat
  val : W
  deriving DecidableEq, Repr

/-- An Almanac cache entry (R363): the rule found, or that there is none. -/
structure Rule where
  seq : SeqId
  lo : BitVec 16
  hi : BitVec 16
  found : Bool
  roam : Bool
  swap : Bool
  prim : Bool
  quiet : Bool
  typeA : BitVec 16
  handler : W
  deriving DecidableEq, Repr

/-- An instruction-cache line (R19, R133): sequence, virtual line, its bytes, poison. -/
structure ILine where
  seq : SeqId
  line : Nat
  bytes : List Byte
  poison : Bool
  deriving DecidableEq, Repr

/-- What a tile keeps for one sequence: TRAPVEC (R121), NEBULA_HEAD and the dusk list (R357), the tile-agent panes that
are free (R358), the messages waiting (R208), the activity count (R371) and the spill capacity in entries (R360). -/
structure TileSeq where
  seq : SeqId
  trapvec : W
  head : W
  dusk : List W
  agentPanes : List (Fin 128)
  messages : List (TileId × BitVec 16 × Nat × BitVec 512)
  /-- MRECVs that wait: work and operation (R209). -/
  recvs : List (Nat × Nat)
  activity : Nat
  spill : Nat
  deriving DecidableEq, Repr

/-- The scheduler's memory (R368, R382, R393). -/
structure Sched where
  /-- The class chosen last at each priority: true for threads (R382). -/
  lastThread : Vector Bool 4
  /-- LASTT (R382). -/
  lastT : Vector (Option (Fin 32)) 4
  /-- LASTR (R382); 8 stands for NEWPAIR. -/
  lastR : Vector (Option (Fin 9)) 4
  /-- The sequence popped last (R365). -/
  lastSeq : Option SeqId
  /-- Pops and spawns are stopped (R393). -/
  stopped : Bool
  /-- Spawns held, oldest first (R380). -/
  held : List Spawn
  /-- Idle cycles (R368). -/
  idle : Nat
  /-- The neighbour asked last (R368). -/
  lastAsked : Fin 4
  /-- Pairs borrowed and not yet ended (R368). -/
  borrowed : Nat
  deriving DecidableEq, Repr

/-- The core of a tile. -/
structure Core where
  strands : Vector Strand 8
  /-- The foreground strand (R381). -/
  fg : Option StrandId
  /-- A SAVED thread whose context load has not ended (R381, R391). -/
  loading : Option (StrandId × Fin 32)
  /-- CYCLE (R119). -/
  cycle : Nat
  /-- Stopped for good (R306). -/
  fenced : Bool
  /-- A switch event has taken place: the scheduler chooses before anything issues (R381). -/
  resched : Bool
  /-- Held by a Parallax retry (R300). -/
  hold : Bool
  /-- The mismatches so far of the bundle that is held or re-executed (R300). -/
  retry : Nat
  /-- Positions in that bundle of the words already released (R301). -/
  released : List Nat
  /-- The registers as they stood at that bundle's first execution. -/
  retryRegs : Option Regs
  /-- Cycles of the recent mismatches (R300). -/
  mismatches : List Nat
  /-- TRAPVEC of the Monitor bank (R224), which firmware sets at boot. -/
  monvec : W
  /-- The divider (R106). -/
  divider : Option Divide
  icache : List ILine
  almanac : List Rule
  /-- The FAULTINJ register: FIRED, ARMED and SITEW (R231). -/
  injFired : Bool
  injArmed : Bool
  injSite : BitVec 39
  /-- MODEL: an error of the hardware that will strike the word at a position of a strand's next bundle (R299); what strikes it is
  not part of the machine. -/
  upset : Option (StrandId × Fin 4)
  /-- MODEL: the strands whose context, scoreboard or commit buffer holds an uncorrectable error (R306, R307); what causes it is not
  part of the machine. -/
  lost : List StrandId
  sched : Sched
  /-- The thread table (R379). -/
  threads : Vector (Option Thread) 32
  deriving DecidableEq, Repr

/-- A tile (R19). -/
structure Tile where
  /-- The core (R19), the matrix unit (R172), the panes of the store (R144) and the copy channels (R190). -/
  core : Core
  matrix : Matrix
  panes : Vector Pane 128
  chans : Vector Chan 4
  /-- The load/store, matrix-operand and fetch TLBs and the copy TLB's four groups (R407), most recent first. -/
  tlbLoad : List TlbEntry
  tlbMatrix : List TlbEntry
  tlbFetch : List TlbEntry
  tlbCopy : Vector (List TlbEntry) 4
  /-- The walker queue, oldest first (R408). -/
  walks : List Walk
  /-- Lines of the cache bank, most recent first (R276). -/
  bank : List BankLine
  /-- Lines in the near buffer, most recent first (R136). -/
  near : List Nat
  /-- The contention predictor (R136). -/
  predictor : Vector (Fin 4) 256
  /-- Granules of the tile store that carry a poison mark (R303). -/
  storeBad : List Nat
  /-- The bags, oldest first (R359). -/
  bag : List BagEntry
  seqs : List TileSeq
  /-- PLACEMASK (R405). -/
  placemask : W
  /-- The relay next-hop table (R258). -/
  nextHop : Vector (Fin 8) 64
  /-- The partition that holds the tile (R27). -/
  part : Option PartId
  /-- In reset and in bypass (R277, R278). -/
  inReset : Bool
  /-- Misrouted words and hardware error syndromes counted (R242, R273, R300, R303). -/
  misroutes : Nat
  syndromes : Nat
  deriving DecidableEq, Repr

/-! ### Circuits and the leased plane -/

/-- Moves of a path (R235): N, E, S, W, X. -/
inductive Step | n | e | s | w | x
  deriving DecidableEq, Repr

/-- A word in an injection queue (R205, R232): its content, the SIDCOUNT of its entry, and the CSEND that its landing
completes (R210): the work and the operation. -/
structure QueueWord where
  word : BitVec 256
  entered : Nat
  done : Option (Nat × Nat)
  deriving DecidableEq, Repr

/-- A word on the wire (R232, R293): its content, the SIDCOUNT of the slot in which it lands, and the CSEND it completes. -/
structure WireWord where
  word : BitVec 256
  lands : Nat
  done : Option (Nat × Nat)
  deriving DecidableEq, Repr

/-- Where the reply of a CIRX goes and the batch member that it completes (R203, R254). -/
structure CloseReply where
  tile : TileId
  owner : Nat
  batch : W
  uid : Nat
  place : Option Place
  fault : Option (Cause × W)
  deriving DecidableEq, Repr

/-- How a circuit enters and leaves the routers (R233, R270): its first router, the input code there (5 a tile, 7 a memory or peer
port), the hop delay that comes before that router, and the output code of its last router. -/
structure Route where
  src : TileId
  inp : Fin 8
  lead : Nat
  out : Fin 8
  deriving DecidableEq, Repr

/-- A circuit that stands beside the tenants': a partition's memory circuit at a port, its reply circuit or its request circuit
(R272), or a die's event circuit (R422). -/
structure Standing where
  part : Option PartId
  port : Option (Fin 96 × Bool)
  die : DieId
  route : Route
  path : List Step
  slots : List Nat
  delay : Nat
  deriving DecidableEq, Repr

/-- An open circuit (R203–R206, R232–R237, R251, R253, R254). -/
structure Circuit where
  handle : BitVec 32
  seq : SeqId
  src : TileId
  dst : TileId
  /-- A circuit across a peer link (R248): its port, and whether its words leave the package. Its far half is another
  package's. -/
  peer : Option (Fin 16 × Bool)
  /-- The package at its other end, where that is another (R266). -/
  remote : Option (Fin 4096)
  /-- The hop delay of the peer link that words cross before they reach this package (R232). -/
  lead : Nat
  path : List Step
  /-- The slot sets at the first link (R232, R253), each with the SIDCOUNT from which it holds, ascending. -/
  sets : List (Nat × List Nat)
  /-- D (R232). -/
  delay : Nat
  /-- The first SIDCOUNT that carries words (R237). -/
  live : Nat
  /-- DKIND = 1: lands on the latch (R235). -/
  latch : Bool
  /-- Landing ring: first pane, panes, and barrier offset (R235). -/
  ringPane : Fin 128
  ringPanes : Nat
  barrier : Option Nat
  /-- The injection queue, oldest first. -/
  queue : List QueueWord
  /-- Words that have left and not landed, oldest first. -/
  wire : List WireWord
  /-- The source's credits (R184, R205). -/
  credits : Nat
  /-- Words landed and words read (R206, R234), and the CRECVs that wait: work, operation, words. -/
  landed : Nat
  read : Nat
  waiters : List (Nat × Nat × Nat)
  /-- Entries sent and entries landed on a latch circuit, and the words of the entry being received (R293). -/
  entries : BitVec 16
  arrived : BitVec 16
  incoming : List (BitVec 256)
  /-- A latch circuit that has received a header that R293 refuses: what lands afterwards is dropped. -/
  failed : Bool
  closing : Bool
  /-- SIDCOUNT of the last departure, and of the close's acceptance (R254). -/
  lastLeft : Nat
  closeAt : Nat
  closeReply : Option CloseReply
  deriving DecidableEq, Repr

/-- A slot-table entry (R241): tile of the router, output port code, slot, input code. -/
structure SlotEntry where
  tile : TileId
  out : Fin 8
  slot : Fin 64
  inp : Fin 8
  deriving DecidableEq, Repr

/-- A pending table write and its activation SIDCOUNT (R246). `inp` = 0 removes the entry. -/
structure TableWrite where
  entry : SlotEntry
  at_ : Nat
  deriving DecidableEq, Repr

/-- What a configuration word writes (R245). -/
inductive ConfigBody
  | table (w : TableWrite)
  | hop (block : Fin 64) (code : Fin 8)
  | peerKey (p : Fin 16) (slot : Fin 64) (pkey : BitVec 16)
  deriving DecidableEq, Repr

/-- A configuration word on the tree (R245): its router, the tree levels still to go and the SIDCOUNT of its next hop. -/
structure ConfigWord where
  uid : Nat
  target : TileId
  levels : Nat
  next : Nat
  body : ConfigBody
  deriving DecidableEq, Repr

/-- A request before a Meridian (R247): the address of a request record, a handle and its new slot count, or a handle to
close. -/
inductive MeridianReq
  | open_ (rec0 : W)
  | resize (h : BitVec 32) (n : BitVec 6)
  | close (h : BitVec 32)
  deriving DecidableEq, Repr

/-- A queued Meridian request (R203, R237, R247): its kind, who sent it and its batch, the reply's address, the operations that
come before it, and whether it waits for a page or was refused one (R415). -/
structure MeridianItem where
  uid : Nat
  req : MeridianReq
  tile : TileId
  seq : SeqId
  owner : Nat
  batch : W
  reply : Option W
  after : List Nat
  parked : Bool
  refused : List (Nat × Fin 4)
  deriving DecidableEq, Repr

/-! ### The relay plane -/

/-- A memory request that travels (R126, R257): the place, the width in bytes, who waits for it, where in the waiting
value its bytes stand, and the virtual address. -/
structure Req where
  pl : Place
  n : Nat
  seq : SeqId
  tile : TileId
  owner : Nat
  pend : Nat
  at_ : Nat
  va : W
  /-- Bytes forwarded from earlier stores of the strand that are not performed, over those that the access decodes (R127, R318). -/
  fwd : List (Nat × Byte)
  /-- The places of the further lines of an ordered reduction object (R166). -/
  more : List Place
  deriving DecidableEq, Repr

/-- An operation at a node's home (R354): a link, a free, an allocation's initialisation, a port read. -/
inductive NetOp
  | link (a b : WireEnd) (pri : Fin 4)
  | free (node : W)
  | init (node : W) (header : W) (addr : W)
  | port (node : W) (p : Fin 4) (hdr : Bool)
  deriving DecidableEq, Repr

/-- What a relay message carries (R257). -/
inductive Body
  | read (r : Req)
  | readRsp (r : Req) (data : List Byte) (bad : Option Cause)
  | write (r : Req) (val : W)
  | amo (r : Req) (op : AmoOp) (x c : W)
  | amoRsp (r : Req) (old : W) (flags : BitVec 6) (bad : Option Cause)
  | pair (e : BagEntry) (lent : Bool) (done : Nat × Nat)
  | netop (op : NetOp) (seq : SeqId) (owner pend : Nat)
  | netrsp (owner pend : Nat) (val : W) (bad : Option (Cause × W))
  | borrow
  | msg (seq : SeqId) (owner pend : Nat) (tag : BitVec 16) (len : Nat) (data : BitVec 512)
  | creditWords (h : BitVec 32) (n : Nat)
  | creditSeq (seqno : BitVec 16)
  | ack (seqno : BitVec 16)
  | recall (line : Nat)
  | slice (r : Req) (idx : Nat) (data : V) (mask : K)
  deriving DecidableEq, Repr

/-- A relay message (R257, R259): `after` (MODEL) are the operations that must be performed before it is sent (R131, R190), by
their work and number, or 0 and the number of a message, `launched` says that it has its SEQNO and has been sent, `held` that
the destination holds it ahead of its count, `lost` that it has been dropped on its way and waits to be sent again, `arrived`
numbers its acceptance at the destination, `served` says that it has been performed and `acked` that its ACK has come back,
`refused` numbers its first refusal for want of room and `credited` says that a CREDIT has gone out for it (R438), `last` is the
SIDCOUNT of its last sending. `struck` (MODEL) says that an error of a link has struck it on its way, so that it fails its CRC; what
strikes it is not part of the machine. -/
structure Msg where
  uid : Nat
  src : TileId
  dst : TileId
  part : PartId
  seqno : BitVec 16
  body : Body
  after : List (Nat × Nat)
  launched : Bool
  held : Bool
  lost : Bool
  arrived : Option Nat
  served : Bool
  acked : Bool
  refused : Option Nat
  credited : Bool
  last : Nat
  struck : Bool
  deriving DecidableEq, Repr

/-- Where early slices of ordered reduction objects are held: at a home bank, or at a memory port while the home is in bypass
(R167, R278). -/
inductive Hold
  | bank (t : TileId)
  | port (p : Fin 96)
  deriving DecidableEq, Repr

/-- The early slices of an ordered reduction object (R167): its sequence, its place, where they are held, and the slices. -/
structure Reduction where
  seq : SeqId
  obj : Nat
  hold : Hold
  held : List (Nat × V × K)
  deriving DecidableEq, Repr

/-! ### Memory service -/

/-- A transfer between a home and a memory port (R272–R275): a bank's READ or WRITE, or a bypass access (R278). `queued`
says the header has reached the port; a reply that has left it has the operation of a reply. -/
inductive MemOp | read | write | bypass (m : Nat) | rdata | wack | nack
  deriving DecidableEq, Repr

/-- One memory request and its progress (R273, R274), with the sequence whose HBM lines it counts among (R433). -/
structure MemReq where
  uid : Nat
  op : MemOp
  line : Nat
  home : TileId
  seq : SeqId
  queued : Bool
  bad0 : Bool
  bad1 : Bool
  deriving DecidableEq, Repr

/-- A stack (R22, R268–R270, R279–R282, R309). `scrubAt` is how far the patrol scrub has come in each pseudo-channel, spare ones
included, where it has begun (R282). Temperatures are in tenths of a kelvin (MODEL unit). -/
structure Stack where
  temp : Nat
  band : Fin 5
  refresh : Fin 5
  up : Bool
  retraining : Bool
  /-- Poisoned granules: line index within the stack × 2 + granule (R303). -/
  bad : List Nat
  /-- Corrected and uncorrectable counts of pseudo-channels that have any (R282, R309). -/
  counts : List (Nat × Nat × Nat)
  /-- Pseudo-channels being copied, replaced, and fenced; spares used (R309). -/
  copying : List Nat
  spared : List Nat
  fenced : List Nat
  spares : Nat
  scrubAt : List (Nat × Nat)
  deriving DecidableEq, Repr

/-! ### Dies -/

/-- States of a key slot (R228). -/
inductive KeyState | empty | live | void
  deriving DecidableEq, Repr

/-- A key slot (R227, R228, R425). Keys are numbers that are never used twice (MODEL: no rule shows key bits); 0 is no
key. `swept` says that the Transit sweep has ended. Log 3: DESIGN CHOICE. -/
structure KeySlot where
  state : KeyState
  gen : Bool
  rotating : Bool
  swept : Bool
  part : PartId
  seq : Fin 16
  pendinv : Bool
  key0 : Nat
  key1 : Nat
  deriving DecidableEq, Repr

/-- A region of the translation directory (R409). -/
inductive Region
  | stage1 (seq : SeqId) (va : Nat)
  | stage2 (part : PartId) (ipa : Nat)
  deriving DecidableEq, Repr

/-- An event on its way to the host (R421, R439): the function, the partition in its header, and its words. -/
structure EventRec where
  fn : Fin 193
  part : Fin 16
  seq : Fin 16
  code : BitVec 16
  time : Nat
  detail : List W
  deriving DecidableEq, Repr

/-- A die (R15, R21, R277, R286). -/
structure Die where
  /-- ORIENT's status bits for stacks and edges (R15); those for peer ports are the ports' own. -/
  stkUp : BitVec 3
  prevUp : Bool
  nextUp : Bool
  /-- Sensor, in tenths of a kelvin, and the die's band (R279). -/
  temp : Nat
  band : Fin 5
  keys : Vector KeySlot 512
  /-- The status that KEYOP last answered (R228). -/
  keyStatus : W
  /-- The translation directory (R409). -/
  directory : List (Region × BitVec 4)
  /-- Requests before the Meridian, oldest first (R247). -/
  meridian : List MeridianItem
  /-- Circuits granted, for the reuse rule of R251. -/
  granted : Nat
  /-- A transplant is under way: the logical tile (R307), and the sequences that are quiesced for it. -/
  transplant : Option TileId
  quieted : List SeqId
  /-- Tiles that have fenced themselves and been reported to the die controller (R224, R300). -/
  reported : List TileId
  /-- Spares used, of 16 (R16), and the physical places of transplanted tiles. -/
  sparesUsed : Nat
  moved : List (TileId × Nat)
  /-- A die reset (R277): the command that a stop under way answers, the SIDCOUNT of its start, and whether the tiles are in
  reset. -/
  stopping : Option HostHdr
  resetAt : Nat
  inReset : Bool
  fenced : Bool
  /-- The die has fenced itself in a group without die 0 (R312). -/
  split : Bool
  /-- Lanes repaired on the UCIe modules and modules out of service (R310). -/
  moduleSpares : Vector (Fin 5) 24
  modulesOut : List (Fin 24)
  peerSpare : BitVec 4
  /-- Event queues (R422) and events dropped since the last OVERFLOW, by queue (16 is the MF's). -/
  events : List EventRec
  dropped : List (Fin 17 × Nat)
  lastQueue : Fin 17
  deriving DecidableEq, Repr

/-! ### Sequences, partitions and the host -/

/-- The image of a sequence (R374, R375). -/
structure Image where
  textva : W
  textlen : W
  datava : W
  datalen : W
  almva : W
  threads : List W
  safes : List (W × W × W)
  agents : List W
  rwchk : W
  rwfp : W
  deriving DecidableEq, Repr

/-- The counts of R372 and R433. -/
structure Counts where
  rewrites : Nat
  allocs : Nat
  frees : Nat
  stale : Nat
  discards : Nat
  drops : Nat
  doublefree : Nat
  cuts : Nat
  loose : Nat
  rulemiss : Nat
  bundles : Nat
  mmas : Nat
  linesRead : Nat
  linesWritten : Nat
  circuitWords : Nat
  pageRequests : Nat
  deriving DecidableEq, Repr

/-- A template instance whose INSTANCE event has not been raised (R395): its number, node 0 and the counts at its start. -/
structure TemplateRun where
  num : Nat
  node0 : W
  before : Counts
  deriving DecidableEq, Repr

/-- A sequence (R5, R27, R374–R377). -/
structure Sequence where
  vf : Fin 192
  /-- MODEL: the number of its launch, by which its measurement is known (R432). -/
  launched : Nat
  s1root : W
  tilebase : W
  image : Image
  /-- Its key slot on each die (R27, R377). -/
  slots : Vector (Option (Fin 512)) 4
  /-- Nodes still to draw (R357), frames per tile (R376), rewrite tiles, tile-agent panes (R358). -/
  nodesLeft : Nat
  frames : Nat
  rtiles : List TileId
  taPanes : Nat
  frameAt : List (TileId × Page)
  /-- The interface table (R353). -/
  iface : Vector WireEnd 4
  counts : Counts
  /-- The counts of the last complete window and of its start (R433). -/
  window : Counts
  windowBase : Counts
  windowEnd : Nat
  /-- Activity at the last sweep, and whether QUIET stands reported (R371, R372). -/
  lastActivity : List Nat
  quiet : Bool
  runs : List TemplateRun
  lastRun : Nat
  dump : Option W
  /-- KEY_ROTATE under way: its command's header (R429), dies that have finished, units to go, units skipped. -/
  rotate : Option HostHdr
  sweepDone : BitVec 4
  sweepLeft : List (DieId × List Nat)
  skipped : Nat
  deriving DecidableEq, Repr

/-- A partition (R27, R405, R420). -/
structure Partition where
  blocks : BitVec 64
  vfs : BitVec 192
  linkbud : Nat
  s2root : Nat
  membud : Vector (BitVec 8) 12
  mslots : Nat
  /-- MODEL: the number of its creation, of which its memory circuits' paths are a choice (R272). -/
  made : Nat
  /-- The anchor tile of each memory port that the partition has a budget on (R272). -/
  anchors : List (Fin 96 × TileId)
  deriving DecidableEq, Repr

/-- A page tag of a VF (R412, R415). -/
structure PageTag where
  tag : BitVec 8
  ipa : Nat
  size : Fin 4
  acc : Fin 4
  seq : SeqId
  tile : TileId
  retired : Bool
  raised : Nat
  waiters : List Waiter
  deriving DecidableEq, Repr

/-- A miss whose VF's queue is full (R412). -/
structure PageMiss where
  ipa : Nat
  size : Fin 4
  acc : Fin 4
  seq : SeqId
  tile : TileId
  who : Waiter
  deriving DecidableEq, Repr

/-- A message of the device to the host (R417, R418): KIND, number, CORR and the words of its body. -/
structure HostMsg where
  kind : BitVec 8
  seqno : Nat
  corr : W
  body : List W
  deriving DecidableEq, Repr

/-- What a message of the host asks for (R414, R419, R424); `handled` (MODEL) stands for a PAGE_REPLY performed while a command
before it was in progress (R418). -/
inductive HostCmd
  | createPartition (b : CreateBody)
  | destroyPartition (part : PartId)
  | resetVf (vf : Fin 192)
  | resetPartition (part : PartId)
  | resetDie (d : DieId)
  | resetPackage
  | s2Write (b : S2Body)
  | cool
  | warmup
  | faultinj (t : TileId) (ga gb : W)
  | peerCircuit (b : PeerBody)
  | occult (pkg : Fin 4096) (restore : Bool)
  | resend (first : W)
  | startSequence (b : StartBody)
  | endSequence (seq : Fin 16)
  | replay (b : ReplayBody)
  | tlbInval (b : InvalBody)
  | unpark (b : UnparkBody)
  | keyRotate (seq : Fin 16)
  | attest (nonce : BitVec 256) (seq : Fin 16)
  | readCounters (target : Fin 16)
  | setDumparea (seq : Fin 16) (va : W)
  | pageReply (b : ReplyBody)
  | hostRead (b : HostAccess)
  | hostWrite (b : HostAccess)
  | handled
  deriving DecidableEq, Repr

/-- The two streams of a function and its page tags (R412, R418). -/
structure Stream where
  /-- The next SEQNO expected from the host, and the messages from it on that have arrived and are not performed. -/
  expect : Nat
  ahead : List (Nat × HostHdr × HostCmd)
  /-- The next SEQNO of the device, and the messages kept until acknowledged. -/
  next : Nat
  kept : List HostMsg
  /-- The function's egress queue (R422), which the Ethernet serves outside the model. -/
  egress : List HostMsg
  /-- The last completions, by the SEQNO they answer (R418). -/
  done : List (Nat × List HostMsg)
  /-- Page tags, misses that wait for room, the last tag handed out, and late replies (R412, R415). -/
  tags : List PageTag
  misses : List PageMiss
  lastTag : Option (BitVec 8)
  late : Nat
  deriving DecidableEq, Repr

/-- A HOST_READ or HOST_WRITE under way (R424): its header, the sequence, units to go, and what a read has gathered. -/
structure HostJob where
  hdr : HostHdr
  write : Bool
  seq : SeqId
  va : W
  left : Nat
  data : List Byte
  got : List Byte
  deriving DecidableEq, Repr

/-! ### The slot domain and the cold -/

/-- A peer port (R25, R261–R265). -/
structure PeerPort where
  up : Bool
  /-- The hop delay P (R261). -/
  delay : Nat
  /-- The package attached (R266), and the partition keys by slot (R265). -/
  attached : Fin 4096
  keys : List (Fin 64 × BitVec 16)
  /-- The revocation bitmap, as the list of revoked keys (R265). -/
  revoked : List (BitVec 16)
  revokedDrops : Nat
  /-- Time stamps of the exchange under way (R263). -/
  t1 : Option Stamp
  t2 : Option Stamp
  t3 : Option Stamp
  t4 : Option Stamp
  /-- What the port has sent or will send: by SIDCOUNT, the slot's tag word, and the leased word with its circuit (R261, R262). -/
  sent : List (Nat × BitVec 64 × Option (BitVec 32 × BitVec 256))
  deriving DecidableEq, Repr

/-- The slot domain as this package knows it (R239, R240, R263–R267). -/
structure Domain where
  /-- W and SIDCOUNT. -/
  wheel : Nat
  sid : Nat
  /-- A domain has been formed, and the package belongs to it; the shift of SIDCOUNT that a join under way waits to make (R263, R285);
  the package's number and the reference package's; its upstream port. -/
  formed : Bool
  member : Bool
  joining : Option Int
  own : Fin 4096
  refPkg : Fin 4096
  upstream : Option (Fin 16)
  /-- Offset and delay of the last exchange in 1/256 slot, and the slew under way (R263). -/
  offset : Int
  delay : Int
  slewing : Bool
  /-- Epochs applied (R266), packages fenced by LSU (R267) or, where it is the package itself, by its own leaving (R264), packages whose
  keys are revoked (R266), and drain rounds under way. -/
  epochs : List (BitVec 12)
  fencedPkgs : List (Fin 4096)
  revokedPkgs : List (Fin 4096)
  drains : List (Fin 4096 × Fin 4)
  /-- Circuits closed whose slots wait for the end of round 3 (R267). -/
  frozen : List (Fin 4096 × Circuit)
  deriving DecidableEq, Repr

/-- States of the cold state machine (R283). -/
inductive ColdState | warm | nightfall | cold | twilight | daybreak
  deriving DecidableEq, Repr

/-- The cold state machine and power (R31, R283–R285, R431). -/
structure Cold where
  state : ColdState
  /-- The slot clock runs at 0.8 GHz (R285); injection is stopped for a change to `slowNext`. -/
  slow : Bool
  changing : Option Bool
  supply : Bool
  booted : Bool
  /-- The measurements of boot (R431). -/
  measured : Vector (BitVec 256) 4
  deriving DecidableEq, Repr

/-- A move of the agenda: the core of a tile, or another step (MODEL). -/
inductive Move
  | core (t : TileId)
  | step (i : Instr)
  deriving DecidableEq, Repr

/-- The whole package. -/
structure State where
  tiles : Vector Tile 1024
  dies : Vector Die 4
  hbmStacks : Vector Stack 12
  seqs : Vector (Option Sequence) 256
  parts : Vector (Option Partition) 16
  /-- Bytes of HBM (key: the physical address) and of the tile stores (key: 2^56 + 2^19 × tile + offset), canonical. -/
  mem : List Host.Cell
  /-- The key under which each byte was last written, where it was written (R426); canonical. -/
  keyed : List (Nat × Nat)
  /-- Single-bit errors not yet corrected (R230, R303): granule (key of its first byte / 32) and bit. -/
  flips : List (Nat × Nat)
  circuits : List Circuit
  standing : List Standing
  tables : List SlotEntry
  pending : List TableWrite
  config : List ConfigWord
  relay : List Msg
  /-- Send and receive counts of pairs that have any (R259). -/
  sent : List ((TileId × TileId) × BitVec 16)
  received : List ((TileId × TileId) × BitVec 16)
  reductions : List Reduction
  transfers : List MemReq
  streams : Vector Stream 193
  hostJobs : List HostJob
  ports : Vector PeerPort 16
  domain : Domain
  cold : Cold
  /-- Datagrams dropped and counted at the host port (R417), relay drops (R257), transfer syndromes (R273). -/
  drops : Nat
  /-- MODEL: moves that come from outside the current core, oldest first. -/
  agenda : List Move
  /-- MODEL: the tile whose core moves when the agenda is empty. -/
  cur : TileId
  /-- MODEL: the issue under way. -/
  issue : Issue
  /-- MODEL: the number of free values taken. -/
  free : Nat
  /-- MODEL: the next number for works, operations, messages, keys and handles. -/
  fresh : Nat
  deriving DecidableEq, Repr

/-- The reasons for which a step can stop. None: every stop of the part that the spec describes (a fenced tile, a package
without supply, a pair or a thread that is parked) is a state in which the other agents go on. -/
inductive Fault
  deriving DecidableEq, Repr

/-- The reasons for which an instruction is refused. -/
inductive Refusal
  /-- Raised by an arm of exec whose instruction has no meaning in the model; safe: nothing can be proved of it. -/
  | notModelled (mnemonic : String)
  deriving DecidableEq, Repr

/-- What a step answers. -/
abbrev Out := Host.Outcome State Fault Refusal

/-! ### Reset

The package at power-on at room temperature: WARM, every band 4 (R286), no partition, no sequence, every key slot zeroized
(R431). A register for which spec/ gives no reset value is 0 (notes/assumptions/1.md). -/

/-- Registers at reset: 0 (R380 gives a thread's start; log 1 the others). -/
def Regs.zero : Regs := { g := Vector.replicate 64 0, v := Vector.replicate 32 0, k := Vector.replicate 8 0 }

/-- A bank of trap registers at reset. -/
def TrapBank.zero : TrapBank := { cause := 0, pc := 0, val := 0, mask := 0 }

/-- The context of a strand with nothing on it: every register 0 but LFSRSEED = 1 and BATCHNOW = 1 (R380). -/
def Ctx.zero : Ctx :=
  { pc := 0, regs := Regs.zero, chkctl := 0, fpctl := 0, fpflags := 0, lfsr := 1, trap := TrapBank.zero,
    mon := TrapBank.zero, mode := 0, batchnow := 1, batches := [], event := false, loops := [], aside := [],
    replay := none, replayAside := none, tail := none, inflight := [], trapRes := [], clock := 0, pends := [], due := [], dueAside := [], xfault := none,
    refused := [], sleeping := false, halting := false, parked := false }

/-- A free strand. -/
def Strand.zero : Strand :=
  { work := .free, owner := 0, seq := 0, ctx := Ctx.zero, under := none, waited := 0, ready := 0, unready := 0,
    pri := 0, quantum := 0, preempt := none, safeAt := none, leaving := false }

/-- The scheduler of a tile that has chosen nothing yet. -/
def Sched.zero : Sched :=
  { lastThread := Vector.replicate 4 false, lastT := Vector.replicate 4 none, lastR := Vector.replicate 4 none,
    lastSeq := none, stopped := false, held := [], idle := 0, lastAsked := 3, borrowed := 0 }

/-- A core after tile reset: CYCLE 0 (R70), nothing armed (R231). -/
def Core.zero : Core :=
  { strands := Vector.replicate 8 Strand.zero, fg := none, loading := none, cycle := 0, fenced := false,
    resched := false, hold := false, retry := 0, released := [], retryRegs := none, mismatches := [], monvec := Config.monitorVector,
    divider := none, icache := [], almanac := [],
    injFired := false, injArmed := false, injSite := 0, upset := none, lost := [], sched := Sched.zero, threads := Vector.replicate 32 none }

/-- A bank of an accumulator as MCLAIM finds it: +0 everywhere, valid (R173, R185). -/
def AccBank.zero : AccBank :=
  { m := Vector.replicate 1024 0, sr := Vector.replicate 32 0, sc := Vector.replicate 32 0,
    ar := Vector.replicate 32 0, ac := Vector.replicate 32 0, ck := true }

/-- The matrix unit free and cleared (R173). -/
def Matrix.zero : Matrix :=
  { holder := none, clearing := false, accs := Vector.replicate 4 ⟨AccBank.zero, AccBank.zero⟩, queue := [],
    latch := [], latchBy := none }

/-- A pane at reset: core-owned and untagged (R144, R321). -/
def Pane.zero : Pane :=
  { engine := false, busy := 0, staged := 0, ring := false, handed := false, ret := false, seq := none,
    system := false }

/-- A channel with an empty queue (R201). -/
def Chan.zero : Chan := { queue := [], state := .idle, lastRec := [], lastCause := [] }

/-- A tile after reset: empty TLBs and bank, predictor counters 0 (R136). -/
def Tile.zero : Tile :=
  { core := Core.zero, matrix := Matrix.zero, panes := Vector.replicate 128 Pane.zero,
    chans := Vector.replicate 4 Chan.zero, tlbLoad := [], tlbMatrix := [], tlbFetch := [],
    tlbCopy := Vector.replicate 4 [], walks := [], bank := [], near := [], predictor := Vector.replicate 256 0,
    storeBad := [], bag := [], seqs := [], placemask := 0, nextHop := Vector.replicate 64 0, part := none,
    inReset := false, misroutes := 0, syndromes := 0 }

/-- A key slot zeroized at boot (R431). -/
def KeySlot.zero : KeySlot :=
  { state := .empty, gen := false, rotating := false, swept := false, part := 0, seq := 0, pendinv := false,
    key0 := 0, key1 := 0 }

/-- Room temperature, in tenths of a kelvin: the sensors' reading at reset (log 1). Log 1: DESIGN CHOICE. -/
def roomTemp : Nat := 2931

/-- A die at reset: links and stacks down (R15), band 4 (R286). -/
def Die.zero : Die :=
  { stkUp := 0, prevUp := false, nextUp := false, temp := roomTemp, band := 4,
    keys := Vector.replicate 512 KeySlot.zero, keyStatus := 0, directory := [], meridian := [], granted := 0,
    transplant := none, quieted := [], reported := [], sparesUsed := 0, moved := [], stopping := none, resetAt := 0, inReset := false,
    fenced := false, split := false,
    moduleSpares := Vector.replicate 24 4, modulesOut := [], peerSpare := 15, events := [], dropped := [],
    lastQueue := 16 }

/-- A stack at reset: band 4, twice standard refresh (R283, R286). -/
def Stack.zero : Stack :=
  { temp := roomTemp, band := 4, refresh := 4, up := false, retraining := false, bad := [], counts := [],
    copying := [], spared := [], fenced := [], spares := 16, scrubAt := [] }

/-- A function's streams at reset (R418). -/
def Stream.zero : Stream :=
  { expect := 0, ahead := [], next := 0, kept := [], egress := [], done := [], tags := [], misses := [], lastTag := none,
    late := 0 }

/-- A peer port that has never trained (R240). -/
def PeerPort.zero : PeerPort :=
  { up := false, delay := 1, attached := 0, keys := [], revoked := [], revokedDrops := 0, t1 := none, t2 := none,
    t3 := none, t4 := none, sent := [] }

/-- Outside any slot domain; W is 8 until one is formed (log 1), SIDCOUNT 0 (log 1). Log 6: DESIGN CHOICE. -/
def Domain.zero : Domain :=
  { wheel := 8, sid := 0, formed := false, member := false, joining := none, own := 0, refPkg := 0, upstream := none, offset := 0, delay := 0,
    slewing := false, epochs := [], fencedPkgs := [], revokedPkgs := [], drains := [], frozen := [] }

/-- WARM (R286), the slot clock at 0.8 GHz (R279, band 4), supplied and booted, with the measurements of boot (R431).
Log 5: DESIGN CHOICE. -/
def Cold.zero : Cold :=
  { state := .warm, slow := true, changing := none, supply := true, booted := true,
    measured := Vector.ofFn fun (i : Fin 4) => Config.measurement i.val }

/-- No bundle under issue. -/
def Issue.zero : Issue :=
  { ba := 0, bw := 1, w := 0, checked := false, probe := false, verdict := .pass, pos := 0, word := 0, target := none, opened := none, atEnd := false,
    first := 0 }

/-- The package right after reset. Log 1: DESIGN CHOICE. Log 5: DESIGN CHOICE. -/
def State.reset : State :=
  { tiles := Vector.replicate 1024 Tile.zero, dies := Vector.replicate 4 Die.zero,
    hbmStacks := Vector.replicate 12 Stack.zero, seqs := Vector.replicate 256 none, parts := Vector.replicate 16 none,
    mem := [], keyed := [], flips := [], circuits := [], standing := [], tables := [], pending := [], config := [], relay := [], sent := [],
    received := [], reductions := [], transfers := [], streams := Vector.replicate 193 Stream.zero, hostJobs := [],
    ports := Vector.replicate 16 PeerPort.zero, domain := Domain.zero, cold := Cold.zero, drops := 0, agenda := [],
    cur := 0, issue := Issue.zero, free := 0, fresh := 1 }

end Sys2Proof.Machine
end

