-- ==== Sys2Proof/Machine/Basic.lean ====
section
/-! DEFINITION. Access to the state: tiles, strands and registers (spec/03 R65–R71), bytes and keys (spec/26 R425–R429),
and the order in which results land (spec/03 R57). -/

namespace Sys2Proof.Machine

/-! ### Tiles, strands, contexts -/

/-- The state with one tile changed. -/
def State.modTile (s : State) (t : TileId) (f : Tile → Tile) : State :=
  { s with tiles := s.tiles.set t (f s.tiles[t]) }

/-- The state with the core of one tile changed. -/
def State.modCore (s : State) (t : TileId) (f : Core → Core) : State :=
  s.modTile t fun x => { x with core := f x.core }

/-- The state with the matrix unit of one tile changed. -/
def State.modMatrix (s : State) (t : TileId) (f : Matrix → Matrix) : State :=
  s.modTile t fun x => { x with matrix := f x.matrix }

/-- The state with one die changed. -/
def State.modDie (s : State) (d : DieId) (f : Die → Die) : State := { s with dies := s.dies.set d (f s.dies[d]) }

/-- The state with one strand changed. -/
def State.modStrandAt (s : State) (t : TileId) (k : StrandId) (f : Strand → Strand) : State :=
  s.modCore t fun c => { c with strands := c.strands.set k (f c.strands[k]) }

/-- A strand of a tile. -/
def State.strandAt (s : State) (t : TileId) (k : StrandId) : Strand := s.tiles[t].core.strands[k]

/-- The strand whose bundle is under issue: the foreground strand of the current tile, strand 0 where none is. -/
def State.curK (s : State) : StrandId := s.tiles[s.cur].core.fg.getD 0

/-- The current strand. -/
def State.strand (s : State) : Strand := s.strandAt s.cur s.curK

/-- Its context. -/
def State.ctx (s : State) : Ctx := s.strand.ctx

/-- The state with the current strand changed. -/
def State.modStrand (s : State) (f : Strand → Strand) : State := s.modStrandAt s.cur s.curK f

/-- The state with the current context changed. -/
def State.modCtx (s : State) (f : Ctx → Ctx) : State := s.modStrand fun x => { x with ctx := f x.ctx }

/-- The current tile. -/
def State.tile (s : State) : Tile := s.tiles[s.cur]

/-- The die of a logical tile (R17). -/
def dieOf (t : TileId) : DieId :=
  match decide (16 ≤ t.val % 32), decide (16 ≤ t.val / 32) with
  | false, false => 0
  | true, false => 1
  | true, true => 2
  | false, true => 3

/-- A tile that is being transplanted: what is addressed to it waits (R308). -/
def State.moving (s : State) (t : TileId) : Bool := s.dies[dieOf t].transplant == some t

/-- A tile whose engines stand still: it is in reset (R277) or is being transplanted (R307). -/
def State.still (s : State) (t : TileId) : Bool := s.tiles[t].inReset || s.moving t

/-- The package block of a logical tile (R258): 8 × floor(y/4) + floor(x/4). -/
def blockOf (t : TileId) : Nat := 8 * (t.val / 32 / 4) + t.val % 32 / 4

/-- The partition number of a sequence. -/
def partOf (q : SeqId) : PartId := ⟨q.val / 16, by omega⟩

/-- The number of a sequence within its partition. Log 14: DEDUCED. -/
def seqNo (q : SeqId) : Fin 16 := ⟨q.val % 16, by omega⟩

/-- A sequence by partition and number. -/
def seqOf (p : PartId) (n : Fin 16) : SeqId := ⟨16 * p.val + n.val, by omega⟩

/-- The next number for a work, an operation, a message or a key. -/
def State.bump (s : State) : State := { s with fresh := s.fresh + 1 }

/-- The next free value has been taken. Log 7: DESIGN CHOICE. -/
def State.useFree (s : State) : State := { s with free := s.free + 1 }

/-! ### Registers -/

/-- A scalar register: g0 reads as zero (R65). -/
def Ctx.g (c : Ctx) (r : GReg) : W := if r = 0 then 0 else c.regs.g[r]

/-- A vector register (R66). -/
def Ctx.v (c : Ctx) (r : VReg) : V := c.regs.v[r]

/-- A mask register: k0 reads as all ones (R67). -/
def Ctx.k (c : Ctx) (r : KReg) : K := if r = 0 then BitVec.allOnes 128 else c.regs.k[r]

/-- A write of a scalar register: g0 discards it (R65). -/
def Ctx.setG (c : Ctx) (r : GReg) (x : W) : Ctx :=
  if r = 0 then c else { c with regs := { c.regs with g := c.regs.g.set r x } }

/-- A write of a vector register (R66). -/
def Ctx.setV (c : Ctx) (r : VReg) (x : V) : Ctx := { c with regs := { c.regs with v := c.regs.v.set r x } }

/-- A write of a mask register: k0 discards it (R67). -/
def Ctx.setK (c : Ctx) (r : KReg) (x : K) : Ctx :=
  if r = 0 then c else { c with regs := { c.regs with k := c.regs.k.set r x } }

/-- A mask of bytes widened to a mask of bits. -/
def spread (m : K) (w : Nat) : Nat → V
  | 0 => 0
  | n + 1 => (if m.getLsbD n then (BitVec.ofNat 1024 (2 ^ w - 1)) <<< (w * n) else 0) ||| spread m w n

/-- Bits of the new value where the mask selects, of the old elsewhere (R66). Log 24: DEDUCED. -/
def blend (sel new old : V) : V := (new &&& sel) ||| (old &&& ~~~sel)

/-- A result written to its destination register. Control registers are written by State.landCr. Log 24: DEDUCED. -/
def Ctx.write (c : Ctx) (d : Dest) (x : V) : Ctx :=
  match d with
  | .none => c
  | .g r => c.setG r (x.setWidth 64)
  | .v r => c.setV r x
  | .k r => c.setK r (x.setWidth 128)
  | .cr _ => c

/-- The current strand's scalar register, as it stands at the bundle's issue (R54). -/
def State.g (s : State) (r : GReg) : W := s.ctx.g r
/-- The current strand's vector register. -/
def State.v (s : State) (r : VReg) : V := s.ctx.v r
/-- The current strand's mask register. -/
def State.k (s : State) (r : KReg) : K := s.ctx.k r

/-- The strand runs at Monitor level (R71). -/
def Ctx.mon? (c : Ctx) : Bool := c.mode.getLsbD 0
/-- The fault that a walk for an address has ended in (R400, R416). Log 30: DESIGN CHOICE. -/
def Ctx.faultAt (c : Ctx) (va : W) : Option Cause :=
  match c.xfault with
  | some (a, x) => if a.toNat / 4096 = va.toNat / 4096 then some x else none
  | none => none

/-- INTRAP (R71). -/
def Ctx.intrap (c : Ctx) : Bool := c.mode.getLsbD 1
/-- HALTED (R71). -/
def Ctx.halted (c : Ctx) : Bool := c.mode.getLsbD 2

/-- STRANDMODE from its three bits (R71). -/
def modeWord (halted intrap mon : Bool) : W :=
  BitVec.ofNat 64 (4 * boolNat halted + 2 * boolNat intrap + boolNat mon)

/-- CHKCTL.TRAP (R59). -/
def Ctx.chkTrap (c : Ctx) : Bool := c.chkctl.getLsbD 0
/-- FPCTL.FTZ (R38). -/
def Ctx.ftz (c : Ctx) : Bool := c.fpctl.getLsbD 2
/-- FPCTL.RM (R38). -/
def Ctx.rm (c : Ctx) : Nat := c.fpctl.toNat % 4
/-- The trap enables of FPCTL at the positions of FPFLAGS (R38, R39): bit n + 8 enables flag n, n from 0 to 4. -/
def Ctx.fpEnables (c : Ctx) : BitVec 6 := BitVec.ofNat 6 (c.fpctl.toNat / 256 % 32)

/-- Flags ORed into FPFLAGS (R39, R40). -/
def Ctx.orFlags (c : Ctx) (f : BitVec 6) : Ctx := { c with fpflags := c.fpflags ||| f.setWidth 64 }

/-- A register as TRAPVAL names it (R63). -/
def Dest.code : Dest → W
  | .g r => BitVec.ofNat 64 r.val
  | .v r => BitVec.ofNat 64 (64 + r.val)
  | .k r => BitVec.ofNat 64 (128 + r.val)
  | .none | .cr _ => 0

/-- Trap cause codes (R98). -/
def Cause.code : Cause → BitVec 8
  | .illegalOp => 0x01
  | .priv => 0x02
  | .misalign => 0x03
  | .xlateS1 => 0x04
  | .xlateS2 => 0x05
  | .xlateDenied => 0x06
  | .permission => 0x07
  | .poison => 0x08
  | .checkStall => 0x09
  | .paneViolation => 0x0A
  | .commitOverflow => 0x0B
  | .runaway => 0x0C
  | .keyVoid => 0x0D
  | .circuit => 0x0E
  | .fp => 0x0F
  | .trapWord => 0x10
  | .breakpoint => 0x11

/-! ### Batches (R191) -/

/-- The open batch sealed: BATCHNOW goes on (R191). -/
def Ctx.sealOpen (c : Ctx) : Ctx :=
  let num := c.batchnow
  let l := if c.batches.any fun b => b.num == num then c.batches
    else c.batches ++ [{ num := num, members := 0, used := false, sealed := false, fault := none, reported := false }]
  { c with batchnow := num + 1, batches := l.map fun b => if b.num = num then { b with sealed := true } else b }

/-- HALT seals the open batch when it is not empty (R191). -/
def Ctx.sealHalt (c : Ctx) : Ctx := if c.batches.any fun b => b.num == c.batchnow then c.sealOpen else c

/-! ### Canonical lists

Memory and the list of keys hold strictly rising addresses and no default value. -/

/-- A canonical list with one entry written. -/
def putAt {α : Type} [DecidableEq α] (dflt : α) : List (Nat × α) → Nat → α → List (Nat × α)
  | [], a, x => if x = dflt then [] else [(a, x)]
  | (b, y) :: l, a, x =>
    if a < b then (if x = dflt then (b, y) :: l else (a, x) :: (b, y) :: l)
    else if a = b then (if x = dflt then l else (a, x) :: l)
    else (b, y) :: putAt dflt l a x

/-- The entry at an address, the default where none is listed. -/
def getAt {α : Type} (dflt : α) : List (Nat × α) → Nat → α
  | [], _ => dflt
  | (b, y) :: l, a => if a = b then y else getAt dflt l a

/-- Every address of the list lies above `lo`, addresses rise, and no entry is the default. -/
def wfAbove {α : Type} [DecidableEq α] (dflt : α) : Nat → List (Nat × α) → Bool
  | _, [] => true
  | lo, (b, y) :: l => decide (lo ≤ b) && decide (y ≠ dflt) && wfAbove dflt (b + 1) l

/-- The canonical form of memory. Log 2: DESIGN CHOICE. -/
def Memory.wf (m : List Host.Cell) : Bool := wfAbove (0 : Byte) 0 m

/-- The canonical form of the keys' list. -/
def Keyed.wf (m : List (Nat × Nat)) : Bool := wfAbove (0 : Nat) 0 m

/-- The key of a byte of a tile store in the memory list. -/
def storeKey (t : TileId) (off : Nat) : Nat := 2 ^ 56 + 2 ^ 19 * t.val + off

/-! ### Keys and bytes -/

/-- What a reader or writer holds of a key slot: the keys of both generations (0 where none is held) and the one that
writes use (R429). -/
structure KeyView where
  k0 : Nat
  k1 : Nat
  w : Nat
  deriving DecidableEq, Repr

/-- The keys of a slot: while it rotates, writes use the next generation (R227, R429). Nothing is held in a slot that is not
live. Log 3: DESIGN CHOICE. -/
def KeySlot.view (k : KeySlot) : KeyView :=
  if k.state = .live then ⟨k.key0, k.key1, if k.gen != k.rotating then k.key1 else k.key0⟩ else ⟨0, 0, 0⟩

/-- The keys under which a sequence's bytes are ciphered on a die (R426). -/
def State.keyOn (s : State) (q : SeqId) (d : DieId) : KeyView :=
  match s.seqs[q] with
  | none => ⟨0, 0, 0⟩
  | some x =>
    match x.slots[d] with
    | none => ⟨0, 0, 0⟩
    | some i => s.dies[d].keys[i].view

/-- The sequence's key on a die is live (R227, R427, R428). -/
def State.keyLive (s : State) (q : SeqId) (d : DieId) : Bool := (s.keyOn q d).w != 0

/-- Firmware's own key (R426): no slot's key has its number. -/
def firmwareKey : KeyView := ⟨2 ^ 64, 0, 2 ^ 64⟩

/-- One byte as a reader with the given keys sees it (R8, R21, R427): the byte, where it was last written under a key that
the reader holds; unpredictable otherwise. Log 2: DESIGN CHOICE. -/
def State.byteAs (s : State) (key : KeyView) (addr : Nat) : Byte :=
  let w := getAt 0 s.keyed addr
  if w ≠ 0 ∧ (w = key.k0 ∨ w = key.k1) then getAt 0 s.mem addr else Config.garbage key.w w addr

/-- One byte written under a key. -/
def State.setByte (s : State) (key : KeyView) (addr : Nat) (x : Byte) : State :=
  { s with mem := putAt 0 s.mem addr x, keyed := putAt 0 s.keyed addr key.w }

/-- Bytes from an address upward. -/
def State.bytesAs (s : State) (key : KeyView) (addr : Nat) : Nat → List Byte
  | 0 => []
  | n + 1 => s.byteAs key addr :: s.bytesAs key (addr + 1) n

/-- Bytes written from an address upward. -/
def State.setBytes (s : State) (key : KeyView) (addr : Nat) : List Byte → State
  | [] => s
  | x :: l => (s.setByte key addr x).setBytes key (addr + 1) l

/-- A little-endian number from bytes (R2). -/
def leNat : List Byte → Nat
  | [] => 0
  | x :: l => x.toNat + 256 * leNat l

/-- The n low bytes of a number, least significant first (R2). -/
def leBytes : Nat → Nat → List Byte
  | 0, _ => []
  | n + 1, x => BitVec.ofNat 8 x :: leBytes n (x / 256)

/-! ### Results that land -/

/-- An ordinary result of a bundle: no flags, no fault, every byte written. -/
def Landing.of (d : Dest) (x : V) (due : Nat) (ba : W) : Landing :=
  { dest := d, val := x, act := BitVec.allOnes 128, due := due, cls := 1, flags := 0, hot := 0, fault := none, ba := ba }

/-- A result put in flight at the current strand, made from the strand's clock and the bundle's address (R57). -/
def State.fly (s : State) (f : Nat → W → Landing) : State :=
  s.modCtx fun c => { c with inflight := c.inflight ++ [f c.clock s.issue.ba] }

/-- An ordinary result that lands at n + L (R57). -/
def State.later (s : State) (d : Dest) (x : V) (lat : Nat) : State :=
  s.fly fun n ba => Landing.of d x (n + lat) ba

/-- The earlier of two results in landing order: by clock, then class (R57, R111, R121). -/
def Landing.before (a b : Landing) : Bool := a.due < b.due || (a.due == b.due && a.cls < b.cls)

/-- A result put before the first that does not land earlier. -/
def insertLanding (x : Landing) : List Landing → List Landing
  | [] => [x]
  | y :: l => if y.before x then y :: insertLanding x l else x :: y :: l

/-- Results in landing order; those of one clock and class keep issue order (R57). -/
def sortLandings : List Landing → List Landing
  | [] => []
  | x :: l => insertLanding x (sortLandings l)

end Sys2Proof.Machine
end

