-- ==== Sys2Proof/Machine/Geometry.lean ====
section
/-! DEFINITION. The geometry of the package (spec/01 R12–R19, spec/12 R243, spec/13 R270): dies and their edges, native and
package-frame coordinates, the routers of memory and peer ports, and the moves between routers. -/

namespace Sys2Proof.Machine

/-- A move's outcome: the router reached, the output and input codes (R241) and the hop delay (R24). -/
structure Hop where
  goal : TileId
  out : Fin 8
  inp : Fin 8
  delay : Nat
  deriving DecidableEq, Repr

/-- The logical tile at package-frame coordinates (R17). -/
def tileAt (x y : Nat) : TileId := ⟨(32 * y + x) % 1024, by omega⟩

/-- The router across the next edge of a die (R12, R13). -/
def nextEdge (t : TileId) : Option TileId :=
  let x := t.val % 32
  let y := t.val / 32
  match dieOf t with
  | 0 => if x = 15 then some (tileAt 16 y) else none
  | 1 => if y = 15 then some (tileAt x 16) else none
  | 2 => if x = 16 then some (tileAt 15 y) else none
  | 3 => if y = 16 then some (tileAt x 15) else none

/-- The router across the previous edge of a die. -/
def prevEdge (t : TileId) : Option TileId :=
  let x := t.val % 32
  let y := t.val / 32
  match dieOf t with
  | 0 => if y = 15 then some (tileAt x 16) else none
  | 1 => if x = 16 then some (tileAt 15 y) else none
  | 2 => if y = 16 then some (tileAt x 15) else none
  | 3 => if x = 15 then some (tileAt 16 y) else none

/-- A move within the die. -/
def inner (b : Bool) (goal : Nat) (out inp : Fin 8) : Option Hop :=
  if b then some { goal := ⟨goal % 1024, by omega⟩, out := out, inp := inp, delay := 1 } else none

/-- A move at a router (R243): the X port of a router on both edges crosses the next edge. -/
def move (t : TileId) (m : Step) : Option Hop :=
  let x := t.val % 32
  let y := t.val / 32
  match m with
  | .n => inner (y % 16 != 0) (t.val - 32) 1 3
  | .e => inner (x % 16 != 15) (t.val + 1) 2 4
  | .s => inner (y % 16 != 15) (t.val + 32) 3 1
  | .w => inner (x % 16 != 0) (t.val - 1) 4 2
  | .x => ((nextEdge t).orElse fun _ => prevEdge t).map fun u => { goal := u, out := 6, inp := 6, delay := 6 }

/-! ### Native coordinates (R18) -/

/-- The native coordinates (u, v) of die-local coordinates, by ROT. -/
def toNative (d : DieId) (x y : Nat) : Nat × Nat :=
  match d with
  | 0 => (x, y)
  | 1 => (y, 15 - x)
  | 2 => (15 - x, 15 - y)
  | 3 => (15 - y, x)

/-- The die-local coordinates of native coordinates, by ROT. -/
def fromNative (d : DieId) (u v : Nat) : Nat × Nat :=
  match d with
  | 0 => (u, v)
  | 1 => (15 - v, u)
  | 2 => (15 - u, 15 - v)
  | 3 => (v, 15 - u)

/-- The native coordinates of a logical tile. -/
def nativeOf (t : TileId) : Nat × Nat := toNative (dieOf t) (t.val % 32 % 16) (t.val / 32 % 16)

/-- The tile at native coordinates of a die. -/
def atNative (d : DieId) (u v : Nat) : TileId :=
  let l := fromNative d u v
  let x0 := if d = 1 ∨ d = 2 then 16 else 0
  let y0 := if d = 2 ∨ d = 3 then 16 else 0
  tileAt (x0 + l.1) (y0 + l.2)

/-! ### Ports on the outer edges (R13, R19, R270) -/

/-- The native coordinates of the routers on a die's outer edges that have no X port: the north edge and the west edge, clockwise
(R13, R19). -/
def outerEdge : List (Nat × Nat) :=
  ((List.range 15).reverse.map fun i => (0, i)) ++ (List.range 14).map fun i => (i + 1, 0)

/-- Distinct routers chosen one after another: the n-th by an index of the implementation's choice. -/
def chooseFrom (l : List (Nat × Nat)) (n : Nat) : Nat → List (Nat × Nat)
  | 0 => []
  | k + 1 =>
    let x := l.getD (Config.outerPlace n % l.length) (0, 0)
    x :: chooseFrom (l.filter (· != x)) (n + 1) k

/-- The routers that carry a die's 24 memory ports and four peer ports, each on its own outer-edge router. Which carries which is the
implementation's. Log 62: DESIGN CHOICE. -/
def outerPlaces : List (Nat × Nat) := chooseFrom outerEdge 0 28

/-- The router that a memory port attaches to through its M port (R270). -/
def memoryRouter (p : Fin 96) : TileId :=
  let x := outerPlaces.getD (p.val % 24) (0, 0)
  atNative ⟨p.val / 24, by omega⟩ x.1 x.2

/-- The router that a peer port attaches to (R248). -/
def peerRouter (p : Fin 16) : TileId :=
  let x := outerPlaces.getD (24 + p.val % 4) (0, 0)
  atNative ⟨p.val / 4, by omega⟩ x.1 x.2

/-- The router beside a die's controller; on die 0 that of the host port logic (R422). Log 113: DESIGN CHOICE. -/
def controllerRouter (d : DieId) : TileId :=
  let n := Config.controllerPlace d.val
  atNative d (n % 16) (n / 16 % 16)

/-! ### Edges (R12, R14, R15) -/

/-- The die across a die's next edge (R12). -/
def nextDie (d : DieId) : DieId := ⟨(d.val + 1) % 4, by omega⟩

/-- The module of the next die's previous edge to which a module of a die's next edge connects, and back (R14). -/
def facingModule (m : Fin 24) : Fin 24 := ⟨23 - m.val, by omega⟩

/-- The link of a die's next edge is in service at both ends. -/
def State.edgeUp (s : State) (d : DieId) : Bool := s.dies[d].nextUp && s.dies[nextDie d].prevUp

/-- Two dies' common edge is in service; a die meets itself. -/
def State.edgeBetween (s : State) (a b : DieId) : Bool :=
  a == b || (nextDie a == b && s.edgeUp a) || (nextDie b == a && s.edgeUp b)

/-- A die reaches die 0 over links in service (R26, R312). -/
def State.meetsZero (s : State) (d : DieId) : Bool :=
  let onward := (List.range (4 - d.val)).all fun i => s.edgeUp ⟨(d.val + i) % 4, by omega⟩
  let back := (List.range d.val).all fun i => s.edgeUp ⟨i % 4, by omega⟩
  d == 0 || onward || back

/-! ### Steps of the relay plane (R258) -/

/-- The move of a port code within the die (R241). -/
def codeStep (code : Fin 8) : Option Step :=
  match code with
  | 1 => some .n
  | 2 => some .e
  | 3 => some .s
  | 4 => some .w
  | _ => none

/-- The port code of the direction from a tile to a neighbour in the package frame; 0 where they are no neighbours. -/
def dirTo (t u : TileId) : Fin 8 :=
  if t.val = u.val + 32 then 1
  else if u.val = t.val + 1 then 2
  else if u.val = t.val + 32 then 3
  else if t.val = u.val + 1 then 4
  else 0

/-- The next tile of the XY way to a tile. -/
def xyNext (t goal : TileId) : TileId :=
  let x := t.val % 32
  let y := t.val / 32
  if x < goal.val % 32 then tileAt (x + 1) y
  else if goal.val % 32 < x then tileAt (x - 1) y
  else if y < goal.val / 32 then tileAt x (y + 1)
  else if goal.val / 32 < y then tileAt x (y - 1)
  else t

end Sys2Proof.Machine
end

