-- ==== Sys2Proof/Machine/Flags.lean ====
section
/-! DEFINITION. Floating-point values, the one rounding step and the flags it raises (spec/02 R34–R44), and the decoding and
encoding of BX blocks (R45–R47). Finite values are exact integers: m × 2^x. -/

namespace Sys2Proof.Machine

/-- A binary format (R34): fraction bits and exponent bits. -/
structure Fmt where
  p : Nat
  e : Nat
  deriving DecidableEq, Repr

/-- FP32, FP16 and BF16 (R34). -/
def Fmt.f32 : Fmt := ⟨23, 8⟩
/-- FP16. -/
def Fmt.f16 : Fmt := ⟨10, 5⟩
/-- BF16. -/
def Fmt.bf16 : Fmt := ⟨7, 8⟩

/-- The exponent bias (R34). -/
def Fmt.bias (f : Fmt) : Nat := 2 ^ (f.e - 1) - 1
/-- The width in bits. -/
def Fmt.width (f : Fmt) : Nat := 1 + f.e + f.p
/-- The exponent of the smallest normal (R34). -/
def Fmt.emin (f : Fmt) : Int := 1 - (f.bias : Int)
/-- The canonical NaN (R34, R35). -/
def Fmt.nan (f : Fmt) : Nat := (2 ^ f.e - 1) * 2 ^ f.p + 2 ^ (f.p - 1)
/-- ±Inf. -/
def Fmt.inf (f : Fmt) (neg : Bool) : Nat := boolNat neg * 2 ^ (f.e + f.p) + (2 ^ f.e - 1) * 2 ^ f.p
/-- ±0. -/
def Fmt.zero (f : Fmt) (neg : Bool) : Nat := boolNat neg * 2 ^ (f.e + f.p)
/-- The largest finite value of a sign. -/
def Fmt.big (f : Fmt) (neg : Bool) : Nat := Fmt.inf f neg - 1

/-- The formats of the FP2 code (R89). -/
def fp2Fmt : FP2 → Fmt
  | .f32 => Fmt.f32
  | .f16 => Fmt.f16
  | .bf16 => Fmt.bf16

/-- A floating-point datum: a NaN, an infinity, or ± m × 2^x. -/
inductive Num
  | nan (signalling : Bool)
  | inf (neg : Bool)
  | fin (neg : Bool) (m : Nat) (x : Int)
  deriving DecidableEq, Repr

/-- The datum that a bit pattern encodes (R34). -/
def unpack (f : Fmt) (b : Nat) : Num :=
  let s := b / 2 ^ (f.e + f.p) % 2 == 1
  let ef := b / 2 ^ f.p % 2 ^ f.e
  let fr := b % 2 ^ f.p
  if ef = 2 ^ f.e - 1 then (if fr = 0 then .inf s else .nan (fr < 2 ^ (f.p - 1)))
  else if ef = 0 then .fin s fr (f.emin - f.p)
  else .fin s (2 ^ f.p + fr) (f.emin - f.p + (ef - 1))

/-- A subnormal bit pattern (R34). -/
def subnormal (f : Fmt) (b : Nat) : Bool := b / 2 ^ f.p % 2 ^ f.e == 0 && b % 2 ^ f.p != 0

/-- An input under FTZ: a subnormal is zero of its sign (R44). -/
def flushIn (f : Fmt) (ftz : Bool) (b : Nat) : Nat :=
  if ftz && subnormal f b then b / 2 ^ (f.e + f.p) % 2 * 2 ^ (f.e + f.p) else b

/-- Rounding modes (R41); the stochastic mode carries its 16-bit draw (R42). -/
inductive RMode
  | rne | rtz | rup | rdn
  | rst (draw : Nat)
  deriving DecidableEq, Repr

/-- FPCTL.RM (R38). -/
def RMode.ofRM : Nat → RMode
  | 0 => .rne
  | 1 => .rtz
  | 2 => .rup
  | _ => .rdn

/-- Flags at their positions in FPFLAGS (R39). -/
def flagNX : BitVec 6 := 1
/-- UF. -/
def flagUF : BitVec 6 := 2
/-- OF. -/
def flagOF : BitVec 6 := 4
/-- DZ. -/
def flagDZ : BitVec 6 := 8
/-- NV. -/
def flagNV : BitVec 6 := 16
/-- SAT. -/
def flagSAT : BitVec 6 := 32

/-- A flag where a condition holds. -/
def flagIf (b : Bool) (f : BitVec 6) : BitVec 6 := if b then f else 0

/-- Whether a magnitude k + r / 2^sh (r < 2^sh) rounds away from zero (R41, R42). -/
def roundsUp (mode : RMode) (neg : Bool) (k r sh : Nat) : Bool :=
  match mode with
  | .rne => 2 ^ sh < 2 * r || (2 * r == 2 ^ sh && k % 2 == 1)
  | .rtz => false
  | .rup => !neg && r != 0
  | .rdn => neg && r != 0
  | .rst draw => 2 ^ 16 ≤ r * 2 ^ 16 / 2 ^ sh + draw

/-- A magnitude m × 2^x as a whole number of units 2^q: the rounded number, whether it was exact, whether it went up. -/
def roundUnits (mode : RMode) (neg : Bool) (m : Nat) (x q : Int) : Nat × Bool × Bool :=
  if q ≤ x then (m * 2 ^ (x - q).toNat, true, false)
  else
    let sh := (q - x).toNat
    let k := m / 2 ^ sh
    let r := m % 2 ^ sh
    let up := roundsUp mode neg k r sh
    (if up then k + 1 else k, r == 0, up)

/-- The direction of an overflow (R36): whether the result is infinite. -/
def overflowInf (mode : RMode) (neg up : Bool) : Bool :=
  match mode with
  | .rne => true
  | .rtz => false
  | .rup => !neg
  | .rdn => neg
  | .rst _ => up

/-- The one rounding of an exact value ± m × 2^x into a format (R36, R41, R42, R44): the bit pattern and the flags OF, UF
and NX. Tininess is detected after rounding, with an unbounded exponent; in stochastic rounding, for which R42 works on the
magnitude in units of the destination and does not say how tininess is judged, on the delivered magnitude. Log 116: DEDUCED. -/
def roundTo (f : Fmt) (mode : RMode) (ftz neg : Bool) (m : Nat) (x : Int) : Nat × BitVec 6 :=
  if m = 0 then (f.zero neg, 0)
  else
    let top : Int := (Nat.log2 m : Int) + x
    -- rounded with an unbounded exponent
    let (ku, exU, upU) := roundUnits mode neg m x (top - f.p)
    let topU : Int := (Nat.log2 ku : Int) + (top - f.p)
    if f.emin + (2 ^ f.e - 3 : Nat) < topU then
      (if overflowInf mode neg upU then f.inf neg else f.big neg, flagOF ||| flagNX)
    else if f.emin ≤ top then
      -- normal: ku has p + 1 bits, or is 2^(p+1)
      let ef : Nat := (topU - f.emin).toNat + 1
      let fr := if ku = 2 ^ (f.p + 1) then 0 else ku - 2 ^ f.p
      (f.zero neg + ef * 2 ^ f.p + fr, flagIf (!exU) flagNX)
    else
      let (k, ex, _) := roundUnits mode neg m x (f.emin - f.p)
      let tiny := match mode with
        | .rst _ => k < 2 ^ f.p
        | _ => topU < f.emin
      if ftz && k != 0 && k < 2 ^ f.p then (f.zero neg, flagUF ||| flagNX)
      else (f.zero neg + k, flagIf (!ex) flagNX ||| flagIf (tiny && !ex) flagUF)

/-- NV for the signalling NaNs among the inputs (R35). -/
def nanFlags (xs : List Num) : BitVec 6 :=
  flagIf (xs.any fun | .nan sig => sig | _ => false) flagNV

/-- Whether a datum is a NaN. -/
def Num.isNan : Num → Bool
  | .nan _ => true
  | .inf _ | .fin .. => false

/-- The sign of a datum; a NaN has sign 0 (R35). -/
def Num.neg : Num → Bool
  | .nan _ => false
  | .inf n => n
  | .fin n _ _ => n

/-- Whether a datum is ±0. -/
def Num.isZero : Num → Bool
  | .fin _ m _ => m == 0
  | .nan _ | .inf _ => false

/-- The scale at which every finite value of the formats, and every product of two, is a whole number. -/
def fixScale : Nat := 320

/-- A finite value in units of 2^−320, exact for every datum of the formats and every product of two. -/
def Num.fix : Num → Int
  | .fin n m x => (if n then -1 else 1) * ((m * 2 ^ (x + fixScale).toNat : Nat) : Int)
  | .nan _ | .inf _ => 0

/-- A value in units of 2^−320 rounded; the sign of an exact zero is given. -/
def roundFix (f : Fmt) (mode : RMode) (ftz : Bool) (zeroNeg : Bool) (v : Int) : Nat × BitVec 6 :=
  if v = 0 then (f.zero zeroNeg, 0)
  else roundTo f mode ftz (v < 0) v.natAbs (-(fixScale : Int))

/-- The sign of an exactly zero sum of two values (IEEE 754, R34): theirs where they agree, − only in RDN otherwise. -/
def zeroSumNeg (mode : RMode) (a b : Bool) : Bool := if a == b then a else mode == .rdn

/-- a + b, rounded once (R35, R36). -/
def addNum (f : Fmt) (mode : RMode) (ftz : Bool) (a b : Num) : Nat × BitVec 6 :=
  match a, b with
  | .nan _, _ | _, .nan _ => (f.nan, nanFlags [a, b])
  | .inf x, .inf y => if x == y then (f.inf x, 0) else (f.nan, flagNV)
  | .inf x, _ => (f.inf x, 0)
  | _, .inf y => (f.inf y, 0)
  | .fin x .., .fin y .. => roundFix f mode ftz (zeroSumNeg mode x y) (a.fix + b.fix)

/-- The negative of a datum. -/
def Num.negate : Num → Num
  | .nan s => .nan s
  | .inf n => .inf (!n)
  | .fin n m x => .fin (!n) m x

/-- a × b, rounded once. -/
def mulNum (f : Fmt) (mode : RMode) (ftz : Bool) (a b : Num) : Nat × BitVec 6 :=
  match a, b with
  | .nan _, _ | _, .nan _ => (f.nan, nanFlags [a, b])
  | .inf x, .inf y => (f.inf (x != y), 0)
  | .inf x, .fin y m _ | .fin y m _, .inf x => if m = 0 then (f.nan, flagNV) else (f.inf (x != y), 0)
  | .fin x m e, .fin y n g => roundTo f mode ftz (x != y) (m * n) (e + g)

/-- a × b + c, rounded once (R35, R36). -/
def fmaNum (f : Fmt) (mode : RMode) (ftz : Bool) (a b c : Num) : Nat × BitVec 6 :=
  let bad := match a, b with
    | .inf _, .fin _ m _ | .fin _ m _, .inf _ => m == 0
    | _, _ => false
  if bad then (f.nan, flagNV)
  else if a.isNan || b.isNan || c.isNan then (f.nan, nanFlags [a, b, c])
  else
    match a, b, c with
    | .fin x m e, .fin y n g, .fin z .. =>
      roundFix f mode ftz (zeroSumNeg mode (x != y) z) ((Num.fin (x != y) (m * n) (e + g)).fix + c.fix)
    | .fin .., .fin .., .inf z => (f.inf z, 0)
    | _, _, .inf z => if (a.neg != b.neg) == z then (f.inf z, 0) else (f.nan, flagNV)
    | _, _, _ => (f.inf (a.neg != b.neg), 0)

/-- A datum rounded into another format (R36): narrowing rounds once, widening is exact. -/
def convertNum (f : Fmt) (mode : RMode) (ftz : Bool) (a : Num) : Nat × BitVec 6 :=
  match a with
  | .nan s => (f.nan, flagIf s flagNV)
  | .inf n => (f.inf n, 0)
  | .fin n m x => roundTo f mode ftz n m x

/-- A datum converted to an integer type's range (R37): the integer and the flags. -/
def toInt (mode : RMode) (lo hi : Int) (a : Num) : Int × BitVec 6 :=
  match a with
  | .nan _ => (0, flagNV)
  | .inf n => (if n then lo else hi, flagNV)
  | .fin n m x =>
    let (k, ex, _) := roundUnits mode n m x 0
    let v : Int := if n then -(k : Int) else k
    if hi < v then (hi, flagNV) else if v < lo then (lo, flagNV) else (v, flagIf (!ex) flagNX)

/-- A BF16 widened to FP32: exact; a NaN becomes the canonical NaN (R35, R36). -/
def widenBf16 (b : Nat) : Nat := (convertNum Fmt.f32 .rne false (unpack Fmt.bf16 b)).1

/-! ### BX blocks -/

/-- Magnitude bits M (R45). -/
def bxM : BX → Nat
  | .bx3 => 2
  | .bx5 => 4
  | .bx8 => 7

/-- Bytes of a block (R45). -/
def bxBytes : BX → Nat
  | .bx3 => 8
  | .bx5 => 12
  | .bx8 => 18

/-- Element i of a block given as a number (R46). Log 50: DEDUCED. -/
def bxElement (f : BX) (blk i : Nat) : Num :=
  let e := blk % 256
  let sg := blk / 2 ^ (8 + 2 * (i / 4)) % 4
  let w := bxM f + 1
  let mag := blk / 2 ^ (16 + w * i) % 2 ^ bxM f
  let s := blk / 2 ^ (16 + w * i + bxM f) % 2 == 1
  if e = 255 then .nan false else .fin s mag ((e : Int) - 127 - sg - (bxM f - 1 : Nat))

/-- The datum as FP32: exact (R46). -/
def numToF32 (a : Num) : Nat := (convertNum Fmt.f32 .rne false a).1

/-- floor(log2 |x|) of a non-zero finite datum. -/
def Num.top : Num → Int
  | .fin _ m x => (Nat.log2 m : Int) + x
  | .nan _ | .inf _ => 0

/-- The largest of a list of integers, none where it is empty. -/
def maxInt : List Int → Option Int
  | [] => none
  | x :: l => match maxInt l with
    | none => some x
    | some y => some (if x < y then y else x)

/-- An element of a BX block (R47): sign and magnitude in units of 2^q, and the flags that it raises. -/
def bxQuantise (f : BX) (q : Int) (a : Num) (mode : RMode) : Nat × BitVec 6 :=
  match a with
  | .fin n m y =>
    let (k, ex, _) := roundUnits mode n m y q
    let cap := 2 ^ bxM f - 1
    let mag := if cap < k then cap else k
    (boolNat n * 2 ^ bxM f + mag,
      flagIf (!ex) flagNX ||| flagIf (cap < k) (flagOF ||| flagNX) ||| flagIf (m != 0 && mag == 0) (flagUF ||| flagNX))
  | .nan _ | .inf _ => (0, 0)

/-- The exponent of the unit of a block's elements under a group's shift (R46). -/
def bxUnit (f : BX) (e sg : Nat) : Int := Int.ofNat e - 127 - Int.ofNat sg - Int.ofNat (bxM f - 1)

/-- The largest exponent among data, of those that are not zero. -/
def topExp (l : List Num) : Option Int := maxInt ((l.filter fun x => !x.isZero).map fun x => x.top)

/-- A BX block from 16 data and one rounding mode per element (R47): the block and the flags of each element (R161). -/
def bxEncode (f : BX) (xs : List (Num × RMode)) : Nat × List (BitVec 6) :=
  let finite (a : Num) : Bool := match a with
    | .fin .. => true
    | .nan _ | .inf _ => false
  if xs.any fun x => !finite x.1 then (255, xs.map fun x => flagIf (!finite x.1) flagNV)
  else
    let e : Nat := match topExp (xs.map (·.1)) with
      | none => 0
      | some t => if t + 127 < 0 then 0 else if 254 < t + 127 then 254 else (t + 127).toNat
    let sg (g : Nat) : Nat := match topExp (((xs.drop (4 * g)).take 4).map (·.1)) with
      | none => 0
      | some t => let d := Int.ofNat e - 127 - t; if 3 < d then 3 else d.toNat
    let head := e + 2 ^ 8 * sg 0 + 2 ^ 10 * sg 1 + 2 ^ 12 * sg 2 + 2 ^ 14 * sg 3
    let rs := xs.zipIdx.map fun y => bxQuantise f (bxUnit f e (sg (y.2 / 4))) y.1.1 y.1.2
    (rs.zipIdx.foldl (fun a (r, i) => a + r.1 * 2 ^ (16 + (bxM f + 1) * i)) head, rs.map (·.2))

end Sys2Proof.Machine
end

