-- ==== Sys2Proof/Machine/Memory.lean ====
section
/-! DEFINITION. Bytes at places: tile windows and their aliases (spec/18 R317–R319), HBM lines (spec/13 R268), poison marks
(spec/16 R303), and the panes that an access touches (R320, R322). -/

namespace Sys2Proof.Machine

/-- Who reads or writes, for the keys (R425, R426): a sequence, or firmware. -/
inductive Party
  | seq (q : SeqId)
  | firmware
  deriving DecidableEq, Repr

/-- The keys of a party on a die. -/
def State.keyFor (s : State) (p : Party) (d : DieId) : KeyView :=
  match p with
  | .seq q => s.keyOn q d
  | .firmware => firmwareKey

/-! ### HBM -/

/-- A physical address that holds HBM (R268). -/
def isHbm (pa : Nat) : Bool := pa / 2 ^ 40 == 0 && pa / 2 ^ 36 % 16 < 12 && pa % 2 ^ 36 < 64 * 10 ^ 9

/-- The package stack of an HBM address (R268). -/
def stackOf (pa : Nat) : StackId := ⟨pa / 2 ^ 36 % 12, by omega⟩

/-- The line index within the stack (R268). -/
def stackLine (pa : Nat) : Nat := pa % 2 ^ 36 / 64

/-- The memory port, numbered over the package (R22, R268). -/
def portOf (pa : Nat) : Fin 96 := ⟨(8 * (stackOf pa).val + stackLine pa / 16 % 8) % 96, by omega⟩

/-- The pseudo-channel within its port (R268). -/
def chanOf (pa : Nat) : Fin 48 := ⟨(16 * (stackLine pa / 128 % 3) + stackLine pa % 16) % 48, by omega⟩

/-- The pseudo-channel within its stack (R268). -/
def pseudoOf (pa : Nat) : Nat := 48 * (stackLine pa / 16 % 8) + (chanOf pa).val

/-! ### Windows -/

/-- The aliases of a tile window (R317). -/
inductive View
  | raw
  | widen
  | bx (f : BX)
  | reserved
  deriving DecidableEq, Repr

/-- The alias that a window offset lies in, and the offset within it (R317). -/
def windowView (off : Nat) : View × Nat :=
  if off < 0x80000 then (.raw, off)
  else if off < 0x180000 then (.widen, off - 0x80000)
  else if off < 0x240000 then (.bx .bx8, off - 0x180000)
  else if off < 0x300000 then (.bx .bx5, off - 0x240000)
  else if off < 0x3C0000 then (.bx .bx3, off - 0x300000)
  else (.reserved, off - 0x3C0000)

/-- First byte and length of the RAW bytes that n presented bytes at a window offset decode (R317, R318). -/
def rawSpan (off n : Nat) : Nat × Nat :=
  match windowView off with
  | (.raw, o) => (o, n)
  | (.widen, o) => (2 * (o / 4), 2 * ((o + n - 1) / 4 - o / 4 + 1))
  | (.bx f, o) => (bxBytes f * (o / 64), bxBytes f * ((o + n - 1) / 64 - o / 64 + 1))
  | (.reserved, _) => (0, 0)

/-- A pane by the RAW offset of a byte in it. -/
def paneNo (raw : Nat) : Fin 128 := ⟨raw / 4096 % 128, by omega⟩

/-- The panes that a span of RAW bytes touches. -/
def panesOfRaw (first len : Nat) : List (Fin 128) :=
  if len = 0 then []
  else ((List.range ((first + len - 1) / 4096 - first / 4096 + 1)).map fun i =>
    (⟨(first / 4096 + i) % 128, by omega⟩ : Fin 128))

/-- The panes that an access of n bytes at a window offset touches (R318). -/
def panesOf (off n : Nat) : List (Fin 128) := panesOfRaw (rawSpan off n).1 (rawSpan off n).2

/-- One byte of a tile's window as it is presented (R317, R318). -/
def State.windowByte (s : State) (p : Party) (t : TileId) (off : Nat) : Byte :=
  let key := s.keyFor p (dieOf t)
  match windowView off with
  | (.raw, o) => s.byteAs key (storeKey t o)
  | (.widen, o) =>
    BitVec.ofNat 8 (widenBf16 (leNat (s.bytesAs key (storeKey t (2 * (o / 4))) 2)) / 2 ^ (8 * (o % 4)))
  | (.bx f, o) =>
    let blk := leNat (s.bytesAs key (storeKey t (bxBytes f * (o / 64))) (bxBytes f))
    BitVec.ofNat 8 (numToF32 (bxElement f blk (o / 4 % 16)) / 2 ^ (8 * (o % 4)))
  | (.reserved, _) => 0

/-! ### Bytes at places -/

/-- The die under whose key a place's bytes are ciphered (R426). -/
def Place.die : Place → DieId
  | .hbm _ home => dieOf home
  | .win t _ => dieOf t

/-- The tile that serves a place: the home bank, or the tile whose store it is. -/
def Place.server : Place → TileId
  | .hbm _ home => home
  | .win t _ => t

/-- The place n bytes further. -/
def Place.plus (pl : Place) (n : Nat) : Place :=
  match pl with
  | .hbm pa home => .hbm (pa + n) home
  | .win t off => .win t (off + n)

/-- One byte at a place, as a party reads it. -/
def State.readByte (s : State) (p : Party) (pl : Place) : Byte :=
  match pl with
  | .hbm pa home => s.byteAs (s.keyFor p (dieOf home)) pa
  | .win t off => s.windowByte p t off

/-- n bytes at a place. -/
def State.readPlace (s : State) (p : Party) (pl : Place) : Nat → List Byte
  | 0 => []
  | n + 1 => s.readByte p pl :: s.readPlace p (pl.plus 1) n

/-- A little-endian number at a place (R2). -/
def State.readNum (s : State) (p : Party) (pl : Place) (n : Nat) : Nat := leNat (s.readPlace p pl n)

/-! ### Poison -/

/-- The granules that a span of bytes touches, as numbers address / 32. -/
def granules (first len : Nat) : List Nat :=
  if len = 0 then [] else (List.range ((first + len - 1) / 32 - first / 32 + 1)).map (first / 32 + ·)

/-- The granules that a span of bytes covers whole (R303). -/
def wholeGranules (first len : Nat) : List Nat :=
  (granules first len).filter fun g => decide (first ≤ 32 * g) && decide (32 * g + 32 ≤ first + len)

/-- The bank line of a physical address at its home, where it is resident (R276). -/
def State.bankLine (s : State) (pa : Nat) (home : TileId) : Option BankLine :=
  s.tiles[home].bank.find? fun l => l.line == pa / 64

/-- The tile whose near buffer holds a line (R136). -/
def State.nearHolder (s : State) (line : Nat) : Option TileId :=
  (List.finRange 1024).find? fun t => s.tiles[t].near.contains line

/-- The HBM lines that a span of bytes touches, with their home. -/
def Place.lines (pl : Place) (n : Nat) : List (Nat × TileId) :=
  match pl with
  | .hbm pa home => if n = 0 then [] else (List.range ((pa + n - 1) / 64 - pa / 64 + 1)).map fun i => (64 * (pa / 64 + i), home)
  | .win .. => []

/-- A line stands at its home (R276): resident in the bank and in no near buffer. One of an address without memory and one whose home is
in bypass need not. -/
def State.lineHere (s : State) (pa : Nat) (home : TileId) : Bool :=
  !isHbm pa || s.tiles[home].inReset || (s.bankLine pa home).isSome && (s.nearHolder (pa / 64)).isNone

/-- The lines of several spans that do not stand at their homes. -/
def State.absent (s : State) (l : List (Place × Nat)) : List (Nat × TileId) :=
  (l.flatMap fun x => x.1.lines x.2).filter fun y => !s.lineHere y.1 y.2

/-- A granule of HBM carries its poison mark (R303); an address that holds no memory reads as poisoned (R268). -/
def State.hbmBad (s : State) (home : TileId) (g : Nat) : Bool :=
  let pa := 32 * g
  !isHbm pa ||
  match s.bankLine pa home with
  | some l => if g % 2 == 0 then l.bad0 else l.bad1
  | none => s.hbmStacks[stackOf pa].bad.contains (pa % 2 ^ 36 / 32)

/-- Whether any granule that an access of n bytes needs carries a poison mark (R303, R318). -/
def State.placeBad (s : State) (pl : Place) (n : Nat) : Bool :=
  match pl with
  | .hbm pa home => (granules pa n).any (s.hbmBad home)
  | .win t off => (granules (rawSpan off n).1 (rawSpan off n).2).any s.tiles[t].storeBad.contains

/-- Poison marks set or cleared on granules of a tile store. -/
def State.markStore (s : State) (t : TileId) (gs : List Nat) (bad : Bool) : State :=
  s.modTile t fun x => { x with storeBad :=
    if bad then gs ++ x.storeBad.filter (fun g => !gs.contains g) else x.storeBad.filter (fun g => !gs.contains g) }

/-- A bank line changed. -/
def State.modBankLine (s : State) (pa : Nat) (home : TileId) (f : BankLine → BankLine) : State :=
  s.modTile home fun x => { x with bank := x.bank.map fun l => if l.line == pa / 64 then f l else l }

/-- Poison mark of one granule of HBM set or cleared: in the home bank where the line is resident, in the stack otherwise
(R230, R303). -/
def State.markHbm (s : State) (home : TileId) (g : Nat) (bad : Bool) : State :=
  let pa := 32 * g
  match s.bankLine pa home with
  | some _ => s.modBankLine pa home fun l => if g % 2 == 0 then { l with bad0 := bad } else { l with bad1 := bad }
  | none =>
    let k := stackOf pa
    let n := pa % 2 ^ 36 / 32
    { s with hbmStacks := s.hbmStacks.set k { s.hbmStacks[k] with
      bad := if bad then n :: s.hbmStacks[k].bad.filter (· != n) else s.hbmStacks[k].bad.filter (· != n) } }

/-- The granules that a span of a place touches, in the numbering of the list of errors. -/
def Place.granules (pl : Place) (n : Nat) : List Nat :=
  match pl with
  | .hbm pa _ => Machine.granules pa n
  | .win t off => Machine.granules (storeKey t (rawSpan off n).1) (rawSpan off n).2

/-- The sparing of a pseudo-channel starts (R309): its lines are copied to a spare; with no spare left it is fenced. -/
def Stack.startCopy (k : Stack) (pc : Nat) : Stack :=
  if k.copying.contains pc || k.fenced.contains pc then k
  else if k.spares = 0 then { k with fenced := k.fenced ++ [pc] }
  else { k with copying := k.copying ++ [pc], spares := k.spares - 1 }

/-- A correctable error counted (R303, R309): at the tile whose SRAM held it, or for the pseudo-channel. -/
def State.countError (s : State) (pl : Place) : State :=
  let tile (t : TileId) : State := s.modTile t fun x => { x with syndromes := x.syndromes + 1 }
  match pl with
  | .win t _ => tile t
  | .hbm pa home =>
    if (s.bankLine pa home).isSome then tile home
    else
      let k := s.hbmStacks[stackOf pa]
      let old := ((k.counts.find? fun x => x.1 == pseudoOf pa).map (·.2)).getD (0, 0)
      let rest := k.counts.filter fun x => x.1 != pseudoOf pa
      let k1 : Stack := { k with counts := (pseudoOf pa, old.1 + 1, old.2) :: rest }
      { s with hbmStacks := s.hbmStacks.set (stackOf pa) (if 256 ≤ old.1 + 1 then k1.startCopy (pseudoOf pa) else k1) }

/-- A read of a span corrects the single-bit errors that it meets, writes the granules back and counts them (R303).
Log 41: DESIGN CHOICE. -/
def State.correct (s : State) (pl : Place) (n : Nat) : State :=
  let gs := pl.granules n
  let met := s.flips.filter fun f => gs.contains f.1
  met.foldl (fun a _ => a.countError pl) { s with flips := s.flips.filter fun f => !gs.contains f.1 }

/-- A write of a span: a granule that it covers whole gets new check bits, another is read and corrected first (R303). -/
def State.overwritten (s : State) (pl : Place) (n : Nat) : State :=
  let whole := match pl with
    | .hbm pa _ => wholeGranules pa n
    | .win t off => wholeGranules (storeKey t off) n
  ({ s with flips := s.flips.filter fun f => !whole.contains f.1 }).correct pl n

/-- Bytes written at a place by a party: the bytes, the line dirty in its bank (R276), marks of whole granules cleared
(R303). A window is written through its RAW alias only (R318). -/
def State.writePlace (s : State) (p : Party) (pl : Place) (bs : List Byte) : State :=
  let s := s.overwritten pl bs.length
  match pl with
  | .hbm pa home =>
    let s1 := s.setBytes (s.keyFor p (dieOf home)) pa bs
    let s2 := s1.modBankLine pa home fun l => { l with dirty := true }
    (wholeGranules pa bs.length).foldl (fun a g => a.markHbm home g false) s2
  | .win t off =>
    let s1 := s.setBytes (s.keyFor p (dieOf t)) (storeKey t off) bs
    s1.markStore t (wholeGranules off bs.length) false

/-- A number written at a place, least significant byte first. -/
def State.writeNum (s : State) (p : Party) (pl : Place) (n x : Nat) : State := s.writePlace p pl (leBytes n x)

/-! ### Panes -/

/-- In engine use (R60). -/
def Pane.inUse (p : Pane) : Bool := p.busy != 0 || p.staged != 0 || p.handed

/-- The first verdict unless it passes. -/
def Verdict.andThen (a : Verdict) (b : Verdict) : Verdict :=
  match a with
  | .pass => b
  | .trap c v => .trap c v
  | .stall => .stall
  | .wait => .wait
  | .miss c v t => .miss c v t

/-- The place of a cause in the order of R99; what is not listed there comes after. -/
def Cause.order : Cause → Nat
  | .illegalOp => 0
  | .priv => 1
  | .misalign => 2
  | .xlateS1 | .xlateS2 => 3
  | .xlateDenied => 4
  | .permission => 5
  | .keyVoid => 6
  | .poison | .checkStall | .paneViolation | .commitOverflow | .runaway | .circuit | .fp | .trapWord | .breakpoint => 7

/-- The place of a verdict in that order; a walk that is still needed stands with the faults that it may end in. -/
def Verdict.order : Verdict → Nat
  | .trap c _ => c.order
  | .miss .. => 3
  | .stall => 8
  | .wait => 9
  | .pass => 10

/-- The verdict of several checks of one word: the cause that stands first in R99, the earlier check where they stand alike. -/
def Verdict.sooner (a b : Verdict) : Verdict := if b.order < a.order then b else a

/-- The severity by which the worst pane is chosen (R322). -/
def Verdict.rank : Verdict → Nat
  | .pass => 0
  | .wait => 1
  | .stall => 2
  | .miss .. => 3
  | .trap .. => 4

/-- The worse of two verdicts, the first where they rank alike. -/
def Verdict.worse (a b : Verdict) : Verdict := if a.rank < b.rank then b else a

/-- One pane under a core access (R322); `store` for stores, atomics, barrier and pane words. -/
def paneVerdict (p : Pane) (n : Fin 128) (store : Bool) : Verdict :=
  if p.engine then
    (if p.ring then .trap .paneViolation (BitVec.ofNat 64 n.val)
     else if p.inUse then .stall
     else .trap .paneViolation (BitVec.ofNat 64 n.val))
  else if store && p.staged != 0 then .stall
  else .pass

/-- The tag check of R320: whether a tenant of a sequence may touch a pane. -/
def Pane.allows (p : Pane) (q : SeqId) : Bool := p.seq == some q && !p.system

/-- The tags of the own tile's panes under a core access (R320): firmware is no tenant. -/
def panesTagged (x : Tile) (q : SeqId) (mon : Bool) (ps : List (Fin 128)) (va : W) : Verdict :=
  if mon || ps.all fun n => x.panes[n].allows q then .pass else .trap .permission va

/-- The states of the own tile's panes under a core access: the worst pane decides (R322). -/
def panesState (x : Tile) (ps : List (Fin 128)) (store : Bool) : Verdict :=
  ps.foldl (fun a n => a.worse (paneVerdict x.panes[n] n store)) .pass

/-- A tile's pane changed. -/
def State.modPane (s : State) (t : TileId) (n : Fin 128) (f : Pane → Pane) : State :=
  s.modTile t fun x => { x with panes := x.panes.set n (f x.panes[n]) }

end Sys2Proof.Machine
end

