-- ==== Sys2Proof/Machine/Translate.lean ====
section
/-! DEFINITION. Address translation (spec/25 R398–R407): placement, the two-stage walk, and the look-up and checks of an
access through a TLB. -/

namespace Sys2Proof.Machine

/-! ### Placement -/

/-- The blocks that SPREAD uses on a tile (R405): PLACEMASK within the partition, the partition's blocks where that is
empty. -/
def State.spreadBlocks (s : State) (p : PartId) (t : TileId) : BitVec 64 :=
  match s.parts[p] with
  | none => 0
  | some x => let b := x.blocks &&& s.tiles[t].placemask; if b = 0 then x.blocks else b

/-- The logical tiles of a set of blocks, ascending (R404). -/
def tilesOf (blocks : BitVec 64) : List TileId :=
  (List.finRange 1024).filter fun t => blocks.getLsbD (blockOf t)

/-- The home of the line at a physical address under SPREAD (R404). -/
def spreadHome (tiles : List TileId) (pa : Nat) : TileId :=
  let l := pa / 64
  let h := ((l % 2 ^ 16).xor (l / 2 ^ 16 % 2 ^ 16)).xor ((l / 2 ^ 32 % 2 ^ 16).xor (l / 2 ^ 48 % 4))
  tiles.getD (h % tiles.length) 0

/-- A tile lies in a partition. -/
def State.inPart (s : State) (p : PartId) (t : TileId) : Bool :=
  match s.parts[p] with
  | none => false
  | some x => x.blocks.getLsbD (blockOf t)

/-! ### Walks -/

/-- The bits of a page offset by SIZE (R398). -/
def pageBits (z : Fin 4) : Nat :=
  match z with
  | 0 => 12
  | 1 => 16
  | 2 => 21
  | 3 => 30

/-- The smaller page size. -/
def minSize (a b : Fin 4) : Fin 4 := if a.val ≤ b.val then a else b

/-- Whether a leaf of a SIZE may stand at a level (R398). -/
def sizeAtLevel (z : Fin 4) (lvl : Nat) : Bool :=
  match z with
  | 3 => lvl == 1
  | 2 => lvl == 2
  | 0 | 1 => lvl == 3

/-- What a walk ends in (R400, R402, R304). A stage-2 miss carries the missing range (R412). -/
inductive WalkEnd
  | done (e : TlbEntry)
  | touch (leaf : Place) (old : W)
  | fault (c : Cause)
  | missing (ipa : Nat) (size : Fin 4) (table : Bool)
  | poisoned
  deriving DecidableEq, Repr

/-- What stage 2 answers for an IPA (R400). -/
inductive Stage2
  | page (pa : Nat) (size : Fin 4) (perm : BitVec 3)
  | fault (c : Cause)
  | poisoned
  deriving DecidableEq, Repr

/-- The X W R bits of an entry, X in bit 2 (R399). -/
def permOf (e : Nat) : BitVec 3 := BitVec.ofNat 3 (e / 4)

/-- A stage-2 entry at a level that R401 refuses. -/
def badStage2 (e lvl : Nat) : Bool :=
  let z : Fin 4 := ⟨e / 32 % 4, by omega⟩
  if e / 2 % 2 = 0 then lvl == 3
  else lvl == 0 || !sizeAtLevel z lvl || (e / 4096 % 2 ^ 44 * 4096) % 2 ^ pageBits z != 0

/-- The stage-2 walk from a table at a level, with levels left (R398, R400). -/
def State.stage2From (s : State) (tiles : List TileId) (ipa table lvl : Nat) : Nat → Stage2
  | 0 => .fault .xlateDenied
  | n + 1 =>
    let pa := table + 8 * (ipa / 2 ^ (39 - 9 * lvl) % 512)
    let pl := Place.hbm pa (spreadHome tiles pa)
    if s.placeBad pl 8 then .poisoned
    else
      let e := s.readNum .firmware pl 8
      if e % 2 = 0 then .fault .xlateS2
      else if badStage2 e lvl then .fault .xlateDenied
      else if e / 2 % 2 = 0 then s.stage2From tiles ipa (e / 4096 % 2 ^ 44 * 4096) (lvl + 1) n
      else
        let z : Fin 4 := ⟨e / 32 % 4, by omega⟩
        .page (e / 4096 % 2 ^ 44 * 4096 + ipa % 2 ^ pageBits z) z (permOf e)

/-- The stage-2 walk of an IPA of a partition. -/
def State.stage2 (s : State) (p : PartId) (t : TileId) (ipa : Nat) : Stage2 :=
  match s.parts[p] with
  | none => .fault .xlateS2
  | some x => s.stage2From (tilesOf (s.spreadBlocks p t)) ipa x.s2root 0 4

/-- A stage-1 entry at a level that R401 refuses. -/
def State.badStage1 (s : State) (p : PartId) (e lvl : Nat) : Bool :=
  let z : Fin 4 := ⟨e / 32 % 4, by omega⟩
  let kind := e / 512 % 8
  let place := e / 128 % 4
  if e / 2 % 2 = 0 then lvl == 3
  else
    lvl == 0 || !sizeAtLevel z lvl || 1 < kind || (kind == 1 && !(lvl == 1 && z == 3)) ||
    (kind == 0 && (e / 4096 % 2 ^ 36 * 4096) % 2 ^ pageBits z != 0) || place == 3 ||
    (place == 1 && !s.inPart p ⟨e / 2 ^ 48 % 1024, by omega⟩)

/-- The bits of the VA that index a stage-1 level (R398). -/
def stage1Index (va lvl : Nat) : Nat :=
  if lvl = 0 then va / 2 ^ 39 % 2 ^ 17 else va / 2 ^ (39 - 9 * lvl) % 512

/-- The key slot of a sequence on a die, 0 where it holds none (R406). -/
def State.slotOn (s : State) (q : SeqId) (d : DieId) : Fin 512 :=
  match s.seqs[q] with
  | none => 0
  | some x => x.slots[d].getD 0

/-- The end of a walk at a valid leaf, which stands in a page of some stage-2 permissions (R400, R403, R404): one with PLACE = TOUCH is
written first, for which its page needs W. Log 120: DEDUCED. -/
def State.walkLeaf (s : State) (q : SeqId) (t : TileId) (va e : Nat) (leaf : Place) (own : BitVec 3) : WalkEnd :=
  let z : Fin 4 := ⟨e / 32 % 4, by omega⟩
  let slot := s.slotOn q (dieOf t)
  if e / 512 % 8 = 1 then
    .done { seq := q, page := va / 2 ^ 30, size := 3, window := some ⟨e / 4096 % 4, by omega⟩, frame := 0,
            perm1 := permOf e, perm2 := 7, pin := none, ipa := 0, slot := slot }
  else if e / 128 % 4 = 2 then (if own.getLsbD 1 then .touch leaf (BitVec.ofNat 64 e) else .fault .xlateDenied)
  else
    let frame := e / 4096 % 2 ^ 36 * 4096
    match s.stage2 (partOf q) t (frame + va % 2 ^ pageBits z) with
    | .poisoned => .poisoned
    | .fault c => if c = .xlateS2 then .missing frame z false else .fault c
    | .page pa z2 perm =>
      let z' := minSize z z2
      .done { seq := q, page := va / 2 ^ pageBits z', size := z', window := none,
              frame := pa - pa % 2 ^ pageBits z', perm1 := permOf e, perm2 := perm,
              pin := if e / 128 % 4 = 1 then some ⟨e / 2 ^ 48 % 1024, by omega⟩ else none,
              ipa := frame + va % 2 ^ pageBits z, slot := slot }

/-- The stage-1 walk from a table's IPA at a level (R400). -/
def State.walkFrom (s : State) (q : SeqId) (t : TileId) (va table lvl : Nat) : Nat → WalkEnd
  | 0 => .fault .xlateS1
  | n + 1 =>
    let ipa := table + 8 * stage1Index va lvl
    match s.stage2 (partOf q) t ipa with
    | .poisoned => .poisoned
    | .fault c => if c = .xlateS2 then .missing (ipa - ipa % 4096) 0 true else .fault c
    | .page pa _ perm =>
      if !perm.getLsbD 0 then .fault .xlateDenied
      else
        let pl := Place.hbm pa (spreadHome (tilesOf (s.spreadBlocks (partOf q) t)) pa)
        if s.placeBad pl 8 then .poisoned
        else
          let e := s.readNum (.seq q) pl 8
          if e % 2 = 0 || s.badStage1 (partOf q) e lvl then .fault .xlateS1
          else if e / 2 % 2 = 0 then s.walkFrom q t va (e / 4096 % 2 ^ 36 * 4096) (lvl + 1) n
          else s.walkLeaf q t va e pl perm

/-- A walk of an address of a sequence for a tile (R400). -/
def State.walk (s : State) (q : SeqId) (t : TileId) (va : W) : WalkEnd :=
  match s.seqs[q] with
  | none => .fault .xlateS1
  | some x => s.walkFrom q t va.toNat (x.s1root.toNat % 2 ^ 48) 0 4

/-! ### The table entries that a walk reads

Each is read at the home of its line (R400), so that the line stands there first (R276). -/

/-- The entries that a stage-2 walk reads from a table at a level. -/
def State.stage2Entries (s : State) (tiles : List TileId) (ipa table lvl : Nat) : Nat → List Place
  | 0 => []
  | n + 1 =>
    let pa := table + 8 * (ipa / 2 ^ (39 - 9 * lvl) % 512)
    let pl := Place.hbm pa (spreadHome tiles pa)
    let e := s.readNum .firmware pl 8
    if s.placeBad pl 8 || e % 2 = 0 || badStage2 e lvl || e / 2 % 2 = 1 then [pl]
    else pl :: s.stage2Entries tiles ipa (e / 4096 % 2 ^ 44 * 4096) (lvl + 1) n

/-- The entries that the stage-2 walk of an IPA reads. -/
def State.ipaEntries (s : State) (p : PartId) (t : TileId) (ipa : Nat) : List Place :=
  match s.parts[p] with
  | none => []
  | some x => s.stage2Entries (tilesOf (s.spreadBlocks p t)) ipa x.s2root 0 4

/-- The entries that the stage-1 walk reads from a table's IPA at a level, those of stage 2 among them. -/
def State.entriesFrom (s : State) (q : SeqId) (t : TileId) (va table lvl : Nat) : Nat → List Place
  | 0 => []
  | n + 1 =>
    let ipa := table + 8 * stage1Index va lvl
    let below := s.ipaEntries (partOf q) t ipa
    match s.stage2 (partOf q) t ipa with
    | .poisoned | .fault _ => below
    | .page pa _ perm =>
      if !perm.getLsbD 0 then below
      else
        let pl := Place.hbm pa (spreadHome (tilesOf (s.spreadBlocks (partOf q) t)) pa)
        let e := s.readNum (.seq q) pl 8
        let z : Fin 4 := ⟨e / 32 % 4, by omega⟩
        if s.placeBad pl 8 || e % 2 = 0 || s.badStage1 (partOf q) e lvl then below ++ [pl]
        else if e / 2 % 2 = 0 then below ++ pl :: s.entriesFrom q t va (e / 4096 % 2 ^ 36 * 4096) (lvl + 1) n
        else if e / 512 % 8 = 1 || e / 128 % 4 = 2 then below ++ [pl]
        else below ++ pl :: s.ipaEntries (partOf q) t (e / 4096 % 2 ^ 36 * 4096 + va % 2 ^ pageBits z)

/-- The entries that a walk of an address of a sequence for a tile reads, as the spans of accesses. Log 119: DESIGN CHOICE. -/
def State.walkSpans (s : State) (q : SeqId) (t : TileId) (va : W) : List (Place × Nat) :=
  match s.seqs[q] with
  | none => []
  | some x => (s.entriesFrom q t va.toNat (x.s1root.toNat % 2 ^ 48) 0 4).map fun pl => (pl, 8)

/-! ### Accesses through a TLB -/

/-- The entry covers an address of a sequence (R407). -/
def TlbEntry.covers (e : TlbEntry) (q : SeqId) (va : W) : Bool :=
  e.seq == q && e.page == va.toNat / 2 ^ pageBits e.size

/-- The place that an entry gives for an address (R400, R403, R404). -/
def State.placeOf (s : State) (t : TileId) (e : TlbEntry) (va : W) : Place :=
  match e.window with
  | some qr => .win ⟨(256 * qr.val + va.toNat / 2 ^ 22 % 256) % 1024, by omega⟩ (va.toNat % 2 ^ 22)
  | none =>
    let pa := e.frame + va.toNat % 2 ^ pageBits e.size
    .hbm pa (match e.pin with
      | some h => h
      | none => spreadHome (tilesOf (s.spreadBlocks (partOf e.seq) t)) pa)

/-- The permission bits that an access needs, X W R (R402). -/
def Access.needs : Access → BitVec 3
  | .read => 1
  | .write => 2
  | .atomic => 3
  | .fetch => 4

/-- The partition has a budget on the pseudo-channel of a frame (R271). -/
def State.budgeted (s : State) (p : PartId) (pl : Place) : Bool :=
  match pl, s.parts[p] with
  | .hbm pa _, some x => x.membud[stackOf pa] != 0
  | .hbm .., none => false
  | .win .., _ => true

/-- What translating an access answers. -/
inductive Xlat
  | at_ (pl : Place) (e : TlbEntry)
  | fault (c : Cause)
  | miss
  deriving DecidableEq, Repr

/-- The checks of a translated access but for its key slot, in the order of R99 (R127, R271, R317, R402, R403). -/
def State.checkOpen (s : State) (t : TileId) (q : SeqId) (acc : Access) (e : TlbEntry) (va : W) : Xlat :=
  let pl := s.placeOf t e va
  let need := acc.needs
  if e.perm2 &&& need ≠ need || !s.budgeted (partOf q) pl then .fault .xlateDenied
  else if e.perm1 &&& need ≠ need then .fault .permission
  else
    let bad := match pl with
      | .win w off =>
        !s.inPart (partOf q) w || (windowView off).1 == View.reserved ||
        ((acc == Access.write || acc == Access.atomic) && (windowView off).1 != View.raw)
      | .hbm .. => false
    if bad then .fault .permission else .at_ pl e

/-- The key slot of a TLB entry on a tile is void (R127, R406). -/
def State.entryVoid (s : State) (t : TileId) (e : TlbEntry) : Bool := s.dies[dieOf t].keys[e.slot].state == KeyState.void

/-- What a translation answers once its key slot is looked at too (R99, R127, R406). -/
def State.keyed? (s : State) (t : TileId) (x : Xlat) : Xlat :=
  match x with
  | .at_ pl e => if s.entryVoid t e then .fault .keyVoid else .at_ pl e
  | .fault c => .fault c
  | .miss => .miss

/-- The checks of a translated access, in the order of R99 (R127, R271, R317, R402, R403, R406). -/
def State.checkEntry (s : State) (t : TileId) (q : SeqId) (acc : Access) (e : TlbEntry) (va : W) : Xlat :=
  s.keyed? t (s.checkOpen t q acc e va)

/-- An access of a sequence on a tile through a list of entries (R124, R407), its key slot not looked at. -/
def State.xlateOpen (s : State) (tlb : List TlbEntry) (t : TileId) (q : SeqId) (acc : Access) (va : W) : Xlat :=
  if 2 ^ 56 ≤ va.toNat then .fault .xlateS1
  else match tlb.find? fun e => e.covers q va with
    | some e => s.checkOpen t q acc e va
    | none => .miss

/-- An access of a sequence on a tile through a list of entries (R124, R407). -/
def State.xlate (s : State) (tlb : List TlbEntry) (t : TileId) (q : SeqId) (acc : Access) (va : W) : Xlat :=
  s.keyed? t (s.xlateOpen tlb t q acc va)

/-- What hardware that holds no TLB entry of its own (homes of nodes, the Meridian, the host port's agent) finds for an
address: a walk, and the access's checks. -/
def State.xlateWalk (s : State) (t : TileId) (q : SeqId) (acc : Access) (va : W) : Xlat :=
  if 2 ^ 56 ≤ va.toNat then .fault .xlateS1
  else match s.walk q t va with
    | .done e => s.checkEntry t q acc e va
    | .touch .. => .miss
    | .fault c => .fault c
    | .missing .. => .fault .xlateS2
    | .poisoned => .fault .poison

/-- The place of an address for such hardware, none where it has none. -/
def State.placeFor (s : State) (t : TileId) (q : SeqId) (acc : Access) (va : W) : Option Place :=
  match s.xlateWalk t q acc va with
  | .at_ pl _ => some pl
  | .fault _ | .miss => none

end Sys2Proof.Machine
end

