-- ==== Sys2Proof/Machine/Frame.lean ====
section
/-! DEFINITION. The context frame of a thread (spec/23 R387–R390): the bytes that a save writes and what a restore takes from
them. -/

namespace Sys2Proof.Machine

/-! ### Words -/

/-- The 64-bit words of a vector register, lowest first. -/
def vWords (x : V) : List W := (List.range 16).map fun i => x.extractLsb' (64 * i) 64

/-- The two words of a mask. -/
def kWords (x : K) : List W := [x.extractLsb' 0 64, x.extractLsb' 64 64]

/-- A list cut or filled with zero words to a length. -/
def fitWords : Nat → List W → List W
  | 0, _ => []
  | n + 1, [] => 0 :: fitWords n []
  | n + 1, x :: l => x :: fitWords n l

/-- Bits set where a destination of a file is outstanding (R387). -/
def pendingBits (c : Ctx) (pick : Dest → Option Nat) : Nat :=
  ((c.pends.flatMap fun p => [p.dest, p.dest2]).filterMap pick).foldl (fun a n => a ||| 2 ^ n) 0

/-- A scalar register's number. -/
def Dest.gNum : Dest → Option Nat
  | .g r => some r.val
  | .none | .v _ | .k _ | .cr _ => Option.none

/-- A vector register's number, or 32 more than a mask register's. -/
def Dest.vkNum : Dest → Option Nat
  | .v r => some r.val
  | .k r => some (32 + r.val)
  | .none | .g _ | .cr _ => Option.none

/-! ### Parts of the frame -/

/-- The batch state (R387). -/
def batchWord (c : Ctx) : W :=
  let oldest := (c.batches.filter (·.sealed)).foldl (fun a b => if b.num.toNat < a then b.num.toNat else a) c.batchnow.toNat
  let open_ := ((c.batches.filter fun b => !b.sealed).map (·.members)).foldl (· + ·) 0
  let bits (p : Batch → Bool) := (c.batches.filter fun b => b.sealed && p b).foldl
    (fun a b => a ||| 2 ^ (b.num.toNat - oldest)) 0
  BitVec.ofNat 64 (open_ % 2 ^ 16 * 2 ^ 48 + bits (fun b => b.fault.isSome && !b.reported) % 2 ^ 16 * 2 ^ 32 +
    bits (fun b => b.members != 0) % 2 ^ 16 * 2 ^ 16 + oldest % 2 ^ 16)

/-- A loop entry (R387). -/
def loopWords : Option LoopEntry → List W
  | some e => [e.start, e.stop, BitVec.ofNat 64 e.left, 1]
  | none => [0, 0, 0, 0]

/-- A loop entry read back. -/
def loopOfWords : List W → Option LoopEntry
  | [a, b, n, v] => if v.getLsbD 0 then some { start := a, stop := b, left := n.toNat } else none
  | _ => none

/-- The replay record (R387). -/
def replayWords : Option Replay → List W
  | some r => fitWords 48 ([BitVec.ofNat 64 ((encodeInstr r.word).getD 0), r.ga, r.gb, 3] ++ vWords r.data ++ vWords r.index ++
      kWords r.mask ++ kWords r.done)
  | none => fitWords 48 []

/-- Residue entries and their vector values (R389); `at_` is the clock from which offsets count. -/
def residueWords (at_ : Nat) : Nat → List Landing → List W × List W
  | _, [] => ([], [])
  | vi, l :: ls =>
    let isV := match l.dest with
      | .v _ => l.fault.isNone
      | .none | .g _ | .k _ | .cr _ => false
    let ctl := 2 ^ 20 + (if isV then vi * 2 ^ 18 + 2 ^ 17 else 0) + boolNat l.fault.isSome * 2 ^ 16 +
      l.flags.toNat * 2 ^ 10 + (l.due - at_) % 4 * 2 ^ 8 + l.dest.code.toNat
    let rest := residueWords at_ (if isV then vi + 1 else vi) ls
    let value : W := l.fault.getD (if isV then 0 else l.val.setWidth 64)
    let high : W := if isV || l.fault.isSome then 0 else l.val.extractLsb' 64 64
    ([value, high, l.ba, BitVec.ofNat 64 ctl] ++ rest.1, (if isV then vWords l.val else []) ++ rest.2)

/-- The frame word (R388). -/
def frameWord (entry : Nat) (q : SeqId) (accs mapped : Bool) (st pri eff : Nat) : W :=
  BitVec.ofNat 64 (entry % 256 * 2 ^ 24 + (seqNo q).val * 2 ^ 20 + (partOf q).val * 2 ^ 16 + boolNat accs * 2 ^ 7 +
    boolNat mapped * 2 ^ 6 + st * 2 ^ 4 + pri * 4 + eff)

/-- The context area (R387): 1,024 words. -/
def Ctx.frameWords (c : Ctx) (head : W) (waitcyc : Nat) : List W :=
  let res := residueWords c.clock 0 c.inflight
  let trap := residueWords 0 0 c.trapRes
  let get (l : List LoopEntry) (n : Nat) := loopWords l[n]?
  fitWords 8 [head, BitVec.ofNat 64 waitcyc] ++
  [c.pc, c.chkctl, c.fpctl, c.fpflags, c.lfsr.setWidth 64, c.trap.cause, c.trap.pc, c.trap.val] ++ kWords c.trap.mask ++
  [c.mode, c.batchnow, BitVec.ofNat 64 (boolNat c.event), batchWord c,
   BitVec.ofNat 64 (pendingBits c Dest.gNum), BitVec.ofNat 64 (pendingBits c Dest.vkNum)] ++ fitWords 8 [] ++
  get c.loops 0 ++ get c.loops 1 ++ get c.aside 0 ++ get c.aside 1 ++ replayWords (c.replay.or c.replayAside) ++
  fitWords 64 res.1 ++ fitWords 64 trap.1 ++ fitWords 48 res.2 ++ fitWords 48 trap.2 ++
  ((List.finRange 64).map fun r => c.g r) ++ (List.finRange 8).flatMap (fun r => kWords (c.k r)) ++ fitWords 112 [] ++
  (List.finRange 32).flatMap fun r => vWords (c.v r)

/-- The state of the stochastic generator that a written word gives (R43). -/
def lfsrState (x : W) : BitVec 32 := if x.setWidth 32 = (0 : BitVec 32) then 1 else x.setWidth 32

/-- Several words as one number, lowest first. -/
def wordsNat : List W → Nat
  | [] => 0
  | x :: l => x.toNat + 2 ^ 64 * wordsNat l

/-- What a restore takes from the frame (R224, R387, R391): the registers, the control registers that software may write, the
event bit, the loop entries and the resume address; reserved bits are not acted on and read as zero (R7). STRANDMODE and
BATCHNOW, which no software writes (R71, R72), the residues, the replay record, the batches and the pending results stand as
the hardware recorded them. -/
def Ctx.loadFrame (c : Ctx) (ws : List W) : Ctx :=
  let w (o : Nat) : W := ws.getD (o / 8) 0
  let some_ (a b : Option LoopEntry) : List LoopEntry := a.toList ++ b.toList
  let loop (n : Nat) := loopOfWords ((ws.drop (32 + 4 * n)).take 4)
  { c with
    pc := w 0x40, chkctl := w 0x48 &&& 3, fpctl := w 0x50 &&& 0x1F07, fpflags := w 0x58 &&& 0x3F, lfsr := lfsrState (w 0x60),
    trap := { cause := w 0x68 &&& 0xFF, pc := w 0x70 &&& 0xFFFFFFFFFFFFFFFC, val := w 0x78, mask := w 0x88 ++ w 0x80 },
    event := (w 0xA0).getLsbD 0,
    loops := some_ (loop 0) (loop 1), aside := some_ (loop 2) (loop 3),
    regs := { g := Vector.ofFn fun r => if r.val = 0 then 0 else w (0xA00 + 8 * r.val),
              k := Vector.ofFn fun r => if r.val = 0 then 0 else w (0xC08 + 16 * r.val) ++ w (0xC00 + 16 * r.val),
              v := Vector.ofFn fun r => BitVec.ofNat 1024 (wordsNat ((ws.drop (512 + 16 * r.val)).take 16)) } }

/-! ### Frames in memory -/

/-- The place of a frame, homed in its tile's bank (R379). -/
def framePlace (t : TileId) (p : Page) : Place := .hbm p.pa t

/-- Words read at a place by a sequence. -/
def State.readWords (s : State) (q : SeqId) (pl : Place) : Nat → List W
  | 0 => []
  | n + 1 => BitVec.ofNat 64 (s.readNum (.seq q) pl 8) :: s.readWords q (pl.plus 8) n

/-- The bytes of words. -/
def wordsBytes (ws : List W) : List Byte := ws.flatMap fun w => leBytes 8 w.toNat

/-- Effective priority (R382): the base plus one for each full 65,536 ready cycles, at most 3. -/
def effPri (base : Fin 4) (ready : Nat) : Fin 4 :=
  ⟨if base.val + ready / 65536 < 3 then base.val + ready / 65536 else 3, by split <;> omega⟩

/-- STATE of the frame word (R388). -/
def ThreadState.code : ThreadState → Nat
  | .resident _ | .saved => 1
  | .parked => 2
  | .sleep => 3

/-- A thread's frame written from its context (R387). Log 18: DEDUCED. -/
def State.writeFrame (s : State) (t : TileId) (th : Thread) (c : Ctx) : State :=
  let head := frameWord th.entryIx th.seq th.accs th.mapped th.state.code th.pri.val (effPri th.pri th.ready).val
  s.writePlace (.seq th.seq) (framePlace t th.frame) (wordsBytes (c.frameWords head th.ready))

/-- A thread's context as its frame holds it. Log 18: DEDUCED. -/
def State.readFrame (s : State) (t : TileId) (th : Thread) (c : Ctx) : Ctx :=
  c.loadFrame (s.readWords th.seq (framePlace t th.frame) 1024)

/-! ### The accumulator area -/

/-- The words of elements, two to a word. -/
def pairWords : List F32 → List W
  | a :: b :: l => (b ++ a : BitVec 64) :: pairWords l
  | [a] => [a.setWidth 64]
  | [] => []

/-- The pieces of an accumulator's block with their offsets (R390); its reserved bytes are written as zero (R7). -/
def AccPair.pieces (a : AccPair) : List (Nat × List W) :=
  [(0x0000, pairWords a.work.m.toList), (0x1000, pairWords a.vis.m.toList),
   (0x2000, pairWords (a.work.sr.toList ++ a.work.sc.toList ++ a.work.ar.toList ++ a.work.ac.toList)),
   (0x2200, pairWords (a.vis.sr.toList ++ a.vis.sc.toList ++ a.vis.ar.toList ++ a.vis.ac.toList)),
   (0x2400, BitVec.ofNat 64 (boolNat a.vis.ck * 2 + boolNat a.work.ck) :: List.replicate 895 0)]

/-- The accumulators written to a frame (R390). -/
def State.writeAccs (s : State) (q : SeqId) (pl : Place) (m : Matrix) : State :=
  (List.finRange 4).foldl (fun a n => (m.accs[n].pieces).foldl (fun b p =>
    b.writePlace (.seq q) (pl.plus (0x2000 + 0x4000 * n.val + p.1)) (wordsBytes p.2)) a) s

/-- The element at an offset of a frame. -/
def State.readElem (s : State) (q : SeqId) (pl : Place) (off : Nat) : F32 :=
  BitVec.ofNat 32 (s.readNum (.seq q) (pl.plus off) 4)

/-- A bank read from a block (R390): the offsets of its elements and of its checksums, and its bit of the CK word. -/
def State.readBank (s : State) (q : SeqId) (pl : Place) (m sums bit : Nat) : AccBank :=
  { m := Vector.ofFn fun i => s.readElem q pl (m + 4 * i.val),
    sr := Vector.ofFn fun i => s.readElem q pl (sums + 4 * i.val),
    sc := Vector.ofFn fun i => s.readElem q pl (sums + 128 + 4 * i.val),
    ar := Vector.ofFn fun i => s.readElem q pl (sums + 256 + 4 * i.val),
    ac := Vector.ofFn fun i => s.readElem q pl (sums + 384 + 4 * i.val),
    ck := (s.readElem q pl 0x2400).getLsbD bit }

/-- The accumulators read from a frame (R390, R391). -/
def State.readAccs (s : State) (q : SeqId) (pl : Place) : Vector AccPair 4 :=
  Vector.ofFn fun n =>
    let b := pl.plus (0x2000 + 0x4000 * n.val)
    { work := s.readBank q b 0x0000 0x2000 0, vis := s.readBank q b 0x1000 0x2200 1 }

end Sys2Proof.Machine
end

