-- ==== Sys2Proof/Machine/Relay.lean ====
section
/-! DEFINITION. Works found by their numbers, operations outstanding and their completion (spec/03 R58, R63; spec/06 R127),
and the sending of relay messages (spec/12 R257–R259). -/

namespace Sys2Proof.Machine

/-! ### Works -/

/-- A strand whose work has a given number. -/
def Core.strandOf (c : Core) (owner : Nat) : Option StrandId :=
  (List.finRange 8).find? fun k => c.strands[k].owner == owner && c.strands[k].work != .free

/-- A thread-table entry changed. -/
def State.modThread (s : State) (t : TileId) (i : Fin 32) (f : Thread → Thread) : State :=
  s.modCore t fun c => match c.threads[i] with
    | some th => { c with threads := c.threads.set i (some (f th)) }
    | none => c

/-- The thread-table entry of a work. -/
def Core.threadOf (c : Core) (owner : Nat) : Option (Fin 32) :=
  (List.finRange 32).find? fun i => match c.threads[i] with
    | some th => th.owner == owner
    | none => false

/-- A saved context changed in its frame (R40, R384, R387). -/
def State.modSaved (s : State) (t : TileId) (i : Fin 32) (f : Ctx → Ctx) : State :=
  match s.tiles[t].core.threads[i] with
  | none => s
  | some th =>
    let c := f (s.readFrame t th th.saved)
    (s.writeFrame t th c).modThread t i fun x => { x with saved := c }

/-- The Tenant context below a Monitor trap changed, in the frame to which it was saved (R224, R40). -/
def State.modUnder (s : State) (t : TileId) (k : StrandId) (u : Ctx) (f : Ctx → Ctx) : State :=
  let put (a : State) (c : Ctx) : State := a.modStrandAt t k fun x => { x with under := some c }
  match (s.strandAt t k).work with
  | .thread i => match s.tiles[t].core.threads[i] with
    | some th =>
      let c := f (s.readFrame t th u)
      put (s.writeFrame t th c) c
    | none => put s (f u)
  | .free | .rewrite _ | .firmware => put s (f u)

/-- The context of a work changed, on its strand or in its frame (R40, R384). A work that has ended is not found. -/
def State.modWork (s : State) (t : TileId) (owner : Nat) (f : Ctx → Ctx) : State :=
  match s.tiles[t].core.strandOf owner with
  | some k => match (s.strandAt t k).under with
    | some u => s.modUnder t k u f
    | none => s.modStrandAt t k fun x => { x with ctx := f x.ctx }
  | none => match s.tiles[t].core.threadOf owner with
    | some i => s.modSaved t i f
    | none => s

/-- The context of a work, where it has not ended. -/
def State.workCtx (s : State) (t : TileId) (owner : Nat) : Option Ctx :=
  match s.tiles[t].core.strandOf owner with
  | some k => let x := s.strandAt t k; some (x.under.getD x.ctx)
  | none => (s.tiles[t].core.threadOf owner).bind fun i => s.tiles[t].core.threads[i].map fun th => th.saved

/-! ### Values of replies -/

/-- The width in bits of an integer type, and its signedness (R32, R75). -/
def itypeBits : IType → Nat
  | .i8 | .n8 => 8
  | .i16 | .n16 => 16
  | .i32 | .n32 => 32
  | .i64 => 64

/-- A loaded number widened to 64 bits by its type (R32, R129). -/
def widen (t : IType) (x : Nat) : W :=
  match t with
  | .i8 => (BitVec.ofNat 8 x).signExtend 64
  | .i16 => (BitVec.ofNat 16 x).signExtend 64
  | .i32 => (BitVec.ofNat 32 x).signExtend 64
  | .i64 => BitVec.ofNat 64 x
  | .n8 => BitVec.ofNat 64 (x % 2 ^ 8)
  | .n16 => BitVec.ofNat 64 (x % 2 ^ 16)
  | .n32 => BitVec.ofNat 64 (x % 2 ^ 32)

/-- The low w bytes of a value repeated over a register (R138). -/
def repeatV (w : Nat) (x : V) : Nat → V
  | 0 => 0
  | n + 1 => ((x &&& BitVec.ofNat 1024 (2 ^ (8 * w) - 1)) <<< (8 * w * n)) ||| repeatV w x n

/-- A result written by its pend (R58): scalars widened, vector bytes merged with the register (R66). -/
def Ctx.writePend (c : Ctx) (p : Pend) : Ctx :=
  match p.fmt with
  | .int t => c.write p.dest ((widen t p.val.toNat).setWidth 1024)
  | .old wide => c.write p.dest ((if wide then BitVec.ofNat 64 p.val.toNat
      else (BitVec.ofNat 32 p.val.toNat).signExtend 64).setWidth 1024)
  | .bytes => match p.dest with
    | .v r => c.setV r (blend (spread p.act 8 128) p.val (c.v r))
    | .none | .g _ | .k _ | .cr _ => c
  | .bcast w => match p.dest with
    | .v r => c.setV r (blend (spread p.act 8 128) (repeatV w p.val (128 / w)) (c.v r))
    | .none | .g _ | .k _ | .cr _ => c
  | .mask | .word => c.write p.dest p.val
  | .message =>
    (c.write p.dest (BitVec.ofNat 1024 (p.val.toNat / 2 ^ 512 % 2 ^ 64))).write p.dest2
      (BitVec.ofNat 1024 (p.val.toNat % 2 ^ 512))
  | .drop => c

/-- An outstanding operation that is complete: its fault waits for the next bundle boundary and the register is not written
(R63); otherwise the result is written and its flags are ORed (R40). The scoreboard mark goes with it. -/
def Ctx.finish (c : Ctx) (p : Pend) : Ctx :=
  let c1 := { c with pends := c.pends.filter fun q => q.uid != p.uid }
  match p.fault with
  | some (cause, v) =>
    let mask := match p.fmt with
      | .drop => none
      | .int _ | .old _ | .bytes | .bcast _ | .mask | .word | .message => some 0
    { c1.orFlags p.flags with due := c1.due ++ [{ cause := cause, val := v, mask := mask }] }
  | none => (c1.orFlags p.flags).writePend p

/-- One reply to an outstanding operation: its bytes placed, its flags and the fault with the lowest position kept. When no
reply is due, the operation is complete. -/
def Ctx.reply (c : Ctx) (uid at_ : Nat) (bits : V) (flags : BitVec 6) (fault : Option (Cause × W)) : Ctx :=
  match c.pends.find? fun p => p.uid == uid with
  | none => c
  | some p =>
    let p1 := { p with need := p.need - 1, val := p.val ||| (bits <<< (8 * at_)), flags := p.flags ||| flags,
                       fault := match p.fault, fault with
                         | none, f => f
                         | some a, none => some a
                         | some a, some b => if b.2.toNat < a.2.toNat then some b else some a }
    if p1.need = 0 then c.finish p1
    else { c with pends := c.pends.map fun q => if q.uid == uid then p1 else q }

/-! ### Messages -/

/-- The next SEQNO of a pair (R259). -/
def State.sendCount (s : State) (src dst : TileId) : BitVec 16 :=
  ((s.sent.find? fun x => x.1 == (src, dst)).map (·.2)).getD 0

/-- The receive count of a pair (R259). -/
def State.recvCount (s : State) (src dst : TileId) : BitVec 16 :=
  ((s.received.find? fun x => x.1 == (src, dst)).map (·.2)).getD 0

/-- A count in a list of pairs replaced. -/
def putCount (l : List ((TileId × TileId) × BitVec 16)) (p : TileId × TileId) (n : BitVec 16) :
    List ((TileId × TileId) × BitVec 16) :=
  (p, n) :: l.filter fun x => x.1 != p

/-- Whether a message is an ACK, which carries no number of its own (R259). -/
def Body.isAck : Body → Bool
  | .ack _ => true
  | .read _ | .readRsp .. | .write .. | .amo .. | .amoRsp .. | .pair .. | .netop .. | .netrsp .. | .borrow | .msg ..
  | .creditWords .. | .creditSeq _ | .recall _ | .slice .. => false

/-- Whether a message is an MSEND's (R208). -/
def Body.isMsend : Body → Bool
  | .msg .. => true
  | .read _ | .readRsp .. | .write .. | .amo .. | .amoRsp .. | .pair .. | .netop .. | .netrsp .. | .borrow | .creditWords ..
  | .creditSeq _ | .ack _ | .recall _ | .slice .. => false

/-- KIND of a message's header (R257). No KIND is named for a reduction slice: it travels as a WRITE. Log 111: DESIGN CHOICE. -/
def Body.kind : Body → Fin 16
  | .read _ => 0
  | .readRsp .. => 1
  | .write .. | .slice .. => 2
  | .amo .. => 3
  | .amoRsp .. => 4
  | .pair .. => 5
  | .netop .. => 6
  | .netrsp .. => 7
  | .borrow => 8
  | .msg .. => 9
  | .creditWords .. | .creditSeq _ => 10
  | .ack _ => 11
  | .recall _ => 12

/-- A message given its number and put on the relay plane (R259). -/
def State.launch (s : State) (m : Msg) : State :=
  if m.body.isAck then { s with relay := s.relay ++ [{ m with launched := true, last := s.domain.sid }] }
  else
    let n := s.sendCount m.src m.dst
    { s with relay := s.relay ++ [{ m with seqno := n, launched := true, last := s.domain.sid }],
             sent := putCount s.sent (m.src, m.dst) (n + 1) }

/-- Messages of a tile between threads that stand before one in the order of their issue (R208). -/
def Msg.msendBefore (x m : Msg) : Bool := x.body.isMsend && x.src == m.src && decide (x.uid < m.uid)

/-- A message can be sent: what it waits for has been performed, its pair has room for one more that is not acknowledged (R259),
the MSENDs of its tile to the same destination that were issued before it have been sent (R208), and one of a commit finds room
among the 16 that the tile buffers (R208). -/
def State.sendable (s : State) (m : Msg) : Bool :=
  m.after.isEmpty &&
  (m.body.isAck || (s.relay.filter fun x => x.src == m.src && x.dst == m.dst && x.launched && !x.acked && !x.body.isAck).length < 64) &&
  (!m.body.isMsend || ((s.relay.all fun x => !(x.msendBefore m && x.dst == m.dst && !x.launched)) &&
    (s.relay.filter fun x => x.msendBefore m && x.arrived.isNone).length < 16))

/-- Messages that can be sent are sent, in the order of their issue. -/
def State.pump (s : State) : State :=
  s.relay.foldl (fun a m =>
    if m.launched then a
    else match a.relay.find? fun x => x.uid == m.uid with
      | some x => if a.sendable x then ({ a with relay := a.relay.filter fun y => y.uid != m.uid }).launch x else a
      | none => a) s

/-- A message from one tile to another, held back until the operations named have been performed (R130, R190). -/
def State.send (s : State) (src dst : TileId) (part : PartId) (body : Body) (after : List (Nat × Nat)) : State :=
  let m : Msg := { uid := s.fresh, src := src, dst := dst, part := part, seqno := 0, body := body, after := after,
                   launched := false, held := false, lost := false, arrived := none, served := false, acked := false,
                   refused := none, credited := false, last := 0, struck := false }
  if s.sendable m then (s.bump).launch m else { s.bump with relay := s.relay ++ [m] }

/-- An operation of a work has been performed: whatever waited for it alone is sent (R130, R131). -/
def State.performed (s : State) (owner uid : Nat) : State :=
  ({ s with relay := s.relay.map fun (m : Msg) => { m with after := m.after.filter (· != (owner, uid)) } }).pump

/-- A message changed. -/
def State.modMsg (s : State) (uid : Nat) (f : Msg → Msg) : State :=
  { s with relay := s.relay.map fun m => if m.uid = uid then f m else m }

/-! ### Refusal for want of room (R438) -/

/-- A message that its destination has refused for want of room and not yet accepted. -/
def Msg.turnedAway (m : Msg) : Bool := m.refused.isSome && m.arrived.isNone

/-- The messages refused by a destination before a message, among those that want the same room: room that comes free is theirs
first. -/
def State.refusedBefore (s : State) (t : TileId) (uid : Nat) (mine : Option Nat) (is : Body → Bool) : Nat :=
  (s.relay.filter fun x => x.uid != uid && x.dst == t && x.turnedAway && is x.body &&
    match mine, x.refused with
    | some a, some b => decide (b < a)
    | none, _ => true
    | some _, none => false).length

/-- Room has come free at a tile: CREDIT goes to the source whose refused message is oldest, once for each message. -/
def State.readmit (s : State) (t : TileId) (is : Body → Bool) : State :=
  let l := s.relay.filter fun m => m.dst == t && m.turnedAway && m.lost && !m.credited && is m.body
  match l.foldl (fun a m => match a with
      | none => some m
      | some x => if m.refused.getD 0 < x.refused.getD 0 then some m else some x) (none : Option Msg) with
  | none => s
  | some m => (s.modMsg m.uid fun x => { x with credited := true }).send t m.src m.part (.creditSeq m.seqno) []

/-- A reply reaches a work's outstanding operation; when it completes, it has been performed. -/
def State.answer (s : State) (t : TileId) (owner uid at_ : Nat) (bits : V) (flags : BitVec 6)
    (fault : Option (Cause × W)) : State :=
  let s1 := s.modWork t owner fun c => c.reply uid at_ bits flags fault
  match s1.workCtx t owner with
  | some c => if c.pends.any fun p => p.uid == uid then s1 else s1.performed owner uid
  | none => s1.performed owner uid

/-- The memory operations of a work that are not performed yet (R130, R132, R190). -/
def Ctx.unperformed (c : Ctx) (owner : Nat) : List (Nat × Nat) :=
  (c.pends.filter (·.mem)).map fun p => (owner, p.uid)

/-! ### Lines and near buffers (R136, R276) -/

/-- The lines of a bank's set (R276). -/
def sameSet (a b : Nat) : Bool :=
  let set (l : Nat) : Nat := (l % 256).xor (l / 256 % 256)
  set a == set b

/-- A line used becomes its bank's most recent (R276). -/
def State.useLine (s : State) (home : TileId) (line : Nat) : State :=
  s.modTile home fun x => { x with bank := (x.bank.filter (·.line == line)) ++ x.bank.filter (·.line != line) }

/-- The recall of a line asked of its holder (R136), once. -/
def State.recall (s : State) (home holder : TileId) (part : PartId) (line : Nat) : State :=
  if s.relay.any fun m => m.dst == holder && !m.served && (match m.body with
      | .recall l => l == line
      | .read _ | .readRsp .. | .write .. | .amo .. | .amoRsp .. | .pair .. | .netop .. | .netrsp .. | .borrow | .msg ..
      | .creditWords .. | .creditSeq _ | .ack _ | .slice .. => false)
  then s
  else s.send home holder part (.recall line) []

/-- A bank asked to fetch a line that it does not hold (R276): one read of the line at a time. For an address that holds no memory no
request is sent: the line is delivered as poisoned, and a syndrome is counted (R268). -/
def State.fill (s : State) (q : SeqId) (pa : Nat) (home : TileId) : State :=
  let line := pa / 64
  if !isHbm pa then s.modTile home fun x => { x with syndromes := x.syndromes + 1 }
  else if (s.bankLine pa home).isSome || (s.transfers.any fun m => m.home == home && m.line == line) then s
  else { s.bump with transfers := s.transfers ++
    [{ uid := s.fresh, op := .read, line := line, home := home, seq := q, queued := false, bad0 := false,
       bad1 := false }] }

/-! ### Lines that agents other than the relay's requests use (R276) -/

/-- A line has been asked for: its read or its recall is under way. -/
def State.lineAsked (s : State) (pa : Nat) (home : TileId) : Bool :=
  (s.transfers.any fun m => m.home == home && m.line == pa / 64) || s.relay.any fun m => !m.served && (match m.body with
    | .recall l => l == pa / 64
    | .read _ | .readRsp .. | .write .. | .amo .. | .amoRsp .. | .pair .. | .netop .. | .netrsp .. | .borrow | .msg ..
    | .creditWords .. | .creditSeq _ | .ack _ | .slice .. => false)

/-- A line asked for: a near buffer's is recalled, an absent one read. -/
def State.askLine (s : State) (q : SeqId) (pa : Nat) (home : TileId) : State :=
  if s.lineHere pa home then s
  else match s.nearHolder (pa / 64) with
    | some t => s.recall home t (partOf q) (pa / 64)
    | none => s.fill q pa home

/-- The absent lines of several spans asked for. -/
def State.askLines (s : State) (q : SeqId) (l : List (Place × Nat)) : State :=
  (s.absent l).foldl (fun a y => a.askLine q y.1 y.2) s

/-- The lines of several spans become their banks' most recent; an access to one that holds no memory is counted at its home
(R268). -/
def State.useLines (s : State) (l : List (Place × Nat)) : State :=
  (l.flatMap fun x => x.1.lines x.2).foldl (fun a y =>
    if isHbm y.1 then a.useLine y.2 (y.1 / 64) else a.modTile y.2 fun x => { x with syndromes := x.syndromes + 1 }) s

end Sys2Proof.Machine
end

