-- ==== Sys2Proof/Machine/NetCore.lean ====
section
/-! DEFINITION. Nets at their homes: node and port words (spec/22 R350–R353), link resolution (R355), pools and dusk lists
(R357, R358), bags (R359, R360), the Almanac (R362, R363), the discard of a rewrite (spec/10 R222, spec/16 R305), and the
events that a die controller queues (spec/26 R421, R422, R439). -/

namespace Sys2Proof.Machine

/-! ### Events -/

/-- The queue of an event (R422): its partition's, or the MF's. -/
def EventRec.queue (e : EventRec) : Fin 17 := if e.fn = 192 then 16 else ⟨e.part.val, by omega⟩

/-- An event queued at a die controller (R422): the last of a queue's 32 entries is held for OVERFLOW, so an event that
finds 31 others is dropped and counted. -/
def State.queueEvent (s : State) (d : DieId) (e : EventRec) : State :=
  s.modDie d fun x =>
    if (x.events.filter fun y => y.queue == e.queue).length < 31 then { x with events := x.events ++ [e] }
    else
      let n := ((x.dropped.find? fun y => y.1 == e.queue).map (·.2)).getD 0
      { x with dropped := (e.queue, n + 1) :: x.dropped.filter fun y => y.1 != e.queue }

/-- An event that names a sequence goes to its VF (R439). -/
def State.seqEvent (s : State) (d : DieId) (q : SeqId) (code : BitVec 16) (detail : List W) : State :=
  match s.seqs[q] with
  | none => s
  | some x => s.queueEvent d { fn := ⟨x.vf.val, by omega⟩, part := partOf q, seq := seqNo q, code := code,
                               time := s.domain.sid, detail := detail }

/-- An event that concerns a partition and no sequence goes to its VFs and to the MF (R439). -/
def State.partEvent (s : State) (d : DieId) (p : PartId) (code : BitVec 16) (detail : List W) : State :=
  match s.parts[p] with
  | none => s
  | some x =>
    let mk (fn : Fin 193) : EventRec :=
      { fn := fn, part := p, seq := 0, code := code, time := s.domain.sid, detail := detail }
    let s1 := ((List.finRange 192).filter fun v => x.vfs.getLsbD v.val).foldl
      (fun a v => a.queueEvent d (mk ⟨v.val, by omega⟩)) s
    s1.queueEvent d (mk 192)

/-- An event that concerns the package goes to the MF and to every VF that belongs to a partition (R439). -/
def State.packageEvent (s : State) (d : DieId) (code : BitVec 16) (detail : List W) : State :=
  let mk (fn : Fin 193) (p : Fin 16) : EventRec :=
    { fn := fn, part := p, seq := 0, code := code, time := s.domain.sid, detail := detail }
  let s1 := (List.finRange 16).foldl (fun a p => match a.parts[p] with
    | none => a
    | some x => ((List.finRange 192).filter fun v => x.vfs.getLsbD v.val).foldl
        (fun b v => b.queueEvent d (mk ⟨v.val, by omega⟩ p)) a) s
  s1.queueEvent d (mk 192 0)

/-! ### Words of nodes -/

/-- A field of a 64-bit word replaced. -/
def putField (w : W) (lo n x : Nat) : W :=
  BitVec.ofNat 64 (w.toNat - bitsAt w.toNat lo n * 2 ^ lo + x % 2 ^ n * 2 ^ lo)

/-- A field of a 64-bit word. -/
def field (w : W) (lo n : Nat) : Nat := bitsAt w.toNat lo n

/-- The address of a line index (R350). -/
def lineAddr (l : BitVec 50) : W := BitVec.ofNat 64 (64 * l.toNat)

/-- The line index of an address (R350). -/
def lineOf (a : W) : BitVec 50 := BitVec.ofNat 50 (a.toNat / 64)

/-- The place of a node's line as its sequence's tables map it. -/
def State.nodePlace (s : State) (q : SeqId) (t : TileId) (l : BitVec 50) : Option Place :=
  s.placeFor t q Access.read (lineAddr l)

/-- The home of a line, the asking tile where it has none. -/
def State.homeOf (s : State) (q : SeqId) (t : TileId) (l : BitVec 50) : TileId :=
  match s.nodePlace q t l with
  | some pl => pl.server
  | none => t

/-- The bits of a node's word that are not reserved (R351, R352); a payload word has no reserved bits. -/
def nodeField (off : Nat) : W :=
  if off = 0 then 0xFFFF1FFF0E03FFFF else if off ≤ 32 then 0xFFFFFFFFFFFFFF00 else 0xFFFFFFFFFFFFFFFF

/-- An 8-byte word of a node, as its sequence reads it (R350), its reserved bits as 0 (R7); 0 where the node is not mapped. -/
def State.nodeWord (s : State) (q : SeqId) (t : TileId) (l : BitVec 50) (off : Nat) : W :=
  match s.nodePlace q t l with
  | some pl => BitVec.ofNat 64 (s.readNum (.seq q) (pl.plus off) 8) &&& nodeField off
  | none => 0

/-- An 8-byte word of a node written, its reserved bits as 0 (R7). -/
def State.setNodeWord (s : State) (q : SeqId) (t : TileId) (l : BitVec 50) (off : Nat) (w : W) : State :=
  match s.nodePlace q t l with
  | some pl => s.writeNum (.seq q) (pl.plus off) 8 (w &&& nodeField off).toNat
  | none => s

/-- Fields of the header word (R351). -/
def hdrType (h : W) : Nat := field h 0 16
/-- ARITY. -/
def hdrArity (h : W) : Nat := field h 16 2
/-- POOL. -/
def hdrPool (h : W) : Bool := field h 25 1 == 1
/-- DUSK. -/
def hdrDusk (h : W) : Bool := field h 26 1 == 1
/-- CLAIMED. -/
def hdrClaimed (h : W) : Bool := field h 27 1 == 1
/-- RCOUNT. -/
def hdrRcount (h : W) : Nat := field h 48 16
/-- A node is live when POOL and DUSK are both 0 (R351). -/
def hdrLive (h : W) : Bool := !hdrPool h && !hdrDusk h

/-- The claim fields written (R351, R365). -/
def hdrClaim (h : W) (claim : Option (TileId × StrandId)) : W :=
  match claim with
  | some (t, k) => putField (putField (putField h 27 1 1) 35 10 t.val) 32 3 k.val
  | none => putField (putField (putField h 27 1 0) 35 10 0) 32 3 0

/-- The header that NALLOC writes from its template (R215, R348). -/
def hdrInit (template : W) : W := BitVec.ofNat 64 (template.toNat % 2 ^ 18)

/-- A port word that names an end (R352), PORT tag. -/
def portWord (e : WireEnd) (redirect : Bool) : W :=
  match e with
  | .none => 0
  | .free v => BitVec.ofNat 64 (3 * 2 ^ 60 + v.val * 2 ^ 58)
  | .port l p => BitVec.ofNat 64 ((if redirect then 2 else 1) * 2 ^ 60 + p.val * 2 ^ 58 + l.toNat * 2 ^ 8)

/-- The end that a port word names (R355 Far). -/
def wordEnd (w : W) : WireEnd :=
  match field w 60 4 with
  | 1 | 2 => .port (BitVec.ofNat 50 (field w 8 50)) ⟨field w 58 2, by unfold field bitsAt; omega⟩
  | 3 => .free ⟨field w 58 2, by unfold field bitsAt; omega⟩
  | _ => .none

/-- A port word holds the REDIRECT tag. -/
def isRedirect (w : W) : Bool := field w 60 4 == 2

/-- A sequence changed. -/
def State.modSeq (s : State) (q : SeqId) (f : Sequence → Sequence) : State :=
  match s.seqs[q] with
  | none => s
  | some x => { s with seqs := s.seqs.set q (some (f x)) }

/-- A sequence's counts changed (R372). -/
def State.modCounts (s : State) (q : SeqId) (f : Counts → Counts) : State :=
  s.modSeq q fun x => { x with counts := f x.counts }

/-! ### Link resolution -/

/-- Far (R355): `mine` are the lines that the rewrite claims. -/
def State.far (s : State) (q : SeqId) (t : TileId) (mine : List (BitVec 50)) (e : WireEnd) : WireEnd :=
  match e with
  | .none => .none
  | .free v => .free v
  | .port l p => if mine.contains l then wordEnd (s.nodeWord q t l (8 + 8 * p.val)) else .port l p

/-- Write (R355). -/
def State.writeEnd (s : State) (q : SeqId) (t : TileId) (mine : List (BitVec 50)) (f g : WireEnd) : State :=
  match f with
  | .none | .free _ => s
  | .port l p =>
    let h := s.nodeWord q t l 0
    let old := s.nodeWord q t l (8 + 8 * p.val)
    let redirect := match g with
      | .port .. => hdrClaimed h && !mine.contains l
      | .none | .free _ => false
    let count := hdrRcount h - boolNat (isRedirect old) + boolNat redirect
    let s1 := s.setNodeWord q t l (8 + 8 * p.val) (portWord g redirect)
    let s2 := if isRedirect old || redirect then s1.setNodeWord q t l 0 (putField h 48 16 count) else s1
    match g with
    | .free v => s2.modSeq q fun x => { x with iface := x.iface.set v f }
    | .none | .port .. => s2

/-- Whether an end is a port of a node that the rewrite claims. -/
def WireEnd.isMine (e : WireEnd) (mine : List (BitVec 50)) : Bool :=
  match e with
  | .port l _ => mine.contains l
  | .none | .free _ => false

/-- Port 0 of a live node, whose word is PORT: an end of an active pair. -/
def State.activeEnd (s : State) (q : SeqId) (t : TileId) (e : WireEnd) : Option (BitVec 50) :=
  match e with
  | .port l p =>
    if p = 0 && hdrLive (s.nodeWord q t l 0) && field (s.nodeWord q t l 8) 60 4 == 1 then some l else none
  | .none | .free _ => none

/-- PerformLink under its holds (R355, R356): the state after it, and the pair it forms. -/
def State.performLink (s : State) (q : SeqId) (t : TileId) (mine : List (BitVec 50)) (a b : WireEnd) :
    State × Option (BitVec 50 × BitVec 50) :=
  let fa := s.far q t mine a
  let fb := s.far q t mine b
  match fa, fb with
  | .free _, .free _ => (s.modCounts q fun c => { c with loose := c.loose + 1 }, none)
  | _, _ =>
    if fa = fb ∧ fa ≠ .none then (s, none)
    else
      let s1 := (s.writeEnd q t mine fa fb).writeEnd q t mine fb fa
      let leave (x : State) (e : WireEnd) : State :=
        if e.isMine mine && e != fa && e != fb then x.writeEnd q t mine e .none else x
      let s2 := leave (leave s1 a) b
      let s3 := if fa = .none ∨ fb = .none then s2.modCounts q fun c => { c with cuts := c.cuts + 1 } else s2
      match s3.activeEnd q t fa, s3.activeEnd q t fb with
      | some la, some lb => (s3, some (if la.toNat ≤ lb.toNat then (la, lb) else (lb, la)))
      | _, _ => (s3, none)

/-! ### What a tile keeps for a sequence -/

/-- A sequence's entry on a tile that has none (R357, R359). -/
def TileSeq.fresh (q : SeqId) : TileSeq :=
  { seq := q, trapvec := 0, head := 0, dusk := [], agentPanes := [], messages := [], recvs := [], activity := 0, spill := 2048 }

/-- A sequence's entry on a tile. -/
def Tile.seqOn (x : Tile) (q : SeqId) : TileSeq := (x.seqs.find? fun y => y.seq == q).getD (TileSeq.fresh q)

/-- A sequence's entry on a tile changed. -/
def State.modTileSeq (s : State) (t : TileId) (q : SeqId) (f : TileSeq → TileSeq) : State :=
  s.modTile t fun x =>
    if x.seqs.any fun y => y.seq == q then
      { x with seqs := x.seqs.map fun y => if y.seq == q then f y else y }
    else { x with seqs := x.seqs ++ [f (TileSeq.fresh q)] }

/-- The activity count rises (R371). -/
def State.active (s : State) (t : TileId) (q : SeqId) : State :=
  s.modTileSeq t q fun y => { y with activity := y.activity + 1 }

/-! ### Pools and dusk lists -/

/-- A primitive tile agent that names a pane (R358, R369). -/
def isAgent (ty : Nat) : Bool := 0xF000 ≤ ty && ty ≤ 0xF004

/-- The pane that a RAW address of the tile's own window names; its window offset is VA[21:0]. -/
def paneOfAddr (a : W) : Fin 128 := ⟨a.toNat % 2 ^ 19 / 4096, by omega⟩

/-- A tile-agent pane of nodes that have gone back to their pool is back in its own (R358): it is core-owned, and neither STAGED nor BUSY. -/
def Pane.back (p : Pane) : Bool := !p.engine && p.staged == 0 && p.busy == 0

/-- A node put at the head of its home tile's pool (R357); its tile-agent pane returns with it, once it is free of the engines (R358).
Log 36: DEDUCED. -/
def State.poolPut (s : State) (q : SeqId) (home : TileId) (node : W) : State :=
  let l := lineOf node
  let h := s.nodeWord q home l 0
  let addr := s.nodeWord q home l 40
  let ts := s.tiles[home].seqOn q
  let pane := paneOfAddr addr
  let s1 := (s.setNodeWord q home l 0 (putField (BitVec.ofNat 64 (h.toNat % 2 ^ 18)) 25 1 1)).setNodeWord q home l 40
    ts.head
  s1.modTileSeq home q fun y => { y with
    head := node,
    agentPanes := if isAgent (hdrType h) && addr != 0 then pane :: y.agentPanes.filter (· != pane) else y.agentPanes }

/-- A node that a discarded rewrite allocated put back at the head of its pool, as no observer has seen it: its header has never been
written (R215). Its tile-agent pane returns with it (R358). -/
def State.poolBack (s : State) (q : SeqId) (home : TileId) (node header addr : W) : State :=
  let ts := s.tiles[home].seqOn q
  let pane := paneOfAddr addr
  (s.setNodeWord q home (lineOf node) 40 ts.head).modTileSeq home q fun y => { y with
    head := node,
    agentPanes := if isAgent (hdrType header) && addr != 0 then pane :: y.agentPanes.filter (· != pane) else y.agentPanes }

/-- A freed node may leave the dusk list (R357). Log 36: DEDUCED. -/
def State.duskReady (s : State) (q : SeqId) (home : TileId) (node : W) : Bool :=
  let l := lineOf node
  hdrRcount (s.nodeWord q home l 0) == 0 &&
  [8, 16, 24, 32].all fun o => field (s.nodeWord q home l o) 60 4 == 0

/-- The dusk list of a tile tested: every node that may leaves for the head of the pool (R357). Log 36: DEDUCED. -/
def State.duskTest (s : State) (q : SeqId) (home : TileId) : State :=
  (s.tiles[home].seqOn q).dusk.foldl (fun a n =>
    if a.duskReady q home n then
      (a.modTileSeq home q fun y => { y with dusk := y.dusk.filter (· != n) }).poolPut q home n
    else a) s

/-- NFREE at the node's home (R216, R357). -/
def State.freeNode (s : State) (q : SeqId) (t : TileId) (node : W) : State :=
  let l := lineOf node
  let h := s.nodeWord q t l 0
  if hdrDusk h then s.modCounts q fun c => { c with doublefree := c.doublefree + 1 }
  else
    let home := s.homeOf q t l
    ((s.setNodeWord q t l 0 (putField h 26 1 1)).modTileSeq home q fun y => { y with dusk := y.dusk ++ [node] }).modCounts
      q fun c => { c with frees := c.frees + 1 }

/-- A node's line as NALLOC initialises it (R215, R358). -/
def State.initNode (s : State) (q : SeqId) (t : TileId) (node header addr : W) : State :=
  match s.nodePlace q t (lineOf node) with
  | some pl => s.writePlace (.seq q) pl (leBytes 8 header.toNat ++ leBytes 32 0 ++ leBytes 8 addr.toNat ++ leBytes 16 0)
  | none => s

/-- An allocation of a type takes a pane of the sequence's tile-agent pool (R358). -/
def State.pooled (s : State) (q : SeqId) (template : W) : Bool :=
  match s.seqs[q] with
  | some x => isAgent (hdrType template) && x.taPanes != 0
  | none => false

/-- TILEBASE of a sequence (R403); 0 where there is none. -/
def State.tilebase (s : State) (q : SeqId) : W :=
  match s.seqs[q] with
  | some x => x.tilebase
  | none => 0

/-- What NALLOC finds (R215, R358): a node with the address its payload takes, or that the pool is empty. -/
def State.takeNode (s : State) (q : SeqId) (t : TileId) (template : W) : Option (State × W × W) :=
  let ts := s.tiles[t].seqOn q
  if ts.head = 0 then none
  else
    let next := s.nodeWord q t (lineOf ts.head) 40
    if s.pooled q template then
      match (List.finRange 128).find? fun p => ts.agentPanes.contains p && s.tiles[t].panes[p].back with
      | none => none
      | some p =>
        some (s.modTileSeq t q fun y => { y with head := next, agentPanes := y.agentPanes.filter (· != p) }, ts.head,
          BitVec.ofNat 64 ((s.tilebase q).toNat + t.val * 2 ^ 22 + 4096 * p.val))
    else some (s.modTileSeq t q fun y => { y with head := next }, ts.head, 0)

/-! ### The Almanac -/

/-- The Almanac's entries probed from an index (R362). -/
def State.probe (s : State) (q : SeqId) (t : TileId) (base size lo hi i : Nat) : Nat → Option Rule
  | 0 => none
  | n + 1 =>
    match s.placeFor t q Access.read (BitVec.ofNat 64 (base + 16 + 16 * (i % size))) with
    | none => none
    | some pl =>
      let w := s.readNum (.seq q) pl 8
      if w / 2 ^ 63 % 2 = 0 then none
      else if w % 2 ^ 16 = lo ∧ w / 2 ^ 16 % 2 ^ 16 = hi ∨ w % 2 ^ 16 = hi ∧ w / 2 ^ 16 % 2 ^ 16 = lo then
        some { seq := q, lo := BitVec.ofNat 16 lo, hi := BitVec.ofNat 16 hi, found := true, roam := w / 2 ^ 32 % 2 == 1,
               swap := w / 2 ^ 33 % 2 == 1, prim := w / 2 ^ 34 % 2 == 1, quiet := w / 2 ^ 35 % 2 == 1,
               typeA := BitVec.ofNat 16 w, handler := BitVec.ofNat 64 (s.readNum (.seq q) (pl.plus 8) 8) }
      else s.probe q t base size lo hi (i + 1) n

/-- The rule of a pair of types, through the tile's Almanac cache (R362, R363): the rule, and the state with the cache
filled, most recently used first, 8 ways a set. -/
def State.rule (s : State) (q : SeqId) (t : TileId) (ta tb : Nat) : Rule × State :=
  let lo := if ta ≤ tb then ta else tb
  let hi := if ta ≤ tb then tb else ta
  let same (r : Rule) : Bool := r.seq == q && r.lo.toNat == lo && r.hi.toNat == hi
  let set (r : Rule) : Nat := (40503 * r.lo.toNat + r.hi.toNat) % 64
  let miss : Rule := { seq := q, lo := BitVec.ofNat 16 lo, hi := BitVec.ofNat 16 hi, found := false, roam := false,
                       swap := false, prim := false, quiet := false, typeA := 0, handler := 0 }
  let r := match s.tiles[t].core.almanac.find? same with
    | some r => r
    | none => match s.seqs[q] with
      | none => miss
      | some x =>
        if x.image.almva = 0 then miss
        else match s.placeFor t q Access.read x.image.almva with
          | none => miss
          | some pl =>
            let size := 2 ^ (s.readNum (.seq q) pl 8 % 32)
            (s.probe q t x.image.almva.toNat size lo hi ((40503 * lo + hi) % size) size).getD miss
  (r, s.modCore t fun c =>
    let rest := c.almanac.filter fun y => !same y
    let ways := (rest.filter fun y => set y == set r).take 7
    { c with almanac := r :: (rest.filter fun y => set y != set r || ways.contains y) })

/-! ### Bags -/

/-- Whether an entry counts among the 256 on-chip entries (R360). -/
def BagEntry.onChip (e : BagEntry) : Bool := !e.spilled && e.park == 0

/-- A pair goes to the spill region (R359, R360): its queue holds something spilled, or the chip's 256 entries, with n more, are
taken. -/
def Tile.spills (x : Tile) (e : BagEntry) (n : Nat) : Bool :=
  (x.bag.any fun y => y.seq == e.seq && y.pri == e.pri && y.spilled && y.park == 0) ||
    256 ≤ (x.bag.filter BagEntry.onChip).length + n || e.park != 0

/-- The tile's bag has room for a pair beside n others (R360). -/
def State.bagRoom (s : State) (t : TileId) (e : BagEntry) (n : Nat) : Bool :=
  let x := s.tiles[t]
  !x.spills e n || decide ((x.bag.filter fun y => y.seq == e.seq && !y.onChip).length + n < (x.seqOn e.seq).spill)

/-- A pair accepted by the tile's bag (R359, R360): on chip where room is and its queue holds nothing spilled, otherwise in
the spill region; none when that is full. -/
def State.bagPut (s : State) (t : TileId) (e : BagEntry) : Option State :=
  let (r, s1) := s.rule e.seq t e.types.1.toNat e.types.2.toNat
  if !s.bagRoom t e 0 then none
  else
    let e1 := { e with types := (0, 0), roam := r.roam, quiet := r.quiet, spilled := s.tiles[t].spills e 0, waited := 0 }
    some ((s1.modTile t fun y => { y with bag := y.bag ++ [e1] }).active t e.seq)

/-- A pair with the types of its nodes, which its push carries (R359). -/
def State.typed (s : State) (t : TileId) (e : BagEntry) : BagEntry :=
  let ty (l : BitVec 50) : BitVec 16 := BitVec.ofNat 16 (hdrType (s.nodeWord e.seq t l 0))
  { e with types := (ty e.lineA, ty e.lineB) }

/-- A pair sent to the bag of the home of its lower line (R359): at once where that is the sender, otherwise by PAIRPUSH. A
pair that finds its own tile's spill region full waits there as a message to itself (R438). -/
def State.pushPair (s : State) (t : TileId) (e : BagEntry) (after : List (Nat × Nat)) : State :=
  let home := s.homeOf e.seq t e.lineA
  let x := s.typed t e
  let viaMsg := s.send t home (partOf e.seq) (.pair x false (0, 0)) after
  if home = t ∧ after = [] then (match s.bagPut t x with | some s1 => s1 | none => viaMsg) else viaMsg

/-- A new bag entry of a pair of lines. -/
def BagEntry.make (q : SeqId) (a b : BitVec 50) (pri : Fin 4) : BagEntry :=
  { seq := q, lineA := if a.toNat ≤ b.toNat then a else b, lineB := if a.toNat ≤ b.toNat then b else a,
    types := (0, 0), pri := pri,
    roam := false, quiet := false, park := 0, spilled := false, waited := 0, poisons := 0, borrowed := false }

/-! ### The discard of a rewrite -/

/-- What becomes of a discarded rewrite's pair (R222, R305). -/
inductive PairFate
  | again
  | drop
  | park (n : Fin 8)
  | rerun
  deriving DecidableEq, Repr

/-- The claim on a node released (R221, R222). -/
def State.unclaim (s : State) (q : SeqId) (t : TileId) (node : W) : State :=
  let l := lineOf node
  s.setNodeWord q t l 0 (hdrClaim (s.nodeWord q t l 0) none)

/-- A rewrite's hold on the matrix unit passes to nobody: its queued words are performed, their flags go nowhere, and the
unit is cleared after them (R174). Number 0 belongs to no work. With `spoil` the panes that they still write hold free values
(R187, R222). -/
def State.orphanMatrix (s : State) (t : TileId) (owner : Nat) (spoil : Bool) : State :=
  s.modMatrix t fun m =>
    match m.holder with
    | some (o, k) =>
      if o = owner then
        (if m.queue.isEmpty then { m with holder := none, clearing := true,
                                          accs := Vector.replicate 4 ⟨AccBank.zero, AccBank.zero⟩ }
         else { m with holder := some (0, k), queue := m.queue.map fun (w : MWord) =>
                  if w.owner = owner then { w with spoil := w.spoil || spoil } else w })
      else m
    | none => m

/-- The strand freed (R379, R381): its context is that of no work. -/
def State.freeStrand (s : State) (t : TileId) (k : StrandId) : State :=
  let s1 := s.modStrandAt t k fun _ => Strand.zero
  s1.modCore t fun c => if c.fg = some k then { c with fg := none } else c

/-- The receives of a work that has ended wait no longer. -/
def State.dropWaits (s : State) (t : TileId) (owner : Nat) : State :=
  let quit (y : TileSeq) : TileSeq := { y with recvs := y.recvs.filter fun w => w.1 != owner }
  let leave (c : Circuit) : Circuit := { c with waiters := c.waiters.filter fun w => w.1 != owner }
  ({ s with circuits := s.circuits.map leave }).modTile t fun x => { x with seqs := x.seqs.map quit }

/-- A pane that a discarded rewrite wrote through M words holds unpredictable values (R187, R222): the next free values. Log 7: DESIGN
CHOICE. -/
def State.spoilPane (s : State) (q : SeqId) (t : TileId) (p : Fin 128) : State :=
  s.useFree.writePlace (.seq q) (.win t (4096 * p.val)) ((List.range 4096).map (Config.freeByte s.free))

/-- The rewrite on a strand discarded (R222): buffer dropped, allocated nodes back at the head of their pool, panes that it wrote through
M words left unpredictable, pre-staged panes and the matrix unit released, the claim released, and the pair pushed again, dropped, parked or run again. -/
def State.discard (s : State) (t : TileId) (k : StrandId) (r : Rewrite) (fate : PairFate) : State :=
  let x := s.strandAt t k
  let q := x.seq
  let s1 := r.allocs.foldl (fun a n => a.poolBack q (a.homeOf q t (lineOf n.1)) n.1 n.2.1 n.2.2) s
  let s2 := r.staged.foldl (fun a p => a.modPane t p fun y => { y with staged := y.staged - 1 }) s1
  let s3 := (r.wrote.foldl (fun a p => a.spoilPane q t p) s2).orphanMatrix t x.owner true
  let s4 := (s3.unclaim q t r.node1).unclaim q t r.node2
  let s5 := s4.modCounts q fun c => { c with
    discards := c.discards + 1, drops := c.drops + boolNat (fate == .drop) }
  let s6 := if r.pair.borrowed then
      s5.modCore t fun c => { c with sched := { c.sched with borrowed := c.sched.borrowed - 1 } } else s5
  let s7 := ((s6.active t q).dropWaits t x.owner).freeStrand t k
  let e := { r.pair with borrowed := false, spilled := false }
  match fate with
  | .drop => s7
  | .again => s7.pushPair t { e with park := 0, poisons := 0 } []
  | .rerun => s7.pushPair t { e with park := 0, poisons := e.poisons + 1 } []
  | .park n => s7.pushPair t { e with park := n } []

end Sys2Proof.Machine
end

