-- ==== Sys2Proof/Machine/Ops.lean ====
section
/-! DEFINITION. Operations that the words share: taking a trap and returning from one (spec/03 R61–R63, spec/05 R115,
spec/10 R224, spec/16 R305, R306), control registers (spec/03 R69–R71, spec/05 R119–R123), the landing of results
(spec/02 R40, spec/03 R57, R63), and the translation and checks of an access (spec/06 R124–R127, spec/25 R402). -/

namespace Sys2Proof.Machine

/-! ### Faults reported (R434) -/

/-- The sealed part of a dump (R434): words in the order in which R434 names them, written as the sequence's own store of
4 KiB, discarded without a dump area. Log 21: DESIGN CHOICE. Log 51: DEDUCED. -/
def State.sealedDump (s : State) (q : SeqId) (t : TileId) (c : Ctx) (pc val : W) (mask : K) : State :=
  match s.seqs[q] with
  | none => s
  | some x => match x.dump with
    | none => s
    | some va => match s.placeFor t q Access.write va with
      | none => s
      | some pl => s.writePlace (.seq q) pl (wordsBytes (fitWords 512
          ([pc, val] ++ kWords mask ++ ((List.finRange 64).map fun r => c.g r) ++ [val])))

/-- The FAULT event of a fault that ends or parks a sequence's work (R434), with its sealed dump. SRC: 0 thread, 1 rewrite,
2 copy channel, 3 matrix unit, 4 memory, 5 link. Log 51: DEDUCED. -/
def State.faultEvent (s : State) (t : TileId) (k : StrandId) (q : SeqId) (src : Nat) (cause : BitVec 8) : State :=
  let w := cause.toNat * 2 ^ 40 + src * 2 ^ 32 + t.val * 2 ^ 22 + k.val * 2 ^ 19 + (seqNo q).val * 2 ^ 15 +
    (partOf q).val * 2 ^ 11 + (s.slotOn q (dieOf t)).val * 4
  s.seqEvent (dieOf t) q 0x0006 [BitVec.ofNat 64 w, BitVec.ofNat 64 s.domain.sid, 0, 0, 0, 0]

/-! ### Taking a trap -/

/-- A switch event has taken place on a tile (R381). -/
def State.switchEvent (s : State) (t : TileId) : State := s.modCore t fun c => { c with resched := true }

/-- A tile fenced (R306): its core issues nothing further. -/
def State.fenceTile (s : State) (t : TileId) : State := s.modCore t fun c => { c with fenced := true, hold := false }

/-- A tile fenced and reported to its die controller (R224, R300). -/
def State.reportTile (s : State) (t : TileId) : State :=
  (s.fenceTile t).modDie (dieOf t) fun d => { d with reported := d.reported.filter (· != t) ++ [t] }

/-- The Tenant context of a strand's thread written to its frame (R224). -/
def State.saveUnder (s : State) (t : TileId) (k : StrandId) (c : Ctx) : State :=
  match (s.strandAt t k).work with
  | .thread i => match s.tiles[t].core.threads[i] with
    | some th => s.writeFrame t th c
    | none => s
  | .free | .rewrite _ | .firmware => s

/-- The results still in flight at a boundary, with their offsets from it (R61). -/
def Ctx.residue (c : Ctx) : List Landing :=
  (c.inflight.filter fun l => c.clock < l.due).map fun l => { l with due := l.due - c.clock }

/-- A bank of trap registers written (R63); TRAPMASK is left where the trap writes none (R320). -/
def TrapBank.put (b : TrapBank) (cause pc val : W) (mask : Option K) : TrapBank :=
  { cause := cause, pc := pc, val := val, mask := mask.getD b.mask }

/-- A trap taken at Tenant level (R63, R113): the results in flight become the trap residue, the trap registers are written,
INTRAP is set, the loop entries and a replay record (R142) are moved aside, and fetch continues at TRAPVEC. A HALT under way is
abandoned (R118). Log 16: DEDUCED. -/
def Ctx.tenantTrap (c : Ctx) (vec : W) (cause : Cause) (val : W) (mask : Option K) (pc : W) : Ctx :=
  { c with trapRes := c.residue, inflight := [], trap := c.trap.put (cause.code.setWidth 64) pc val mask,
           mode := modeWord c.halting true false, pc := vec, aside := c.loops, loops := [], dueAside := c.due, due := [],
           halting := false, xfault := none, refused := if c.replay.isSome then c.refused else [], replay := none,
           replayAside := c.replay.or c.replayAside }

/-- A trap taken by firmware's own work at Monitor level (R224). -/
def Ctx.firmwareTrap (c : Ctx) (vec : W) (cause : Cause) (val : W) (mask : Option K) (pc : W) : Ctx :=
  { c with trapRes := c.residue, inflight := [],
           mon := c.mon.put (BitVec.ofNat 64 (cause.code.toNat + 2 ^ 8 + boolNat c.intrap * 2 ^ 9)) pc val mask,
           mode := modeWord c.halting true true, pc := vec, aside := c.loops, loops := [], dueAside := c.due, due := [],
           halting := false, xfault := none, replay := none, replayAside := c.replay.or c.replayAside }

/-- The context of the Monitor handler over Tenant work (R224): its registers as the Tenant left them, its Monitor bank
written, nothing in flight. Log 17: DEDUCED. -/
def Ctx.monitorEntry (c : Ctx) (vec : W) (cause : Cause) (val : W) (mask : Option K) (pc : W) : Ctx :=
  { c with inflight := [], trapRes := [], pends := [], due := [], dueAside := [], replay := none, replayAside := none, tail := none,
           loops := [], aside := [],
           mon := c.mon.put (BitVec.ofNat 64 (cause.code.toNat + boolNat c.intrap * 2 ^ 9)) pc val mask,
           mode := modeWord c.halting true true, pc := vec, halting := false, xfault := none }

/-- A Monitor trap (R224): taken at Monitor level, or in place of a Tenant trap that finds INTRAP set or no handler. The
Tenant context is saved to its frame. With MON and INTRAP both set, the tile is fenced and the die controller told. Log 17: DEDUCED. -/
def State.monitorTrap (s : State) (t : TileId) (k : StrandId) (cause : Cause) (val : W) (mask : Option K) (pc : W) :
    State :=
  let x := s.strandAt t k
  let c := x.ctx
  let vec := s.tiles[t].core.monvec
  if c.mon? then
    if c.intrap then s.reportTile t
    else s.modStrandAt t k fun y => { y with ctx := c.firmwareTrap vec cause val mask pc }
  else
    let saved := { c with halting := false, xfault := none }
    (s.saveUnder t k saved).modStrandAt t k fun y =>
      { y with ctx := c.monitorEntry vec cause val mask pc, under := some saved }

/-- Whether a pair's types matter to R305: the first poisoned run is repeated after the home has dropped a clean bank copy of
the line. -/
def State.dropCleanLine (s : State) (t : TileId) (q : SeqId) (va : W) : State :=
  match s.placeFor t q Access.read va with
  | some (.hbm pa home) => s.modTile home fun x =>
      { x with bank := x.bank.filter fun l => l.line != pa / 64 || l.dirty }
  | some (.win ..) | none => s

/-- A rewrite that traps (R305): poison re-runs the pair once and then parks it; every other cause parks it; the VF is told. -/
def State.rewriteTrap (s : State) (t : TileId) (k : StrandId) (r : Rewrite) (cause : Cause) (val pc : W) : State :=
  let x := s.strandAt t k
  let e := r.pair
  if cause = .poison then
    if e.poisons = 0 then (s.dropCleanLine t x.seq val).discard t k r .rerun
    else (s.discard t k r (.park 3)).seqEvent (dieOf t) x.seq 0x0003
      [lineAddr e.lineA >>> 6, lineAddr e.lineB >>> 6, 3]
  else
    let s1 := (s.faultEvent t k x.seq 1 cause.code).sealedDump x.seq t x.ctx pc val 0
    s1.discard t k r (.park 4)

/-- The Tenant trap handler of a strand's sequence (R121). -/
def State.trapvec (s : State) (t : TileId) (k : StrandId) : W := (s.tiles[t].seqOn (s.strandAt t k).seq).trapvec

/-- A trap of a strand (R63, R224, R305): a rewrite is discarded; a thread takes a Tenant trap, or a Monitor trap at Monitor
level, with INTRAP set, or without a handler. It is a switch event (R381). Log 16: DEDUCED. -/
def State.takeTrap (s : State) (t : TileId) (k : StrandId) (cause : Cause) (val : W) (mask : Option K) (pc : W) : State :=
  let x := s.strandAt t k
  let s1 := match x.work with
    | .free => s
    | .rewrite r => s.rewriteTrap t k r cause val pc
    | .thread _ | .firmware =>
      if x.ctx.mon? || x.ctx.intrap || s.trapvec t k == 0 then s.monitorTrap t k cause val mask pc
      else s.modStrandAt t k fun y => { y with ctx := x.ctx.tenantTrap (s.trapvec t k) cause val mask pc }
  s1.switchEvent t

/-! ### Returning from a trap -/

/-- The trap residue put back in flight from the strand clock (R63). -/
def Ctx.unresidue (c : Ctx) : List Landing := c.trapRes.map fun l => { l with due := l.due + c.clock }

/-- A replay record issued again with a done mask (R142). -/
def Replay.resume (m : K) (r : Replay) : Replay := { r with done := m, running := true }

/-- ERET at Tenant level (R63, R115, R142): INTRAP and HALTED are cleared, the loop entries restored, a replay record's DONE
replaced by TRAPMASK, and the bundle at TRAPPC issues at offset 0. Log 108: DEDUCED. -/
def Ctx.tenantEret (c : Ctx) : Ctx :=
  { c with mode := modeWord false false false, loops := c.aside, aside := [], inflight := c.unresidue, trapRes := [],
           due := c.dueAside, dueAside := [], pc := c.trap.pc, replay := c.replayAside.map (Replay.resume c.trap.mask),
           replayAside := none }

/-- ERET at Monitor level without a Tenant context to reload (R224): INTRAP takes PRIORTRAP and MON takes PRIORMON. -/
def Ctx.firmwareEret (c : Ctx) : Ctx :=
  { c with mode := modeWord false (c.mon.cause.getLsbD 9) (c.mon.cause.getLsbD 8), loops := c.aside, aside := [],
           inflight := c.unresidue, trapRes := [], due := c.dueAside, dueAside := [], pc := c.mon.pc,
           replay := c.replayAside.map (Replay.resume c.mon.mask), replayAside := none }

/-- ERET from a Monitor trap over Tenant work (R224): the Tenant context is reloaded, as firmware may have edited its frame;
INTRAP takes PRIORTRAP, MON becomes 0, and the bundle at the Monitor bank's TRAPPC issues at offset 0. -/
def Ctx.monitorEret (c tenant : Ctx) : Ctx :=
  { tenant with mode := modeWord false (c.mon.cause.getLsbD 9) false, pc := c.mon.pc, mon := c.mon,
                replay := tenant.replay.map (Replay.resume c.mon.mask) }

/-- The Tenant context below a Monitor trap, as its frame holds it (R224). -/
def State.underCtx (s : State) (t : TileId) (k : StrandId) (u : Ctx) : Ctx :=
  match (s.strandAt t k).work with
  | .thread i => match s.tiles[t].core.threads[i] with
    | some th => s.readFrame t th u
    | none => u
  | .free | .rewrite _ | .firmware => u

/-- A return from a trap (R115, R224), once no result of the handler is in flight. -/
def State.eret (s : State) (t : TileId) (k : StrandId) : State :=
  let x := s.strandAt t k
  if x.ctx.mon? then
    match x.under, x.ctx.mon.cause.getLsbD 8 with
    | some u, false =>
      let c := s.underCtx t k u
      s.modStrandAt t k fun y => { y with ctx := x.ctx.monitorEret c, under := none }
    | _, _ => s.modStrandAt t k fun y => { y with ctx := x.ctx.firmwareEret }
  else s.modStrandAt t k fun y => { y with ctx := x.ctx.tenantEret }

/-! ### Control registers -/

/-- How a control register may be accessed, Tenant / Monitor (R70, R122). -/
inductive CrAccess | rw | mon | ro
  deriving DecidableEq, Repr

/-- The control registers of R70; none for a number that is unassigned. -/
def crAccess (n : BitVec 10) : Option CrAccess :=
  if n.toNat ≤ 0x004 ∨ (0x008 ≤ n.toNat ∧ n.toNat ≤ 0x00B) then some .ro
  else if 0x010 ≤ n.toNat ∧ n.toNat ≤ 0x013 then some .rw
  else if 0x020 ≤ n.toNat ∧ n.toNat ≤ 0x025 then some .rw
  else if n = 0x030 ∨ n = 0x031 ∨ n = 0x038 then some .ro
  else if n = 0x040 ∨ n = 0x041 then some .mon
  else if n = 0x042 then some .ro
  else if n = 0x0F0 then some .mon
  else none

/-- The stacks of a die (R22). -/
def stackOfDie (d : DieId) (n : Nat) : StackId := ⟨(3 * d.val + n) % 12, by omega⟩

/-- OUTDOM (R286): a domain has been formed for the package, and it does not belong to it; or a die or stack is in band 3 while the
package runs (R283). Log 95: DEDUCED. -/
def State.outdom (s : State) : Bool :=
  (s.domain.formed && !s.domain.member) ||
  (s.cold.state == ColdState.twilight && ((s.dies.toList.any fun x => x.band == 3) || s.hbmStacks.toList.any fun x => x.band == 3))

/-- BAND (R286). Log 95: DEDUCED. -/
def State.bandWord (s : State) (d : DieId) : W :=
  let x := s.dies[d]
  let st (n : Nat) := s.hbmStacks[stackOfDie d n]
  let kelvin := if x.temp / 10 < 1023 then x.temp / 10 else 1023
  let cs := match s.cold.state with
    | .warm => 0
    | .nightfall => 1
    | .cold => 2
    | .twilight => 3
    | .daybreak => 4
  BitVec.ofNat 64 (kelvin * 2 ^ 40 + cs * 2 ^ 32 + x.band.val * 2 ^ 28 + boolNat s.outdom * 2 ^ 24 +
    ((st 2).refresh.val * 2 ^ 20 + (st 1).refresh.val * 2 ^ 16 + (st 0).refresh.val * 2 ^ 12) +
    ((st 2).band.val * 2 ^ 8 + (st 1).band.val * 2 ^ 4 + (st 0).band.val))

/-- PEERUP (R15): the peer ports of a die that are trained and in service, to a package of the same slot domain. -/
def State.peerUp (s : State) (d : DieId) : BitVec 4 :=
  BitVec.ofNat 4 (((List.finRange 4).filter fun i => s.domain.member && (s.ports[(⟨4 * d.val + i.val, by omega⟩ : Fin 16)]).up).foldl
    (fun a i => a + 2 ^ i.val) 0)

/-- ORIENT (R15). -/
def State.orientWord (s : State) (d : DieId) : W :=
  let x := s.dies[d]
  BitVec.ofNat 64 ((s.peerUp d).toNat * 2 ^ 20 + x.stkUp.toNat * 2 ^ 16 + boolNat x.prevUp * 2 ^ 9 + boolNat x.nextUp * 2 ^ 8 +
    boolNat (d == 0) * 2 ^ 4 + d.val * 4 + d.val)

/-- PANEOWN_LO (from 0) and PANEOWN_HI (from 64) as a strand reads them (R321). -/
def State.paneOwn (s : State) (t : TileId) (q : SeqId) (mon : Bool) (lo : Nat) : W :=
  BitVec.ofNat 64 (((List.range 64).filter fun i =>
    let p := s.tiles[t].panes[(⟨(lo + i) % 128, by omega⟩ : Fin 128)]
    p.engine && (mon || p.seq == some q)).foldl (fun a i => a + 2 ^ i) 0)

/-- BAGDEPTH (R360): the runnable entries of a sequence on a tile, per priority, saturating. -/
def State.bagDepth (s : State) (t : TileId) (q : SeqId) : W :=
  let n (p : Nat) :=
    let l := (s.tiles[t].bag.filter fun e => e.seq == q && e.park == 0 && e.pri.val == p).length
    if l < 65535 then l else 65535
  BitVec.ofNat 64 (n 3 * 2 ^ 48 + n 2 * 2 ^ 32 + n 1 * 2 ^ 16 + n 0)

/-- PLACEMASK as it reads (R405). -/
def State.placemaskWord (s : State) (t : TileId) : W :=
  match s.tiles[t].part with
  | none => s.tiles[t].placemask
  | some p => match s.parts[p] with
    | none => s.tiles[t].placemask
    | some x => if x.blocks &&& s.tiles[t].placemask = 0 then x.blocks else x.blocks &&& s.tiles[t].placemask

/-- The trap registers that numbers 0x020 to 0x024 name at a strand's level (R224). -/
def Ctx.bank (c : Ctx) : TrapBank := if c.mon? then c.mon else c.trap

/-- A control register as a strand reads it (R70, R119). Log 14: DEDUCED. -/
def State.crRead (s : State) (t : TileId) (k : StrandId) (n : BitVec 10) : W :=
  let x := s.strandAt t k
  let c := x.ctx
  let core := s.tiles[t].core
  match n.toNat with
  | 0x000 => BitVec.ofNat 64 t.val
  | 0x001 => BitVec.ofNat 64 k.val
  | 0x002 => BitVec.ofNat 64 (seqNo x.seq).val
  | 0x003 => BitVec.ofNat 64 (match s.tiles[t].part with | some p => p.val | none => 0)
  | 0x004 => c.mode
  | 0x008 => BitVec.ofNat 64 s.domain.sid
  | 0x009 => BitVec.ofNat 64 core.cycle
  | 0x00A => s.bandWord (dieOf t)
  | 0x00B => s.orientWord (dieOf t)
  | 0x010 => c.chkctl
  | 0x011 => c.fpctl
  | 0x012 => c.fpflags
  | 0x013 => c.lfsr.setWidth 64
  | 0x020 => c.bank.cause
  | 0x021 => c.bank.pc
  | 0x022 => c.bank.val
  | 0x023 => c.bank.mask.extractLsb' 0 64
  | 0x024 => c.bank.mask.extractLsb' 64 64
  | 0x025 => if c.mon? then core.monvec else s.trapvec t k
  | 0x030 => s.paneOwn t x.seq c.mon? 0
  | 0x031 => s.paneOwn t x.seq c.mon? 64
  | 0x038 => c.batchnow
  | 0x040 => s.placemaskWord t
  | 0x041 => (s.tiles[t].seqOn x.seq).head &&& 0x00FFFFFFFFFFFFC0
  | 0x042 => s.bagDepth t x.seq
  | 0x0F0 => BitVec.ofNat 64 (boolNat core.injFired * 2 ^ 63 + boolNat core.injArmed * 2 ^ 62 + core.injSite.toNat)
  | _ => 0

/-- A write of one of the trap registers 0x020 to 0x024 (R70, R120, R224). -/
def TrapBank.write (b : TrapBank) (mon : Bool) (n : Nat) (x : W) : TrapBank :=
  match n with
  | 0x020 => { b with cause := x &&& (if mon then 0x3FF else 0xFF) }
  | 0x021 => { b with pc := x &&& 0xFFFFFFFFFFFFFFFC }
  | 0x022 => { b with val := x }
  | 0x023 => { b with mask := b.mask.extractLsb' 64 64 ++ x }
  | 0x024 => { b with mask := x ++ b.mask.extractLsb' 0 64 }
  | _ => b

/-- The effect of a write on the strand's own registers (R120). -/
def Ctx.crWrite (c : Ctx) (n : Nat) (x : W) : Ctx :=
  match n with
  | 0x010 => { c with chkctl := (x &&& 1) ||| (c.chkctl &&& 2 &&& ~~~x) }
  | 0x011 => { c with fpctl := x &&& 0x1F07 }
  | 0x012 => { c with fpflags := x &&& 0x3F }
  | 0x013 => { c with lfsr := lfsrState x }
  | 0x020 | 0x021 | 0x022 | 0x023 | 0x024 =>
    if c.mon? then { c with mon := c.mon.write true n x } else { c with trap := c.trap.write false n x }
  | _ => c

/-- A write of a control register that lands (R120, R121, R123, R231, R357, R405). -/
def State.landCr (s : State) (t : TileId) (k : StrandId) (n : BitVec 10) (x : W) : State :=
  let q := (s.strandAt t k).seq
  match n.toNat with
  | 0x025 =>
    if (s.strandAt t k).ctx.mon? then s.modCore t fun c => { c with monvec := x &&& 0xFFFFFFFFFFFFFFFC }
    else s.modTileSeq t q fun y => { y with trapvec := x &&& 0xFFFFFFFFFFFFFFFC }
  | 0x040 => s.modTile t fun y => { y with placemask := x }
  | 0x041 => s.modTileSeq t q fun y => { y with head := x &&& 0x00FFFFFFFFFFFFC0 }
  | 0x0F0 => s.modCore t fun c => { c with injFired := c.injFired && !x.getLsbD 63, injArmed := c.injArmed && !x.getLsbD 61 }
  | m => s.modStrandAt t k fun y => { y with ctx := y.ctx.crWrite m x }

/-! ### Landing (R40, R57, R63) -/

/-- A result that lands in the strand's registers: its fault or its enabled flags wait as a trap for this boundary. -/
def Ctx.landOne (c : Ctx) (l : Landing) : Ctx :=
  match l.fault with
  | some a => { c with due := c.due ++ [{ cause := .poison, val := a, mask := some 0 }] }
  | none =>
    let c0 := c.orFlags l.flags
    let c1 := match l.dest with
      | .v r => c0.setV r (blend (spread l.act 8 128) l.val (c0.v r))
      | .none | .g _ | .k _ | .cr _ => c0.write l.dest l.val
    if l.hot = 0 then c1 else { c1 with due := c1.due ++ [{ cause := .fp, val := l.ba, mask := some l.hot }] }

/-- A result that lands. -/
def State.landOne (s : State) (t : TileId) (k : StrandId) (l : Landing) : State :=
  match l.dest with
  | .cr n => s.landCr t k n (l.val.setWidth 64)
  | .none | .g _ | .v _ | .k _ => s.modStrandAt t k fun x => { x with ctx := x.ctx.landOne l }

/-- Results landed in order, and the others kept in flight. -/
def State.landList (s : State) (t : TileId) (k : StrandId) (now : List Landing) (rest : List Landing) : State :=
  (sortLandings now).foldl (fun a l => a.landOne t k l)
    (s.modStrandAt t k fun x => { x with ctx := { x.ctx with inflight := rest } })

/-- Every result due at the strand clock lands (R57). -/
def State.land (s : State) (t : TileId) (k : StrandId) : State :=
  let c := (s.strandAt t k).ctx
  s.landList t k (c.inflight.filter fun l => l.due ≤ c.clock) (c.inflight.filter fun l => c.clock < l.due)

/-- Every result in flight lands: the wait of ERET and HALT (R115, R118). -/
def State.landAll (s : State) (t : TileId) (k : StrandId) : State :=
  s.landList t k (s.strandAt t k).ctx.inflight []

/-- The trap that waits at the boundary is taken, with TRAPPC = the next bundle (R63); the others wait on. Log 70: DEDUCED. -/
def State.takeDue (s : State) (t : TileId) (k : StrandId) : State :=
  let c := (s.strandAt t k).ctx
  match c.due with
  | [] => s
  | d :: rest =>
    (s.modStrandAt t k fun x => { x with ctx := { x.ctx with due := rest } }).takeTrap t k d.cause d.val d.mask c.pc

/-- A trap of the current strand that waits for its next bundle boundary. -/
def State.addDue (s : State) (cause : Cause) (val : W) (mask : Option K) : State :=
  s.modCtx fun c => { c with due := c.due ++ [{ cause := cause, val := val, mask := mask }] }

/-! ### Words under issue -/

/-- ILLEGAL_OP or PRIV of the word at hand (R98): its bits and its position. -/
def State.badWord (s : State) (cause : Cause) : Verdict :=
  .trap cause (BitVec.ofNat 64 (s.issue.word.toNat + 2 ^ 32 * (s.issue.pos % 4)))

/-- ILLEGAL_OP of the word at hand where a condition holds. -/
def State.illegalIf (s : State) (b : Bool) : Verdict := if b then s.badWord .illegalOp else .pass

/-- The strand runs a rewrite. -/
def State.rewriting (s : State) : Option Rewrite :=
  match s.strand.work with
  | .rewrite r => some r
  | .free | .thread _ | .firmware => none

/-- The strand's sequence. -/
def State.q (s : State) : SeqId := s.strand.seq

/-- The strand runs at Monitor level. -/
def State.mon? (s : State) : Bool := s.ctx.mon?

/-- Who the strand's accesses are, for the keys (R426): its sequence, at either level. -/
def State.party (s : State) : Party := .seq s.q

/-- A walk queued for a miss, or joined (R408); none where the queue is full. -/
def State.queueWalk (s : State) (t : TileId) (q : SeqId) (acc : Access) (va : W) (tlb : Fin 4) (ch : ChanId) (who : Waiter) :
    State :=
  let x := s.tiles[t]
  let same (w : Walk) := w.seq == q && w.va.toNat / 4096 == va.toNat / 4096
  if x.walks.any same then
    let join (w : Walk) : Walk :=
      if same w then
        { w with who := if w.who.contains who then w.who else w.who ++ [who],
                 into := if w.into.contains (tlb, ch) then w.into else w.into ++ [(tlb, ch)] }
      else w
    s.modTile t fun y => { y with walks := y.walks.map join }
  else if 16 ≤ x.walks.length then s
  else s.modTile t fun y => { y with walks := y.walks ++
    [{ seq := q, va := va, acc := acc, into := [(tlb, ch)], who := [who] }] }

/-- Where a fetch of the current strand stands that its TLB translates: what it still misses is its line at the home (R276). -/
def State.fetchPlace (s : State) (va : W) : Option Place :=
  match s.xlate s.tile.tlbFetch s.cur s.q .fetch va with
  | .at_ pl _ => some pl
  | .fault _ | .miss => none

/-- What a verdict does to the strand whose bundle it stops (R54, R58, R60, R408): a trap with TRAPPC = the bundle address;
a wait, in which the strand clock stands; a walk. A trap at issue checks writes TRAPMASK := 0. -/
def State.stopBy (s : State) (v : Verdict) : State :=
  match v with
  | .pass => s
  | .trap c x => s.takeTrap s.cur s.curK c x (some 0) s.issue.ba
  | .stall => s
  | .wait => s.modStrand fun x => { x with waited := x.waited + 1 }
  | .miss acc va tlb =>
    let s1 := s.modStrand fun x => { x with waited := x.waited + 1 }
    match (if tlb = 3 then s.fetchPlace va else none) with
    | some pl => s1.askLines s.q [(pl, 4)]
    | none => s1.queueWalk s.cur s.q acc va tlb 0 (.thread s.cur s.strand.owner)

/-- A word of a bundle (R54): the verdict of its own check, where only that is asked; its check, where the bundle has not been
checked, and its effect. -/
def State.word (s : State) (check : Verdict) (effect : State → State) : Out :=
  if s.issue.probe then .next { s with issue := { s.issue with verdict := check } }
  else if s.issue.checked then .next (effect s)
  else match check with
    | .pass => .next (effect s)
    | .trap c x => .next (s.stopBy (.trap c x))
    | .stall => .next (s.stopBy .stall)
    | .wait => .next (s.stopBy .wait)
    | .miss acc va tlb => .next (s.stopBy (.miss acc va tlb))

/-! ### Accesses of the load/store pipeline -/

/-- The place of an address for the current strand, at either level (R124, R400). Log 12: DEDUCED. -/
def State.locate (s : State) (acc : Access) (va : W) : Option Place :=
  match s.xlate s.tile.tlbLoad s.cur s.q acc va with
  | .at_ pl _ => some pl
  | .fault _ | .miss => none

/-- The place lies in the strand's own tile store. -/
def State.ownStore (s : State) (pl : Place) : Bool :=
  match pl with
  | .win t _ => t == s.cur
  | .hbm .. => false

/-- The panes of the strand's own tile that n bytes at a place touch. -/
def State.touched (s : State) (pl : Place) (n : Nat) : List (Fin 128) :=
  match pl with
  | .win t off => if t = s.cur then panesOf off n else []
  | .hbm .. => []

/-- The translation of an access through the load/store TLB, with its permissions, those of the word itself, and the key slot,
in the order of R99 (R54, R124, R127, R402). -/
def State.xlateCheck (s : State) (acc : Access) (va : W) (perm : Place → Verdict) : Verdict :=
  match s.ctx.faultAt va with
  | some c => .trap c va
  | none => match s.xlateOpen s.tile.tlbLoad s.cur s.q acc va with
    | .fault c => .trap c va
    | .miss => .miss acc va 0
    | .at_ pl e => (perm pl).andThen (if s.entryVoid s.cur e then .trap .keyVoid va else .pass)

/-- The states of the own tile's panes under an access that has passed its translation (R322). -/
def State.paneStates (s : State) (acc : Access) (va : W) (n : Nat) : Verdict :=
  match s.locate acc va with
  | some pl => panesState s.tile (s.touched pl n) (acc != .read)
  | none => .pass

/-- The checks of an access of n bytes whose word has a permission check of its own (R54, R99, R124, R125, R320, R322, R402):
alignment, translation with its permissions, the tags of the strand's own panes, the key slot, and the panes' states. -/
def State.accessCheckFor (s : State) (acc : Access) (align : Nat) (va : W) (n : Nat) (perm : Place → Verdict) : Verdict :=
  if va.toNat % align ≠ 0 then .trap .misalign va
  else
    (s.xlateCheck acc va fun pl => (perm pl).andThen (panesTagged s.tile s.q s.mon? (s.touched pl n) va)).andThen
      (s.paneStates acc va n)

/-- The checks of an access of n bytes (R54, R99, R124, R125, R320, R322, R402). -/
def State.accessCheck (s : State) (acc : Access) (align : Nat) (va : W) (n : Nat) : Verdict :=
  s.accessCheckFor acc align va n fun _ => .pass

/-- The most recently used entry stands first (R407). -/
def touchTlb (l : List TlbEntry) (q : SeqId) (va : W) : List TlbEntry :=
  match l.find? fun e => e.covers q va with
  | some e => e :: l.filter fun x => x != e
  | none => l

/-- An access counts as a use of its TLB entry. -/
def State.touch (s : State) (va : W) : State :=
  s.modTile s.cur fun x => { x with tlbLoad := touchTlb x.tlbLoad s.q va }

end Sys2Proof.Machine
end

