-- ==== Sys2Proof/Machine/Operands.lean ====
section
/-! DEFINITION. Operand forms of the memory words: what a load reads through the strand's own stores (spec/06 R127, R137),
the waits that order a strand's own accesses (R130, R131), addresses of panes and barriers (R143, R145), the barrier object
(R145, R146) and the events that wake threads (spec/05 R116). -/

namespace Sys2Proof.Machine

/-! ### Bytes of places -/

/-- Two spans of bytes overlap. -/
def overlaps (a n b m : Nat) : Bool := decide (a < b + m) && decide (b < a + n)

/-- Two places' spans share a byte. Windows are compared by their RAW bytes. -/
def Place.meets (a : Place) (n : Nat) (b : Place) (m : Nat) : Bool :=
  match a, b with
  | .hbm x _, .hbm y _ => overlaps x n y m
  | .win t x, .win u y => t == u && overlaps (rawSpan x n).1 (rawSpan x n).2 (rawSpan y m).1 (rawSpan y m).2
  | .hbm .., .win .. | .win .., .hbm .. => false

/-- The bytes of a place that a write of m bytes at another covers, as (offset, byte). -/
def Place.covered (a : Place) (n : Nat) (b : Place) (bs : List Byte) : List (Nat × Byte) :=
  let start : Option Nat := match a, b with
    | .hbm x _, .hbm y _ => if x ≤ y + bs.length then some (y + 2 ^ 60 - x) else none
    | .win t x, .win u y => if t = u then some (y + 2 ^ 60 - x) else none
    | .hbm .., .win .. | .win .., .hbm .. => none
  match start with
  | none => []
  | some o => (bs.zipIdx.filterMap fun (b, i) =>
      if 2 ^ 60 ≤ o + i ∧ o + i < 2 ^ 60 + n then some (o + i - 2 ^ 60, b) else none)

/-- Bytes replaced by newer ones at their offsets. -/
def overlay (bs : List Byte) (new : List (Nat × Byte)) : List Byte :=
  bs.zipIdx.map fun (b, i) => (new.foldl (fun a x => if x.1 = i then x.2 else a) b)

/-- A number from bytes, as a wide value. -/
def bytesV (bs : List Byte) : V := BitVec.ofNat 1024 (leNat bs)

/-- The request of a message, where it is a memory request. -/
def Body.req : Body → Option Req
  | .read r => some r
  | .write r _ => some r
  | .amo r _ _ _ => some r
  | .slice r _ _ _ => some r
  | .readRsp .. | .amoRsp .. | .pair .. | .netop .. | .netrsp .. | .borrow | .msg .. | .creditWords .. | .creditSeq _
  | .ack _ | .recall _ => none

/-- Two spans of places meet at a line of HBM or at a pane of a store, where requests are served in the order of their arrival (R276,
R323). -/
def Place.sameUnit (a : Place) (n : Nat) (b : Place) (m : Nat) : Bool :=
  match a, b with
  | .hbm x _, .hbm y _ => decide (x / 64 ≤ (y + m - 1) / 64) && decide (y / 64 ≤ (x + n - 1) / 64)
  | .win t x, .win u y => t == u && (panesOf x n).any fun p => (panesOf y m).contains p
  | .hbm .., .win .. | .win .., .hbm .. => false

/-- Two requests meet at one line of HBM or one pane of a store. -/
def Req.meets (a b : Req) : Bool := a.pl.sameUnit a.n b.pl b.n

/-! ### A strand's own stores that are not performed -/

/-- The write that a message carries and that is not performed, where it is a work's. -/
def Msg.writeOf (m : Msg) (owner : Nat) : Option (Place × List Byte) :=
  match m.body with
  | .write r x => if r.owner = owner ∧ m.served = false then some (r.pl, leBytes r.n x.toNat) else none
  | .read _ | .readRsp .. | .amo .. | .amoRsp .. | .pair .. | .netop .. | .netrsp .. | .borrow | .msg .. | .creditWords ..
  | .creditSeq _ | .ack _ | .recall _ | .slice .. => none

/-- The place of an atomic that a message carries and that is not performed, where it is a work's. -/
def Msg.amoOf (m : Msg) (owner : Nat) : Option (Place × Nat) :=
  match m.body with
  | .amo r _ _ _ => if r.owner = owner ∧ m.served = false then some (r.pl, r.n) else none
  | .read _ | .write .. | .readRsp .. | .amoRsp .. | .pair .. | .netop .. | .netrsp .. | .borrow | .msg ..
  | .creditWords .. | .creditSeq _ | .ack _ | .recall _ | .slice .. => none

/-- The stores of a commit buffer's entries, oldest first (R137, R358). -/
def State.bufferedWrites (s : State) (t : TileId) (q : SeqId) (r : Rewrite) : List (Place × List Byte) :=
  r.buf.flatMap fun
    | .stores cells => cells.map fun (pl, _, n, x) => (pl, leBytes n x.toNat)
    | .init node header addr => match s.nodePlace q t (lineOf node) with
      | some pl => [(pl, leBytes 8 header.toNat ++ leBytes 32 0 ++ leBytes 8 addr.toNat ++ leBytes 16 0)]
      | none => []
    | .amos .. | .link .. | .free _ | .slice .. | .push .. | .spawn .. | .send .. => []

/-- The strand's stores that no other observer has seen yet, oldest first (R127, R137). -/
def State.ownWrites (s : State) : List (Place × List Byte) :=
  match s.rewriting with
  | some r => s.bufferedWrites s.cur s.q r
  | none => s.relay.filterMap fun m => m.writeOf s.strand.owner

/-- The bytes of n at a place that the strand's own unperformed stores give. -/
def State.forwarded (s : State) (pl : Place) (n : Nat) : List (Nat × Byte) :=
  s.ownWrites.flatMap fun w => pl.covered n w.1 w.2

/-- The bytes that an access of n bytes at a place decodes: those of the RAW alias behind a decode alias (R318), else its own. -/
def Place.base (pl : Place) (n : Nat) : Place × Nat :=
  match pl with
  | .hbm .. => (pl, n)
  | .win t off => if (windowView off).1 = View.raw then (pl, n) else (.win t (rawSpan off n).1, (rawSpan off n).2)

/-- n bytes at a place with newer bytes over those that the access decodes (R127, R318). -/
def State.readThrough (s : State) (p : Party) (pl : Place) (n : Nat) (new : List (Nat × Byte)) : List Byte :=
  match pl with
  | .hbm .. => overlay (s.readPlace p pl n) new
  | .win t off =>
    if (windowView off).1 = View.raw then overlay (s.readPlace p pl n) new
    else
      let b := pl.base n
      (s.setBytes (s.keyFor p (dieOf t)) (storeKey t (rawSpan off n).1) (overlay (s.readPlace p b.1 b.2) new)).readPlace p pl n

/-- The bytes of those that an access decodes which the strand's own unperformed stores give. -/
def State.forwardedTo (s : State) (pl : Place) (n : Nat) : List (Nat × Byte) := s.forwarded (pl.base n).1 (pl.base n).2

/-- n bytes as the strand reads them at a place now. -/
def State.strandBytes (s : State) (pl : Place) (n : Nat) : List Byte := s.readThrough s.party pl n (s.forwardedTo pl n)

/-! ### Waits that order a strand's own accesses -/

/-- An acquire of the strand has not read its value: no later memory word is performed (R130, R135). Log 19: DEDUCED. -/
def State.acquireWait (s : State) : Verdict := if s.ctx.pends.any (·.acq) then .wait else .pass

/-- A release of the strand is not performed: an acquire waits for it (R339, R341). Log 110: DEDUCED. -/
def State.releaseWait (s : State) : Verdict := if s.ctx.pends.any (·.rel) then .wait else .pass

/-- A store or an atomic of the strand through its own window is not performed. -/
def State.heldOwn (s : State) : Bool :=
  s.relay.any fun m =>
    (match m.amoOf s.strand.owner with
     | some (.win t _, _) => t == s.cur
     | some (.hbm .., _) | none => false) ||
    match m.writeOf s.strand.owner with
    | some (.win t _, _) => t == s.cur
    | some (.hbm .., _) | none => false

/-- An access to the strand's own tile store waits for the strand's held stores and atomics there: accesses through the own window are
performed in program order (R339). Log 19: DEDUCED. -/
def State.heldWait (s : State) (pl : Place) : Verdict := if s.ownStore pl && s.heldOwn then .wait else .pass

/-- The checks of a scalar memory access and the waits that order it. -/
def State.memCheck (s : State) (acc : Access) (va : W) (n : Nat) : Verdict :=
  ((s.accessCheck acc n va n).andThen s.acquireWait).andThen
    (match s.locate acc va with
     | some pl => s.heldWait pl
     | none => .pass)

/-! ### Requests -/

/-- A request of the current strand. -/
def State.req (s : State) (pl : Place) (n : Nat) (pend at_ : Nat) (va : W) (fwd : List (Nat × Byte)) : Req :=
  { pl := pl, n := n, seq := s.q, tile := s.cur, owner := s.strand.owner, pend := pend, at_ := at_, va := va, fwd := fwd, more := [] }

/-- The operations that a release waits for (R130): the strand's memory words that are not performed. -/
def State.releaseAfter (s : State) : List (Nat × Nat) := s.ctx.unperformed s.strand.owner

/-- The acquires of the strand that have not read their values. A memory word of a later bundle does not issue before they have;
one of the same bundle is sent behind them (R130, R339). Log 19: DEDUCED. -/
def State.acquires (s : State) : List (Nat × Nat) := (s.ctx.pends.filter (·.acq)).map fun p => (s.strand.owner, p.uid)

/-- The releases of the strand that are not performed: an acquire is sent behind them (R339). -/
def State.releases (s : State) : List (Nat × Nat) := (s.ctx.pends.filter (·.rel)).map fun p => (s.strand.owner, p.uid)

/-- The stores of the bundle under way that have been sent, apart from its releases: a later ST of the bundle is performed after them
(R129, R339). -/
def State.bundleStores (s : State) : List (Nat × Nat) :=
  (s.ctx.pends.filter fun p => s.issue.first ≤ p.uid && !p.rel && s.relay.any fun m => match m.body with
    | .write r _ => r.owner == s.strand.owner && r.pend == p.uid
    | .read _ | .readRsp .. | .amo .. | .amoRsp .. | .pair .. | .netop .. | .netrsp .. | .borrow | .msg .. | .creditWords ..
    | .creditSeq _ | .ack _ | .recall _ | .slice .. => false).map fun p => (s.strand.owner, p.uid)

/-- The strand's own requests to the line or pane of an access that must be performed before it, where they take another way than the
access or are still held back (R131, R136): a message is named by (0, its number). -/
def State.sameLine (s : State) (pl : Place) (n : Nat) (dst : TileId) : List (Nat × Nat) :=
  s.relay.filterMap fun m => match m.body.req with
    | some r =>
      if r.owner == s.strand.owner && m.src == s.cur && !m.served && (m.dst != dst || !m.after.isEmpty) &&
          r.pl.sameUnit r.n pl n then some (0, m.uid)
      else none
    | none => none

/-- A message of the current strand to a tile that performs its access to a place. -/
def State.requestTo (s : State) (dst : TileId) (pl : Place) (n : Nat) (body : Body) (after : List (Nat × Nat)) : State :=
  s.send s.cur dst (partOf s.q) body (after ++ s.sameLine pl n dst)

/-- A message of the current strand to the server of a place, or to its own tile where its near buffer holds the line
(R136). -/
def State.request (s : State) (pl : Place) (n : Nat) (body : Body) (after : List (Nat × Nat)) : State :=
  let near := match pl with
    | .hbm pa _ => s.tile.near.contains (pa / 64)
    | .win .. => false
  s.requestTo (if near then s.cur else pl.server) pl n body after

/-- Requests of the current strand each of which is performed after the one before it (R139). -/
def State.requests (s : State) (after : List (Nat × Nat)) (prev : Option Nat) : List (Place × Nat × Body) → State
  | [] => s
  | (pl, n, b) :: l =>
    (s.request pl n b (after ++ prev.toList.map fun u => (0, u))).requests after (some s.fresh) l

/-! ### Waiting for lines (R276) -/

/-- The wait for absent lines: the agent asks for those that have not been asked for, and waits for the others. -/
def State.linesVerdict (s : State) (l : List (Place × Nat)) : Verdict :=
  match s.absent l with
  | [] => .pass
  | y :: ys => if (y :: ys).all fun z => s.lineAsked z.1 z.2 then .wait else .stall

/-! ### Addresses of panes and barriers -/

/-- The RAW offset of an address in the strand's own window. -/
def State.ownRaw (s : State) (acc : Access) (va : W) : Option Nat :=
  match s.locate acc va with
  | some (.win t off) => if t = s.cur ∧ off < 0x80000 then some off else none
  | some (.hbm ..) | none => none

/-- PERMISSION where a place does not lie in the RAW alias of the strand's own window (R143, R145). -/
def State.rawOnly (s : State) (va : W) (pl : Place) : Verdict :=
  match pl with
  | .win t off => if t = s.cur ∧ off < 0x80000 then .pass else .trap .permission va
  | .hbm .. => .trap .permission va

/-- The pane that an address in the strand's own window names (R143). -/
def State.paneAt (s : State) (acc : Access) (va : W) : Fin 128 :=
  match s.ownRaw acc va with
  | some off => ⟨off / 4096 % 128, by omega⟩
  | none => 0

/-! ### Events (R116) -/

/-- The event bit of a work's context is set; a thread in SLEEP becomes SAVED. Log 11: DESIGN CHOICE. Log 76: DEDUCED. -/
def State.setEvent (s : State) (t : TileId) (owner : Nat) : State :=
  let s1 := s.modWork t owner fun c => { c with event := true }
  match s1.tiles[t].core.threadOf owner with
  | some i => s1.modThread t i fun th => if th.state = .sleep then { th with state := .saved } else th
  | none => s1

/-- The numbers of the works of a tile that hold an event bit, of a sequence where one is given. Log 76: DEDUCED. -/
def State.eventOwners (s : State) (t : TileId) (q : Option SeqId) : List Nat :=
  let c := s.tiles[t].core
  let mine (x : SeqId) : Bool := match q with
    | none => true
    | some y => x == y
  let strands := (List.finRange 8).filterMap fun k => match c.strands[k].work with
    | .rewrite _ => if mine c.strands[k].seq then some c.strands[k].owner else none
    | .free | .thread _ | .firmware => none
  let threads := (List.finRange 32).filterMap fun i => match c.threads[i] with
    | some th => if mine th.seq then some th.owner else none
    | none => none
  strands ++ threads

/-- The event bits of every thread and running rewrite of a tile, or of one sequence there, set (R116). Log 11: DESIGN CHOICE. -/
def State.wake (s : State) (t : TileId) (q : Option SeqId) : State :=
  (s.eventOwners t q).foldl (fun a o => a.setEvent t o) s

/-! ### The barrier object (R145, R146) -/

/-- PHASE. -/
def barPhase (b : W) : Bool := b.getLsbD 63
/-- KEEPQ. -/
def barKeep (b : W) : Bool := b.getLsbD 62
/-- EXPECT. -/
def barExpect (b : W) : Nat := field b 50 12
/-- ARRIVED. -/
def barArrived (b : W) : Nat := field b 38 12
/-- QUOTA. -/
def barQuota (b : W) : Nat := field b 19 19
/-- FILLED. -/
def barFilled (b : W) : Nat := field b 0 19

/-- A barrier word from its fields. -/
def barWord (phase keep : Bool) (expect arrived quota filled : Nat) : W :=
  BitVec.ofNat 64 (boolNat phase * 2 ^ 63 + boolNat keep * 2 ^ 62 + expect % 2 ^ 12 * 2 ^ 50 + arrived % 2 ^ 12 * 2 ^ 38 +
    quota % 2 ^ 19 * 2 ^ 19 + filled % 2 ^ 19)

/-- Check (R146): the barrier after it, and whether its phase flipped. -/
def barCheck (b : W) : W × Bool :=
  if barArrived b = barExpect b ∧ barQuota b ≤ barFilled b then
    (barWord (!barPhase b) (barKeep b) (barExpect b) 0 (if barKeep b then barQuota b else 0) 0, true)
  else (b, false)

/-- BINIT's word (R146). -/
def barInit (g : W) : W := barWord (g.getLsbD 12) (g.getLsbD 13) (field g 0 12) 0 (field g 32 19) 0

/-- Land (R146): none where it is refused. -/
def barLand (b : W) (n : Nat) : Option (W × Bool) :=
  if 2 ^ 19 ≤ barFilled b + n then none
  else some (barCheck (barWord (barPhase b) (barKeep b) (barExpect b) (barArrived b) (barQuota b) (barFilled b + n)))

/-- Arrive (R146): none where it is refused. -/
def barArrive (b : W) : Option (W × Bool) :=
  if barArrived b = barExpect b then none
  else some (barCheck (barWord (barPhase b) (barKeep b) (barExpect b) (barArrived b + 1) (barQuota b) (barFilled b)))

/-- BEXPECT: none where the sum is too large. -/
def barRaise (b : W) (n : Nat) : Option (W × Bool) :=
  if 2 ^ 19 ≤ barQuota b + n then none
  else some (barCheck (barWord (barPhase b) (barKeep b) (barExpect b) (barArrived b) (barQuota b + n) (barFilled b)))

/-- The barrier object of a sequence at an offset of a tile's store. -/
def State.barrier (s : State) (q : SeqId) (t : TileId) (off : Nat) : W :=
  BitVec.ofNat 64 (s.readNum (.seq q) (.win t off) 8)

/-- A barrier object written; a flip wakes the tile (R116, R331). -/
def State.setBarrier (s : State) (q : SeqId) (t : TileId) (off : Nat) (r : W × Bool) : State :=
  let s1 := s.writeNum (.seq q) (.win t off) 8 r.1.toNat
  if r.2 then s1.wake t none else s1

/-! ### The commit buffer (R137, R366) -/

/-- The rewrite of the current strand changed. Log 55: DEDUCED. -/
def State.modRewrite (s : State) (f : Rewrite → Rewrite) : State :=
  s.modStrand fun x => match x.work with
    | .rewrite r => { x with work := .rewrite (f r) }
    | .free | .thread _ | .firmware => x

/-- An entry of the commit buffer; the 129th raises COMMIT_OVERFLOW (R137, R214). Log 55: DEDUCED. -/
def State.commit (s : State) (e : Commit) : State :=
  match s.rewriting with
  | none => s
  | some r =>
    if 128 ≤ r.buf.length then
      let s1 := s.takeTrap s.cur s.curK .commitOverflow s.issue.ba (some 0) s.issue.ba
      { s1 with issue := { s1.issue with atEnd := true } }
    else s.modRewrite fun r => { r with buf := r.buf ++ [e] }

end Sys2Proof.Machine
end

