-- ==== Sys2Proof/Machine/Fetch.lean ====
section
/-! DEFINITION. Instruction fetch (spec/03 R53, spec/06 R133, spec/25 R416): the words that a strand's fetch finds at an
address, and the end bundle that a loop word locates (spec/05 R112). -/

namespace Sys2Proof.Machine

/-- What the fetch of a word answers. -/
inductive Fetched
  | word (w : Nat)
  | fault (c : Cause) (at_ : W)
  | miss (at_ : W)
  deriving DecidableEq, Repr

/-- The instruction-cache line that holds an address of a sequence (R133). -/
def Core.iline (c : Core) (q : SeqId) (va : W) : Option ILine :=
  c.icache.find? fun l => l.seq == q && l.line == va.toNat / 64

/-- The word that four bytes hold. -/
def wordOfBytes : List Byte → Nat
  | [b0, b1, b2, b3] => bytesWord b0 b1 b2 b3
  | _ => 0

/-- The line at an address as memory holds it: its bytes and whether one of its granules is poisoned (R304). -/
def State.memLine (s : State) (p : Party) (pl : Place) (q : SeqId) (va : W) : ILine :=
  let base := match pl with
    | .hbm pa home => Place.hbm (pa - pa % 64) home
    | .win t off => Place.win t (off - off % 64)
  { seq := q, line := va.toNat / 64, bytes := s.readPlace p base 64, poison := s.placeBad base 64 }

/-- The line of an address for the current strand: from the instruction cache, else from memory through the fetch TLB, once it stands at
its home (R276). A walk that ended in a fault is told once (R416). -/
def State.fetchLine (s : State) (va : W) : Except Fetched ILine :=
  match s.tile.core.iline s.q va with
  | some l => .ok l
  | none =>
    if s.mon? then .ok (s.memLine .firmware (.hbm va.toNat s.cur) s.q va)
    else match s.ctx.faultAt va with
      | some c => .error (.fault c va)
      | none => match s.xlate s.tile.tlbFetch s.cur s.q .fetch va with
        | .at_ pl _ => if (s.absent [(pl, 4)]).isEmpty then .ok (s.memLine (.seq s.q) pl s.q va) else .error (.miss va)
        | .fault c => .error (.fault c va)
        | .miss => .error (.miss va)

/-- The word at an address (R53): poisoned data faults (R304). Instruction words stand at addresses that are multiples of 4 (R51), and
spec/ does not say what a fetch at another address does, where a thread enters or resumes at one: here the four bytes from it, those
past its 64-byte line read as 0. Log 115: DESIGN CHOICE. -/
def State.fetchWord (s : State) (va : W) : Fetched :=
  match s.fetchLine va with
  | .error f => f
  | .ok l => if l.poison then .fault .poison va else .word (wordOfBytes ((l.bytes.drop (va.toNat % 64)).take 4))

/-- What the fetch of a bundle answers: its words, the last with E = 1 unless there are four without. -/
inductive Bundle
  | words (l : List Nat)
  | stop (f : Fetched)
  deriving DecidableEq, Repr

/-- The words of a bundle from an address (R53), at most n. -/
def State.fetchBundle (s : State) (va : W) : Nat → Bundle
  | 0 => .words []
  | n + 1 => match s.fetchWord va with
    | .word w =>
      if w / 2 ^ 31 % 2 = 1 then .words [w]
      else match s.fetchBundle (va + 4) n with
        | .words l => .words (w :: l)
        | .stop f => .stop f
    | .fault c a => .stop (.fault c a)
    | .miss a => .stop (.miss a)

/-- The address of the n-th bundle from an address, counting from 1, and the address after it (R112): a run of four words with
E = 0 counts as one bundle. -/
def State.findBundle (s : State) (va : W) : Nat → Except Fetched (W × W)
  | 0 => .ok (va, va)
  | n + 1 => match s.fetchBundle va 4 with
    | .words l =>
      let next := va + BitVec.ofNat 64 (4 * l.length)
      if n = 0 then .ok (va, next) else s.findBundle next n
    | .stop f => .error f

/-- The verdict that a fetch's end gives (R54, R416). -/
def Fetched.verdict : Fetched → Verdict
  | .word _ => .pass
  | .fault c a => .trap c a
  | .miss a => .miss .fetch a 3

/-- A line put into the instruction cache, of 64 KiB: which line it replaces is not architectural (R19). Log 23: DESIGN CHOICE. -/
def State.keepLine (s : State) (va : W) : State :=
  match s.tile.core.iline s.q va with
  | some _ => s
  | none => match s.fetchLine va with
    | .error _ => s
    | .ok l =>
      let s := match s.xlate s.tile.tlbFetch s.cur s.q .fetch va with
        | .at_ pl _ => (s.correct pl 4).useLines [(pl, 4)]
        | .fault _ | .miss => s
      let old := s.tile.core.icache
      let kept := if old.length < 1024 then old else old.eraseIdx (Config.victim s.free % 1024)
      let s1 := if old.length < 1024 then s else s.useFree
      let s2 := s1.modCore s.cur fun c => { c with icache := l :: kept }
      s2.modTile s.cur fun x => { x with tlbFetch := touchTlb x.tlbFetch s.q va }

/-- The lines of a bundle of n words kept. Log 23: DESIGN CHOICE. -/
def State.keepLines (s : State) (va : W) (n : Nat) : State :=
  if s.mon? then s else (s.keepLine va).keepLine (va + BitVec.ofNat 64 (4 * (n - 1)))

end Sys2Proof.Machine
end

