-- ==== Sys2Proof/Machine/Scalar.lean ====
section
/-! DEFINITION. The scalar, immediate, multiply and divide words, control transfers, hardware loops, system forms and
control-register words (spec/05 R100–R123; majors 0x01–0x0A). -/

namespace Sys2Proof.Machine

/-! ### Shared operations -/

/-- A scalar result of the current strand, landing after a latency (R56, R57); g0 captures nothing (R65). -/
def State.scalar (s : State) (d : GReg) (x : W) (lat : Nat) : State :=
  if d = 0 then s else s.later (.g d) (x.setWidth 1024) lat

/-- 1 where a condition holds, else 0. -/
def bit64 (b : Bool) : W := if b then 1 else 0

/-- Bits of a number below a width that are 1. -/
def countOnes (x : Nat) : Nat → Nat
  | 0 => 0
  | n + 1 => countOnes x n + x / 2 ^ n % 2

/-- Leading zeros of a value of a width (R101, R150). -/
def leadingZeros (w x : Nat) : Nat := if x = 0 then w else w - 1 - Nat.log2 x

/-- The lowest set bit's position below a width, the width where there is none. -/
def trailingZeros (x : Nat) : Nat → Nat
  | 0 => 0
  | n + 1 => if x % 2 = 1 then 0 else 1 + trailingZeros (x / 2) n

/-- EXTR under a control word (R101). -/
def extract (a ctl : W) : W :=
  let len := bitsAt ctl.toNat 6 6 + 1
  let f := a.toNat / 2 ^ bitsAt ctl.toNat 0 6 % 2 ^ len
  if ctl.getLsbD 12 && f / 2 ^ (len - 1) % 2 == 1 then BitVec.ofNat 64 (2 ^ 64 - 2 ^ len + f) else BitVec.ofNat 64 f

/-- INSR under a control word (R101). -/
def insert (d a ctl : W) : W :=
  let mask : W := BitVec.ofNat 64 (2 ^ (bitsAt ctl.toNat 6 6 + 1) - 1) <<< bitsAt ctl.toNat 0 6
  (d &&& ~~~mask) ||| (a <<< bitsAt ctl.toNat 0 6 &&& mask)

/-- A 12-bit immediate sign-extended (R74). -/
def sx12 (i : BitVec 12) : W := i.signExtend 64
/-- A 9-bit immediate sign-extended. -/
def sx9 (i : BitVec 9) : W := i.signExtend 64

/-! ### Register forms (R101) -/

/-- ADD. -/
def execAdd (d a b : GReg) (s : State) : Out := s.word .pass fun s => s.scalar d (s.g a + s.g b) 1
/-- SUB. -/
def execSub (d a b : GReg) (s : State) : Out := s.word .pass fun s => s.scalar d (s.g a - s.g b) 1
/-- AND. -/
def execAnd (d a b : GReg) (s : State) : Out := s.word .pass fun s => s.scalar d (s.g a &&& s.g b) 1
/-- OR. -/
def execOr (d a b : GReg) (s : State) : Out := s.word .pass fun s => s.scalar d (s.g a ||| s.g b) 1
/-- XOR. -/
def execXor (d a b : GReg) (s : State) : Out := s.word .pass fun s => s.scalar d (s.g a ^^^ s.g b) 1
/-- ANDN. -/
def execAndn (d a b : GReg) (s : State) : Out := s.word .pass fun s => s.scalar d (s.g a &&& ~~~s.g b) 1
/-- ORN. -/
def execOrn (d a b : GReg) (s : State) : Out := s.word .pass fun s => s.scalar d (s.g a ||| ~~~s.g b) 1
/-- SHL. -/
def execShl (d a b : GReg) (s : State) : Out :=
  s.word .pass fun s => s.scalar d (s.g a <<< ((s.g b).toNat % 64)) 1
/-- SHR. -/
def execShr (d a b : GReg) (s : State) : Out :=
  s.word .pass fun s => s.scalar d (s.g a >>> ((s.g b).toNat % 64)) 1
/-- SHA. -/
def execSha (d a b : GReg) (s : State) : Out :=
  s.word .pass fun s => s.scalar d ((s.g a).sshiftRight ((s.g b).toNat % 64)) 1
/-- ROL. -/
def execRol (d a b : GReg) (s : State) : Out :=
  s.word .pass fun s => s.scalar d ((s.g a).rotateLeft ((s.g b).toNat % 64)) 1
/-- SLT. -/
def execSlt (d a b : GReg) (s : State) : Out := s.word .pass fun s => s.scalar d (bit64 ((s.g a).slt (s.g b))) 1
/-- SLTN. -/
def execSltn (d a b : GReg) (s : State) : Out := s.word .pass fun s => s.scalar d (bit64 ((s.g a).ult (s.g b))) 1
/-- SEQ. -/
def execSeq (d a b : GReg) (s : State) : Out := s.word .pass fun s => s.scalar d (bit64 (s.g a == s.g b)) 1
/-- SNE. -/
def execSne (d a b : GReg) (s : State) : Out := s.word .pass fun s => s.scalar d (bit64 (s.g a != s.g b)) 1
/-- MIN. -/
def execMin (d a b : GReg) (s : State) : Out :=
  s.word .pass fun s => s.scalar d (if (s.g b).slt (s.g a) then s.g b else s.g a) 1
/-- MAX. -/
def execMax (d a b : GReg) (s : State) : Out :=
  s.word .pass fun s => s.scalar d (if (s.g a).slt (s.g b) then s.g b else s.g a) 1
/-- MINN. -/
def execMinn (d a b : GReg) (s : State) : Out :=
  s.word .pass fun s => s.scalar d (if (s.g b).ult (s.g a) then s.g b else s.g a) 1
/-- MAXN. -/
def execMaxn (d a b : GReg) (s : State) : Out :=
  s.word .pass fun s => s.scalar d (if (s.g a).ult (s.g b) then s.g b else s.g a) 1
/-- CSEL: gd is read as a source. -/
def execCsel (d a b : GReg) (s : State) : Out :=
  s.word .pass fun s => s.scalar d (if s.g d ≠ 0 then s.g a else s.g b) 1
/-- EXTR. -/
def execExtr (d a b : GReg) (s : State) : Out := s.word .pass fun s => s.scalar d (extract (s.g a) (s.g b)) 1
/-- INSR: gd is read as a source. -/
def execInsr (d a b : GReg) (s : State) : Out := s.word .pass fun s => s.scalar d (insert (s.g d) (s.g a) (s.g b)) 1
/-- LEA. -/
def execLea (d a b : GReg) (s : State) : Out := s.word .pass fun s => s.scalar d (s.g a + s.g b <<< 6) 1
/-- CLZ. -/
def execClz (d a : GReg) (s : State) : Out :=
  s.word .pass fun s => s.scalar d (BitVec.ofNat 64 (leadingZeros 64 (s.g a).toNat)) 1
/-- CTZ. -/
def execCtz (d a : GReg) (s : State) : Out :=
  s.word .pass fun s => s.scalar d (BitVec.ofNat 64 (trailingZeros (s.g a).toNat 64)) 1
/-- POPC. -/
def execPopc (d a : GReg) (s : State) : Out :=
  s.word .pass fun s => s.scalar d (BitVec.ofNat 64 (countOnes (s.g a).toNat 64)) 1
/-- BREV. -/
def execBrev (d a : GReg) (s : State) : Out := s.word .pass fun s => s.scalar d (s.g a).reverse 1

/-! ### Immediate forms (R102, R103) -/

/-- ADDI. -/
def execAddi (d a : GReg) (i : BitVec 12) (s : State) : Out := s.word .pass fun s => s.scalar d (s.g a + sx12 i) 1
/-- ANDI. -/
def execAndi (d a : GReg) (i : BitVec 9) (s : State) : Out := s.word .pass fun s => s.scalar d (s.g a &&& sx9 i) 1
/-- ORI. -/
def execOri (d a : GReg) (i : BitVec 9) (s : State) : Out := s.word .pass fun s => s.scalar d (s.g a ||| sx9 i) 1
/-- XORI. -/
def execXori (d a : GReg) (i : BitVec 9) (s : State) : Out := s.word .pass fun s => s.scalar d (s.g a ^^^ sx9 i) 1
/-- SHLI. -/
def execShli (d a : GReg) (i : BitVec 6) (s : State) : Out := s.word .pass fun s => s.scalar d (s.g a <<< i.toNat) 1
/-- SHRI. -/
def execShri (d a : GReg) (i : BitVec 6) (s : State) : Out := s.word .pass fun s => s.scalar d (s.g a >>> i.toNat) 1
/-- SHAI. -/
def execShai (d a : GReg) (i : BitVec 6) (s : State) : Out :=
  s.word .pass fun s => s.scalar d ((s.g a).sshiftRight i.toNat) 1
/-- SLTI. -/
def execSlti (d a : GReg) (i : BitVec 9) (s : State) : Out :=
  s.word .pass fun s => s.scalar d (bit64 ((s.g a).slt (sx9 i))) 1
/-- SLTNI. -/
def execSltni (d a : GReg) (i : BitVec 9) (s : State) : Out :=
  s.word .pass fun s => s.scalar d (bit64 ((s.g a).ult (sx9 i))) 1
/-- SEQI. -/
def execSeqi (d a : GReg) (i : BitVec 9) (s : State) : Out :=
  s.word .pass fun s => s.scalar d (bit64 (s.g a == sx9 i)) 1
/-- LIMM: gd is read as a source. -/
def execLimm (d : GReg) (i : BitVec 16) (s : State) : Out :=
  s.word .pass fun s => s.scalar d (s.g d <<< 16 ||| i.setWidth 64) 1
/-- ADDPC: the bundle's address and a count of words. -/
def execAddpc (d : GReg) (i : BitVec 16) (s : State) : Out :=
  s.word .pass fun s => s.scalar d (s.issue.ba + i.signExtend 64 <<< 2) 1

/-! ### Multiply and divide (R104–R106) -/

/-- MUL. -/
def execMul (d a b : GReg) (s : State) : Out := s.word .pass fun s => s.scalar d (s.g a * s.g b) 3
/-- MULH. -/
def execMulh (d a b : GReg) (s : State) : Out :=
  s.word .pass fun s => s.scalar d (BitVec.ofInt 64 ((s.g a).toInt * (s.g b).toInt / 2 ^ 64)) 3
/-- MULHN. -/
def execMulhn (d a b : GReg) (s : State) : Out :=
  s.word .pass fun s => s.scalar d (BitVec.ofNat 64 ((s.g a).toNat * (s.g b).toNat / 2 ^ 64)) 3

/-- A divide waits while the tile's divider is busy (R106). -/
def State.divideCheck (s : State) : Verdict :=
  match s.tile.core.divider with
  | some _ => .wait
  | none => .pass

/-- An operation outstanding whose result is variable-latency: the scoreboard mark of its destination is set (R58). -/
def State.pend (s : State) (p : Pend) : State := s.modCtx fun c => { c with pends := c.pends ++ [p] }

/-- A pend with one reply due, of a scalar destination, no fault and no bytes yet. -/
def Pend.make (uid : Nat) (d : Dest) (fmt : PendFmt) (need : Nat) (mem acq : Bool) (ba : W) : Pend :=
  { uid := uid, dest := d, dest2 := .none, fmt := fmt, need := need, val := 0, act := 0, flags := 0, fault := none,
    acq := acq, rel := false, mem := mem, ba := ba }

/-- An operation that is a release (R341). -/
def Pend.release (p : Pend) : Pend := { p with rel := true }

/-- A scalar destination; g0 is none (R65). -/
def gDest (d : GReg) : Dest := if d = 0 then .none else .g d

/-- A divide issued: the divider is occupied until DIVIDE_COMPLETE (R106). -/
def State.divide (s : State) (d : GReg) (x : W) : State :=
  let s1 := s.pend (Pend.make s.fresh (gDest d) .word 1 false false s.issue.ba)
  (s1.modCore s.cur fun c => { c with divider := some { owner := s.strand.owner, pend := s.fresh, val := x } }).bump

/-- DIV: truncated toward zero; −1 where gb = 0 (R105). -/
def execDiv (d a b : GReg) (s : State) : Out :=
  s.word s.divideCheck fun s => s.divide d (if s.g b = 0 then BitVec.allOnes 64 else (s.g a).sdiv (s.g b))
/-- DIVN. -/
def execDivn (d a b : GReg) (s : State) : Out :=
  s.word s.divideCheck fun s => s.divide d (if s.g b = 0 then BitVec.allOnes 64 else s.g a / s.g b)
/-- REM. -/
def execRem (d a b : GReg) (s : State) : Out :=
  s.word s.divideCheck fun s => s.divide d (if s.g b = 0 then s.g a else (s.g a).srem (s.g b))
/-- REMN. -/
def execRemn (d a b : GReg) (s : State) : Out :=
  s.word s.divideCheck fun s => s.divide d (if s.g b = 0 then s.g a else s.g a % s.g b)

/-- DIVIDE_COMPLETE: the divider writes its result, on the strand or in the frame, and clears the mark (R106). -/
def execDivideComplete (t : TileId) (s : State) : Out :=
  match s.tiles[t].core.divider with
  | none => .next s
  | some v =>
    if s.still t then .next s else .next ((s.modCore t fun c => { c with divider := none }).answer t v.owner v.pend 0 (v.val.setWidth 1024) 0 none)

/-! ### Control transfers (R107–R111) -/

/-- A transfer taken to an address; `leave` says that loops it leaves end (R113). -/
def State.transfer (s : State) (goal : W) (leave : Bool) : State :=
  { s with issue := { s.issue with target := some (goal, leave) } }

/-- A transfer to an offset of the bundle's address where a condition holds (R74, R107). -/
def State.branch (s : State) (taken : Bool) (off : W) : State :=
  if taken then s.transfer (s.issue.ba + off <<< 2) true else s

/-- The address after the bundle. -/
def State.link (s : State) : W := s.issue.ba + BitVec.ofNat 64 (4 * s.issue.bw)

/-- BEQ. -/
def execBeq (a b : GReg) (o : BitVec 9) (s : State) : Out :=
  s.word .pass fun s => s.branch (s.g a == s.g b) (o.signExtend 64)
/-- BNE. -/
def execBne (a b : GReg) (o : BitVec 9) (s : State) : Out :=
  s.word .pass fun s => s.branch (s.g a != s.g b) (o.signExtend 64)
/-- BLT. -/
def execBlt (a b : GReg) (o : BitVec 9) (s : State) : Out :=
  s.word .pass fun s => s.branch ((s.g a).slt (s.g b)) (o.signExtend 64)
/-- BGE. -/
def execBge (a b : GReg) (o : BitVec 9) (s : State) : Out :=
  s.word .pass fun s => s.branch (!(s.g a).slt (s.g b)) (o.signExtend 64)
/-- BLTN. -/
def execBltn (a b : GReg) (o : BitVec 9) (s : State) : Out :=
  s.word .pass fun s => s.branch ((s.g a).ult (s.g b)) (o.signExtend 64)
/-- BGEN. -/
def execBgen (a b : GReg) (o : BitVec 9) (s : State) : Out :=
  s.word .pass fun s => s.branch (!(s.g a).ult (s.g b)) (o.signExtend 64)
/-- BZ. -/
def execBz (a : GReg) (o : BitVec 16) (s : State) : Out :=
  s.word .pass fun s => s.branch (s.g a == 0) (o.signExtend 64)
/-- BNZ. -/
def execBnz (a : GReg) (o : BitVec 16) (s : State) : Out :=
  s.word .pass fun s => s.branch (s.g a != 0) (o.signExtend 64)
/-- JMP. -/
def execJmp (o : BitVec 22) (s : State) : Out := s.word .pass fun s => s.branch true (o.signExtend 64)

/-- The link of CALL lands after another result of the bundle on g63 (R111). -/
def State.callLink (s : State) : State :=
  s.fly fun n ba => { Landing.of (.g 63) (s.link.setWidth 1024) (n + 1) ba with cls := 2 }

/-- CALL: loop entries stay (R113). -/
def execCall (o : BitVec 22) (s : State) : Out :=
  s.word .pass fun s => s.callLink.transfer (s.issue.ba + o.signExtend 64 <<< 2) false

/-- JR and CALLR raise MISALIGN where ga[1:0] ≠ 0 (R110). -/
def State.jumpCheck (s : State) (a : GReg) : Verdict :=
  if (s.g a).toNat % 4 ≠ 0 then .trap .misalign (s.g a) else .pass

/-- JR. -/
def execJr (a : GReg) (s : State) : Out := s.word (s.jumpCheck a) fun s => s.transfer (s.g a) true
/-- CALLR: the target is the old value of ga. -/
def execCallr (d a : GReg) (s : State) : Out :=
  s.word (s.jumpCheck a) fun s => (s.scalar d s.link 1).transfer (s.g a) false

/-! ### Hardware loops (R112, R113) -/

/-- The end bundle of a body of L bundles after the loop word's, and the address after it. -/
def State.loopEnd (s : State) (l : BitVec 6) : Except Fetched (W × W) := s.findBundle s.link l.toNat

/-- The checks of a loop word: a third loop is ILLEGAL_OP; a body that cannot be fetched refuses the bundle. Log 15: DEDUCED. -/
def State.loopCheck (s : State) (l : BitVec 6) (count : Nat) : Verdict :=
  (s.illegalIf (count != 0 && 2 ≤ s.ctx.loops.length)).andThen
    (match s.loopEnd l with
     | .ok _ => .pass
     | .error f => f.verdict)

/-- A loop opened, or skipped by a taken transfer where the count is 0. Log 15: DEDUCED. -/
def State.openLoop (s : State) (l : BitVec 6) (count : Nat) : State :=
  match s.loopEnd l with
  | .error _ => s
  | .ok (x, after) =>
    if count = 0 then s.transfer after true
    else { s with issue := { s.issue with opened := some { start := s.link, stop := x, left := count } } }

/-- LOOP. -/
def execLoop (l : BitVec 6) (a : GReg) (s : State) : Out :=
  s.word (s.loopCheck l (s.g a).toNat) fun s => s.openLoop l (s.g a).toNat
/-- LOOPI. -/
def execLoopi (l : BitVec 6) (c : BitVec 12) (s : State) : Out :=
  s.word (s.loopCheck l c.toNat) fun s => s.openLoop l c.toNat

/-! ### Where the strand goes on (R55, R107, R112, R113) -/

/-- The loop entries left after a transfer: those whose bodies the target leaves end, from the innermost. -/
def leaveLoops (goal : W) : List LoopEntry → List LoopEntry
  | [] => []
  | e :: l => if e.start.toNat ≤ goal.toNat ∧ goal.toNat ≤ e.stop.toNat then e :: l else leaveLoops goal l

/-- The end of a body: the next bundle, the entries left, and the cycles of a back edge. -/
def endLoops (ba link : W) : List LoopEntry → W × List LoopEntry × Nat
  | [] => (link, [], 0)
  | e :: l =>
    if e.stop = ba then
      (if 1 < e.left then (e.start, { e with left := e.left - 1 } :: l, 2) else endLoops ba link l)
    else (link, e :: l, 0)

/-- The next bundle after the one under issue, its loop entries, and the cycles that a transfer costs. A loop that the bundle
opens is pushed after the end of the body that the bundle may stand at: a back edge of the loop around it is taken (R112). -/
def State.goOn (s : State) : W × List LoopEntry × Nat :=
  match s.issue.target with
  | some (goal, true) => (goal, leaveLoops goal s.ctx.loops, 2)
  | some (goal, false) => (goal, s.ctx.loops, 2)
  | none =>
    let g := endLoops s.issue.ba s.link s.ctx.loops
    (g.1, s.issue.opened.toList ++ g.2.1, g.2.2)

/-- The end of a bundle: the strand goes on, and what is due at its next bundle lands (R55, R57). -/
def State.epilogue (s : State) : State :=
  let g := s.goOn
  (s.modCtx fun c => { c with pc := g.1, loops := g.2.1, clock := c.clock + 1 + s.issue.w + g.2.2 }).land s.cur s.curK

/-! ### System forms (R114–R118) -/

/-- The bundle has said itself where the strand goes on. Log 52: DEDUCED. -/
def State.atEnd (s : State) : State := { s with issue := { s.issue with atEnd := true } }

/-- NOP: counts as a control word. -/
def execNop (s : State) : Out := s.word .pass fun s => s

/-- TRAP: the bundle issues, then a Tenant trap is taken at the next boundary with TRAPPC = BA + 4 × BW (R114). Log 52: DEDUCED. -/
def execTrap (c : BitVec 12) (s : State) : Out :=
  s.word .pass fun s =>
    (s.epilogue.takeTrap s.cur s.curK .trapWord (c.setWidth 64) (some 0) s.link).atEnd

/-- ERET alone in its bundle, and permitted (R72, R115, R224). -/
def State.eretCheck (s : State) : Verdict :=
  (s.illegalIf (s.issue.bw != 1 || (s.mon? && !s.ctx.intrap))).andThen
    (if s.ctx.intrap then .pass else s.badWord .priv)

/-- ERET: the handler's results land first; one that traps is a double trap, and the ERET does not take effect (R115). -/
def execEret (s : State) : Out :=
  s.word s.eretCheck fun s =>
    let s1 := s.landAll s.cur s.curK
    (match s1.ctx.due with
     | [] => s1.eret s.cur s.curK
     | _ :: _ => s1.takeDue s.cur s.curK).atEnd

/-- WFE (R116): the bit is cleared, or the strand sleeps. -/
def execWfe (s : State) : Out :=
  s.word .pass fun s =>
    if s.ctx.event then s.modCtx fun c => { c with event := false }
    else (s.modCtx fun c => { c with sleeping := true }).switchEvent s.cur

/-- YIELD: a switch event (R114). -/
def execYield (s : State) : Out := s.word .pass fun s => s.switchEvent s.cur

/-- SAFE (R117): a pending pre-emption of a thread is taken at the boundary after the bundle. -/
def execSafe (s : State) : Out :=
  s.word .pass fun s =>
    match s.rewriting, s.strand.preempt with
    | none, some _ => (s.modStrand fun x => { x with safeAt := some s.issue.ba }).switchEvent s.cur
    | _, _ => s

/-- HALT (R118, R223, R224): a rewrite is discarded as by RABORT; a thread or a firmware task ends once its results have
landed and its operations have left the core. -/
def execHalt (s : State) : Out :=
  s.word .pass fun s =>
    match s.rewriting with
    | some r => ((s.discard s.cur s.curK r .again).switchEvent s.cur).atEnd
    | none => s.modCtx fun c => { c.sealHalt with halting := true }

/-- BKPT: refused at the issue checks, TRAPPC = BA (R114). -/
def execBkpt (s : State) : Out := s.word (.trap .breakpoint 0) fun s => s

/-! ### Control-register words (R119–R122) -/

/-- The checks of a read. -/
def State.crReadCheck (s : State) (n : BitVec 10) : Verdict :=
  match crAccess n with
  | some _ => .pass
  | none => s.badWord .illegalOp

/-- The checks of a write (R122). -/
def State.crWriteCheck (s : State) (n : BitVec 10) : Verdict :=
  match crAccess n with
  | none => s.badWord .illegalOp
  | some .ro => .trap .permission (n.setWidth 64)
  | some .mon => if s.mon? then .pass else s.badWord .priv
  | some .rw => .pass

/-- A write of a control register that lands at n + 1, ahead of the results landing then (R121). -/
def State.crLater (s : State) (n : BitVec 10) (x : W) : State :=
  s.fly fun m ba => { Landing.of (.cr n) (x.setWidth 1024) (m + 1) ba with cls := 0 }

/-- CRR. -/
def execCrr (d : GReg) (c : BitVec 10) (s : State) : Out :=
  s.word (s.crReadCheck c) fun s => s.scalar d (s.crRead s.cur s.curK c) 1
/-- CRW. -/
def execCrw (a : GReg) (c : BitVec 10) (s : State) : Out := s.word (s.crWriteCheck c) fun s => s.crLater c (s.g a)
/-- CRX: gd = ga is permitted. -/
def execCrx (d a : GReg) (c : BitVec 10) (s : State) : Out :=
  s.word (s.crWriteCheck c) fun s => (s.scalar d (s.crRead s.cur s.curK c) 1).crLater c (s.g a)

/-! ### Control-register writes that land, as steps of their own -/

/-- LFSRSEED_WRITE (R43). -/
def execLfsrseedWrite (t : TileId) (k : StrandId) (v : W) (s : State) : Out := .next (s.landCr t k 0x013 v)
/-- TRAPVEC_WRITE (R121). -/
def execTrapvecWrite (t : TileId) (k : StrandId) (v : W) (s : State) : Out := .next (s.landCr t k 0x025 v)
/-- PLACEMASK_WRITE (R405). -/
def execPlacemaskWrite (t : TileId) (k : StrandId) (v : W) (s : State) : Out := .next (s.landCr t k 0x040 v)
/-- FAULTINJ_DISARM (R231): the write with DISARM. -/
def execFaultinjDisarm (t : TileId) (k : StrandId) (v : W) (s : State) : Out :=
  .next (s.landCr t k 0x0F0 (v ||| 0x2000000000000000))
/-- CONTROL_REGISTER_WRITE (R120): a write that is not permitted changes nothing (R122). -/
def execControlRegisterWrite (t : TileId) (k : StrandId) (n : BitVec 10) (v : W) (s : State) : Out :=
  .next (match crAccess n with
    | some .rw => s.landCr t k n v
    | some .mon => if (s.strandAt t k).ctx.mon? then s.landCr t k n v else s
    | some .ro | none => s)

end Sys2Proof.Machine
end

