-- ==== Sys2Proof/Machine/MemoryWords.lean ====
section
/-! DEFINITION. Scalar memory words, atomics, fences, pane words and barrier words (spec/06 R124–R137, R143–R146; majors
0x0B–0x0F). -/

namespace Sys2Proof.Machine

/-- The width in bytes of a type. -/
def itypeBytes (t : IType) : Nat := itypeBits t / 8

/-! ### Loads and stores (R129, R130) -/

/-- A load's result from the strand's own tile store: fixed latency 4, poisoned data marked (R61, R126, R304). -/
def State.loadOwn (s : State) (d : GReg) (t : IType) (pl : Place) (va : W) : State :=
  let n := itypeBytes t
  if s.placeBad pl n then
    s.fly fun m ba => { Landing.of (gDest d) 0 (m + 4) ba with fault := some va }
  else (s.correct pl n).scalar d (widen t (leNat (s.strandBytes pl n))) 4

/-- A load that travels: its destination is marked until the reply (R58, R126). -/
def State.loadFar (s : State) (d : GReg) (t : IType) (pl : Place) (va : W) (acq : Bool) : State :=
  let n := itypeBytes t
  let after := if acq then s.acquires ++ s.releases else s.acquires
  let r := s.req pl n s.fresh 0 va (s.forwardedTo pl n)
  ((s.pend (Pend.make s.fresh (gDest d) (.int t) 1 true acq s.issue.ba)).bump).request pl n (.read r) after

/-- A load at an address. -/
def State.load (s : State) (d : GReg) (t : IType) (va : W) (acq : Bool) : State :=
  match s.locate .read va with
  | none => s
  | some pl =>
    let s1 := s.touch va
    if s.ownStore pl && !acq then s1.loadOwn d t pl va else s1.loadFar d t pl va acq

/-- A store of a work at a place: at once where it is the tile's own store and nothing holds it back, otherwise as a message
to the server (R126, R128, R130). -/
def State.storeAt (s : State) (pl : Place) (va : W) (n : Nat) (x : W) (after : List (Nat × Nat))
    (rel : Bool) : State :=
  if s.ownStore pl && after.isEmpty then s.writeNum s.party pl n x.toNat
  else
    let r := s.req pl n s.fresh 0 va []
    let p := Pend.make s.fresh .none .drop 1 true false s.issue.ba
    ((s.pend (if rel then p.release else p)).bump).request pl n (.write r x) after

/-- A store of the low n bytes at an address; in a rewrite it is a commit entry (R137). -/
def State.store (s : State) (va : W) (n : Nat) (x : W) (after : List (Nat × Nat)) (rel : Bool) : State :=
  match s.locate .write va with
  | none => s
  | some pl =>
    let s1 := s.touch va
    match s.rewriting with
    | some _ => s1.commit (.stores [(pl, va, n, x)])
    | none => s1.storeAt pl va n x after rel

/-- LD. -/
def execLd (d a : GReg) (t : IType) (i : BitVec 9) (s : State) : Out :=
  s.word (s.memCheck .read (s.g a + sx9 i) (itypeBytes t)) fun s => s.load d t (s.g a + sx9 i) false
/-- ST. -/
def execSt (r a : GReg) (t : IType) (i : BitVec 9) (s : State) : Out :=
  s.word (s.memCheck .write (s.g a + sx9 i) (itypeBytes t)) fun s =>
    s.store (s.g a + sx9 i) (itypeBytes t) (s.g r) (s.acquires ++ s.bundleStores) false
/-- LDA: an acquire, always variable-latency. -/
def execLda (d a : GReg) (t : IType) (s : State) : Out :=
  s.word (s.memCheck .read (s.g a) (itypeBytes t)) fun s => s.load d t (s.g a) true
/-- STR: a release. -/
def execStr (a r : GReg) (t : IType) (s : State) : Out :=
  s.word (s.memCheck .write (s.g a) (itypeBytes t)) fun s => s.store (s.g a) (itypeBytes t) (s.g r) s.releaseAfter true

/-- PREF: asks the home bank for the line and warms the TLB; it never traps (R130). Log 53: DESIGN CHOICE. -/
def execPref (a : GReg) (s : State) : Out :=
  s.word .pass fun s =>
    match s.xlate s.tile.tlbLoad s.cur s.q .read (s.g a) with
    | .at_ (.hbm pa home) _ => (s.touch (s.g a)).fill s.q pa home
    | .at_ (.win ..) _ => s.touch (s.g a)
    | .fault _ => s
    | .miss => s.queueWalk s.cur s.q .read (s.g a) 0 0 (.thread s.cur 0)

/-! ### Fences (R132, R133) -/

/-- A tile is within a scope of another (R132). -/
def scopeCovers (x : Scope) (at_ t : TileId) : Bool :=
  match x with
  | .tile => at_ == t
  | .die => dieOf at_ == dieOf t
  | .package | .domain | .system => true

/-- The far end of a circuit lies within a scope of a tile; that of one across a peer link lies in another package. -/
def scopeEnd (x : Scope) (c : Circuit) (t : TileId) : Bool :=
  match c.peer with
  | some (_, true) => x == .domain || x == .system
  | some (_, false) | none => scopeCovers x c.dst t

/-- A message carries an operation that a fence of the scope does not wait for: MSEND, a push or a net word for a tile outside the
scope, or a slice (R168, R210, R342). -/
def fencePasses (x : Scope) (t : TileId) (owner uid : Nat) (m : Msg) : Bool :=
  let out := !scopeCovers x m.dst t
  match m.body with
  | .msg _ o u _ _ _ => o == owner && u == uid && out
  | .pair _ _ done => done == (owner, uid) && out
  | .netop (.link ..) _ o u | .netop (.free _) _ o u | .netop (.init ..) _ o u => o == owner && u == uid && out
  | .netrsp o u _ _ => o == owner && u == uid && !scopeCovers x m.src t
  | .slice r .. => r.owner == owner && r.pend == uid && (x == .tile || x == .die)
  | .netop (.port ..) .. | .read _ | .readRsp .. | .write .. | .amo .. | .amoRsp .. | .borrow | .creditWords .. | .creditSeq _ | .ack _
  | .recall _ => false

/-- An operation of the strand is one that a fence of the scope waits for (R132, R342): not yet performed, and no CSEND, MSEND, net
word or slice that ends outside the scope. Log 110: DEDUCED. -/
def State.awaited (s : State) (x : Scope) (p : Pend) : Bool :=
  let work := s.strand.owner
  let sent (c : Circuit) : Bool :=
    (c.queue.any fun y => y.done == some (work, p.uid)) || c.wire.any fun y => y.done == some (work, p.uid)
  p.mem && !(s.circuits.any fun c => sent c && !scopeEnd x c s.cur) && !s.relay.any (fencePasses x s.cur work p.uid)

/-- The commands of a function that have arrived without a gap, in order (R418). -/
def inTurn (l : List (Nat × HostHdr × HostCmd)) (n : Nat) : Nat → List HostCmd
  | 0 => []
  | k + 1 => match l.find? fun y => y.1 == n with
    | none => []
    | some y => y.2.2 :: inTurn l (n + 1) k

/-- A HOST_WRITE to a sequence that its function's port has accepted and not finished (R342). -/
def State.hostWrites (s : State) (q : SeqId) : Bool :=
  (s.hostJobs.any fun j => j.write && j.seq == q) ||
  match s.seqs[q] with
  | none => false
  | some x =>
    let y := s.streams[(⟨x.vf.val, by omega⟩ : Fin 193)]
    (inTurn y.ahead y.expect 33).any fun
      | .hostWrite b => b.seq == seqNo q
      | _ => false

/-- The strand's earlier memory words have been performed with respect to the observers of a scope (R132, R342). In a rewrite the
loads alone can be outstanding. Log 110: DEDUCED. -/
def State.fenceCheck (s : State) (x : Scope) : Verdict :=
  if s.ctx.pends.any (s.awaited x) || x == .system && s.hostWrites s.q then .wait else .pass

/-- FENCE holds the strand and does nothing else. An operation is performed at every scope at once, since the package has one
copy of each byte. -/
def execFence (x : Scope) (s : State) : Out := s.word (s.fenceCheck x) fun s => s
/-- FENCE.I (R133): the instruction cache is invalidated for the strand's sequence. -/
def execFenceI (s : State) : Out :=
  s.word (s.fenceCheck .tile) fun s => s.modCore s.cur fun c => { c with icache := c.icache.filter fun l => l.seq != s.q }

/-! ### Atomics (R134–R136) -/

/-- The new value and the flags of an atomic on an old value of a width in bits; none where a CAS fails. -/
def amoValue (op : AmoOp) (wide : Bool) (old x c : W) : Option W × BitVec 6 :=
  let w := if wide then 64 else 32
  let cut (v : W) : W := BitVec.ofNat 64 (v.toNat % 2 ^ w)
  let sgn (v : W) : Int := if wide then v.toInt else (v.setWidth 32).toInt
  match op with
  | .add => (some (cut (old + x)), 0)
  | .and => (some (cut (old &&& x)), 0)
  | .or => (some (cut (old ||| x)), 0)
  | .xor => (some (cut (old ^^^ x)), 0)
  | .min => (some (cut (if sgn x < sgn old then x else old)), 0)
  | .max => (some (cut (if sgn old < sgn x then x else old)), 0)
  | .minn => (some (cut (if (cut x).toNat < (cut old).toNat then x else old)), 0)
  | .maxn => (some (cut (if (cut old).toNat < (cut x).toNat then x else old)), 0)
  | .swap => (some (cut x), 0)
  | .cas => (if cut old = cut c then some (cut x) else none, 0)
  | .fadd =>
    let r := addNum Fmt.f32 .rne false (unpack Fmt.f32 (old.toNat % 2 ^ 32)) (unpack Fmt.f32 (x.toNat % 2 ^ 32))
    (some (BitVec.ofNat 64 r.1), r.2)

/-- The checks of an atomic (R125, R137): one with a result is ILLEGAL_OP in a rewrite. -/
def State.amoCheck (s : State) (d : GReg) (va : W) (n : Nat) : Verdict :=
  (s.illegalIf (s.rewriting.isSome && d != 0)).andThen (s.memCheck .atomic va n)

/-- An atomic of a thread as a message to where it is performed: the tile's near buffer where the predictor's counter is 0 or
1, the line's home where it is 2 or 3 or the home is in bypass (R278), the tile whose store holds the address otherwise
(R134–R136). -/
def State.amoSend (s : State) (pl : Place) (r : Req) (op : AmoOp) (x c : W) (after : List (Nat × Nat)) : State :=
  let body := Body.amo r op x c
  match pl with
  | .hbm pa home =>
    if s.tile.predictor[(⟨pa / 64 % 256, by omega⟩ : Fin 256)].val < 2 && !s.tiles[home].inReset then
      s.requestTo s.cur pl r.n body after
    else s.request pl r.n body after
  | .win .. => s.request pl r.n body after

/-- An atomic at an address: gd receives the old value (R134); in a rewrite a commit entry (R137). -/
def State.amo (s : State) (op : AmoOp) (wide : Bool) (d a b : GReg) (o : Ord) : State :=
  let va := s.g a
  let n := if wide then 8 else 4
  match s.locate .atomic va with
  | none => s
  | some pl =>
    let s1 := s.touch va
    match s.rewriting with
    | some _ => s1.commit (.amos op wide [(pl, va, s.g b, s.g d)])
    | none =>
      let fmt := if d = 0 then PendFmt.drop else .old wide
      let acq := o == Sys2Proof.Ord.acq || o == Sys2Proof.Ord.ar
      let rel := o == Sys2Proof.Ord.rel || o == Sys2Proof.Ord.ar
      let p := { Pend.make s.fresh (gDest d) fmt 1 true acq s.issue.ba with rel := rel }
      let after := if rel then s.releaseAfter else if acq then s.acquires ++ s.releases else s.acquires
      ((s1.pend p).bump).amoSend pl (s.req pl n s.fresh 0 va []) op (s.g b) (s.g d) after

/-- AMOADD.i64. -/
def execAmoaddI64 (d a b : GReg) (o : Ord) (s : State) : Out :=
  s.word (s.amoCheck d (s.g a) 8) fun s => s.amo .add true d a b o
/-- AMOAND. -/
def execAmoand (d a b : GReg) (o : Ord) (s : State) : Out :=
  s.word (s.amoCheck d (s.g a) 8) fun s => s.amo .and true d a b o
/-- AMOOR. -/
def execAmoor (d a b : GReg) (o : Ord) (s : State) : Out :=
  s.word (s.amoCheck d (s.g a) 8) fun s => s.amo .or true d a b o
/-- AMOXOR. -/
def execAmoxor (d a b : GReg) (o : Ord) (s : State) : Out :=
  s.word (s.amoCheck d (s.g a) 8) fun s => s.amo .xor true d a b o
/-- AMOMIN. -/
def execAmomin (d a b : GReg) (o : Ord) (s : State) : Out :=
  s.word (s.amoCheck d (s.g a) 8) fun s => s.amo .min true d a b o
/-- AMOMAX. -/
def execAmomax (d a b : GReg) (o : Ord) (s : State) : Out :=
  s.word (s.amoCheck d (s.g a) 8) fun s => s.amo .max true d a b o
/-- AMOMINN. -/
def execAmominn (d a b : GReg) (o : Ord) (s : State) : Out :=
  s.word (s.amoCheck d (s.g a) 8) fun s => s.amo .minn true d a b o
/-- AMOMAXN. -/
def execAmomaxn (d a b : GReg) (o : Ord) (s : State) : Out :=
  s.word (s.amoCheck d (s.g a) 8) fun s => s.amo .maxn true d a b o
/-- AMOSWAP.i64. -/
def execAmoswapI64 (d a b : GReg) (o : Ord) (s : State) : Out :=
  s.word (s.amoCheck d (s.g a) 8) fun s => s.amo .swap true d a b o
/-- CAS.i64: gd at issue is the value compared. -/
def execCasI64 (d a b : GReg) (o : Ord) (s : State) : Out :=
  s.word (s.amoCheck d (s.g a) 8) fun s => s.amo .cas true d a b o
/-- AMOADD.i32. -/
def execAmoaddI32 (d a b : GReg) (o : Ord) (s : State) : Out :=
  s.word (s.amoCheck d (s.g a) 4) fun s => s.amo .add false d a b o
/-- AMOSWAP.i32. -/
def execAmoswapI32 (d a b : GReg) (o : Ord) (s : State) : Out :=
  s.word (s.amoCheck d (s.g a) 4) fun s => s.amo .swap false d a b o
/-- CAS.i32. -/
def execCasI32 (d a b : GReg) (o : Ord) (s : State) : Out :=
  s.word (s.amoCheck d (s.g a) 4) fun s => s.amo .cas false d a b o
/-- AMOFADD: FP32, to nearest even, whatever FPCTL holds. -/
def execAmofadd (d a b : GReg) (o : Ord) (s : State) : Out :=
  s.word (s.amoCheck d (s.g a) 4) fun s => s.amo .fadd false d a b o

/-! ### Panes (R143, R144) -/

/-- The checks that the pane words share: translation, the RAW alias of the own window, the pane's tag and the key slot (R99, R143,
R320). -/
def State.paneCheck (s : State) (acc : Access) (va : W) : Verdict :=
  s.xlateCheck acc va fun pl => (s.rawOnly va pl).andThen (panesTagged s.tile s.q s.mon? (s.touched pl 1) va)

/-- PGIVE of a core-owned pane is a release at tile scope: it waits for the strand's earlier memory words; of an engine-owned one it
changes nothing and does not wait (R143, R341). -/
def State.pgiveCheck (s : State) (va : W) : Verdict :=
  if s.tile.panes[s.paneAt .write va].engine then .pass else s.acquireWait.andThen (s.fenceCheck .tile)

/-- PGIVE. -/
def execPgive (a : GReg) (s : State) : Out :=
  s.word (((s.illegalIf s.rewriting.isSome).andThen (s.paneCheck .write (s.g a))).andThen (s.pgiveCheck (s.g a))) fun s =>
    (s.touch (s.g a)).modPane s.cur (s.paneAt .write (s.g a)) fun p => { p with engine := true }

/-- PTAKE of a RING pane raises PERMISSION; of an engine-owned pane it waits until the pane is neither BUSY nor STAGED, and
for the acquires and releases before it (R143, R339, R341). -/
def State.ptakeCheck (s : State) (va : W) : Verdict :=
  let p := s.tile.panes[s.paneAt .write va]
  if !p.engine then .pass
  else if p.ring then .trap .permission va
  else if p.busy != 0 || p.staged != 0 then .wait
  else s.acquireWait.andThen s.releaseWait

/-- PTAKE: an acquire at tile scope. -/
def execPtake (a : GReg) (s : State) : Out :=
  s.word (((s.illegalIf s.rewriting.isSome).andThen (s.paneCheck .write (s.g a))).andThen (s.ptakeCheck (s.g a))) fun s =>
    (s.touch (s.g a)).modPane s.cur (s.paneAt .write (s.g a)) fun p => { p with engine := false }

/-- The pane status word (R144). -/
def Pane.status (p : Pane) : W :=
  BitVec.ofNat 64 (boolNat (p.staged != 0) * 8 + boolNat p.ring * 4 + boolNat (p.busy != 0) * 2 + boolNat p.engine)

/-- PSTAT. -/
def execPstat (d a : GReg) (s : State) : Out :=
  s.word (s.paneCheck .read (s.g a)) fun s =>
    (s.touch (s.g a)).scalar d s.tile.panes[s.paneAt .read (s.g a)].status 1

/-! ### Barriers (R145, R146) -/

/-- The checks that the barrier words share, of which `bad` is a PERMISSION check of the word's operand; BTRY and BWAIT are permitted in
a rewrite (R99, R125, R137, R145). Log 22: DEDUCED. -/
def State.barrierCheck (s : State) (va : W) (inRewrite bad : Bool) : Verdict :=
  (((s.illegalIf (s.rewriting.isSome && !inRewrite)).andThen
      (s.accessCheckFor .write 8 va 8 fun pl => (s.rawOnly va pl).andThen (if bad then .trap .permission va else .pass))).andThen
    s.acquireWait).andThen
    (match s.locate .write va with
     | some pl => s.heldWait pl
     | none => .pass)

/-- The barrier that an address names. -/
def State.barrierOf (s : State) (va : W) : W :=
  match s.ownRaw .write va with
  | some off => s.barrier s.q s.cur off
  | none => 0

/-- A barrier whose granule is poisoned: its words consume the poison at the boundary where a result would land (R304).
Log 22: DEDUCED. -/
def State.barrierPoison (s : State) (va : W) : Bool :=
  match s.ownRaw .write va with
  | some off => s.placeBad (.win s.cur off) 8
  | none => false

/-- A poisoned consumption of a word without another effect. -/
def State.poisonAt (s : State) (va : W) : State :=
  s.fly fun m ba => { Landing.of .none 0 (m + 4) ba with fault := some va }

/-- A barrier updated at an address of the own store. -/
def State.putBarrier (s : State) (va : W) (r : W × Bool) : State :=
  match s.ownRaw .write va with
  | some off => (s.touch va).setBarrier s.q s.cur off r
  | none => s

/-- BINIT: a count of 0 raises PERMISSION. -/
def execBinit (a b : GReg) (s : State) : Out :=
  s.word (s.barrierCheck (s.g a) false (field (s.g b) 0 12 == 0)) fun s =>
    s.putBarrier (s.g a) (barInit (s.g b), false)

/-- BARRIVE is refused where every arrival is in (R146). -/
def State.arriveCheck (s : State) (va : W) : Verdict :=
  if s.barrierPoison va then .pass
  else match barArrive (s.barrierOf va) with
    | none => .trap .permission va
    | some _ => .pass

/-- BARRIVE: gd receives PHASE as it was. A release at tile scope: it waits for the strand's earlier memory words (R339, R341). One that is
refused only after another word of its bundle has arrived traps at the next boundary (R146). Log 110: DEDUCED. -/
def execBarrive (d a : GReg) (s : State) : Out :=
  s.word (((s.barrierCheck (s.g a) false false).andThen (s.arriveCheck (s.g a))).andThen (s.fenceCheck .tile)) fun s =>
    if s.barrierPoison (s.g a) then s.poisonAt (s.g a)
    else match barArrive (s.barrierOf (s.g a)) with
      | none => s.addDue .permission (s.g a) (some 0)
      | some r => (s.putBarrier (s.g a) r).scalar d (bit64 (barPhase (s.barrierOf (s.g a)))) 4

/-- BEXPECT is refused where the quota would not fit (R146). -/
def State.expectCheck (s : State) (va : W) (n : Nat) : Verdict :=
  if s.barrierPoison va then .pass
  else match barRaise (s.barrierOf va) n with
    | none => .trap .permission va
    | some _ => .pass

/-- BEXPECT: a release at tile scope, as BARRIVE. Log 110: DEDUCED. -/
def execBexpect (a b : GReg) (s : State) : Out :=
  s.word (((s.barrierCheck (s.g a) false false).andThen (s.expectCheck (s.g a) (field (s.g b) 0 19))).andThen (s.fenceCheck .tile)) fun s =>
    if s.barrierPoison (s.g a) then s.poisonAt (s.g a)
    else match barRaise (s.barrierOf (s.g a)) (field (s.g b) 0 19) with
      | none => s.addDue .permission (s.g a) (some 0)
      | some r => s.putBarrier (s.g a) r

/-- BWAIT: waits until PHASE ≠ gb[0]. Its return is an acquire at tile scope, after the releases before it (R339, R341). -/
def execBwait (a b : GReg) (s : State) : Out :=
  s.word (((s.barrierCheck (s.g a) true false).andThen
      (if s.barrierPoison (s.g a) || barPhase (s.barrierOf (s.g a)) != (s.g b).getLsbD 0 then .pass else .wait)).andThen
      s.releaseWait) fun s =>
    if s.barrierPoison (s.g a) then s.poisonAt (s.g a) else s.touch (s.g a)

/-- BTRY: 1 where PHASE ≠ gb[0], an acquire as BWAIT. -/
def execBtry (d a b : GReg) (s : State) : Out :=
  s.word ((s.barrierCheck (s.g a) true false).andThen s.releaseWait) fun s =>
    if s.barrierPoison (s.g a) then s.poisonAt (s.g a)
    else (s.touch (s.g a)).scalar d (bit64 (barPhase (s.barrierOf (s.g a)) != (s.g b).getLsbD 0)) 4

end Sys2Proof.Machine
end

