-- ==== Sys2Proof/Machine/Vector.lean ====
section
/-! DEFINITION. Vector integer words, permutes, integer reductions and scans, selections, moves and mask instructions
(spec/07 R147–R151, R162–R165, R169–R171; majors 0x13, 0x17, 0x18). -/

namespace Sys2Proof.Machine

/-! ### Elements -/

/-- The width in bytes of a W2 code (R89). -/
def w2Bytes (z : W2) : Nat :=
  match z with
  | .b8 => 1
  | .b16 => 2
  | .b32 => 4

/-- Element i of a width in bytes (R66). -/
def elem (w : Nat) (x : V) (i : Nat) : Nat := (x.extractLsb' (8 * w * i) (8 * w)).toNat

/-- Element i read as signed. -/
def elemS (w : Nat) (x : V) (i : Nat) : Int := (x.extractLsb' (8 * w * i) (8 * w)).toInt

/-- The elements 0 to n − 1 of a register. -/
def elems (w n : Nat) (x : V) : List Nat := (List.range n).map (elem w x)

/-- A number from elements of a width in bytes, element 0 lowest. -/
def packNat (w : Nat) : List Nat → Nat
  | [] => 0
  | x :: l => x % 2 ^ (8 * w) + 2 ^ (8 * w) * packNat w l

/-- A register from elements. -/
def pack (w : Nat) (l : List Nat) : V := BitVec.ofNat 1024 (packNat w l)

/-- The bytes of the active elements (R66, R67). -/
def activeBytes (w n : Nat) (k : K) : K :=
  BitVec.ofNat 128 ((List.range n).foldl (fun a i => if k.getLsbD i then a + (2 ^ w - 1) * 2 ^ (w * i) else a) 0)

/-- A signed value wrapped to a width in bytes (R33). -/
def wrapS (w : Nat) (x : Int) : Nat := (x % (2 ^ (8 * w) : Nat)).toNat

/-- The largest and smallest signed values of a width in bytes. -/
def maxS (w : Nat) : Int := 2 ^ (8 * w - 1) - 1
/-- The smallest. -/
def minS (w : Nat) : Int := -(2 ^ (8 * w - 1))

/-- A vector result of the current strand that lands after a latency: bytes not written keep their value (R66). -/
def State.vector (s : State) (d : VReg) (x : V) (act : K) (lat : Nat) (flags : BitVec 6) (hot : K) : State :=
  s.fly fun n ba => { Landing.of (.v d) x (n + lat) ba with act := act, flags := flags, hot := hot }

/-- A mask result; k0 discards it (R67). -/
def State.maskTo (s : State) (d : KReg) (x : K) (lat : Nat) (flags : BitVec 6) (hot : K) : State :=
  if d = 0 ∧ flags = 0 then s
  else s.fly fun n ba => { Landing.of (if d = 0 then Dest.none else .k d) (x.setWidth 1024) (n + lat) ba with
    flags := flags, hot := hot }

/-- An element-wise integer word (R147, R150): element i of a register of width w from its index. -/
def State.vint (s : State) (d : VReg) (k : KReg) (z : W2) (f : Nat → Nat → Nat) : State :=
  let w := w2Bytes z
  let n := 128 / w
  s.vector d (pack w ((List.range n).map fun i => f w i)) (activeBytes w n (s.k k)) 2 0 0

/-! ### Vector integer (R150, R151) -/

/-- VADD. -/
def execVadd (d a b : VReg) (k : KReg) (z : W2) (s : State) : Out :=
  s.word .pass fun s => s.vint d k z fun w i => elem w (s.v a) i + elem w (s.v b) i
/-- VSUB. -/
def execVsub (d a b : VReg) (k : KReg) (z : W2) (s : State) : Out :=
  s.word .pass fun s => s.vint d k z fun w i => elem w (s.v a) i + 2 ^ (8 * w) - elem w (s.v b) i
/-- VMUL. -/
def execVmul (d a b : VReg) (k : KReg) (z : W2) (s : State) : Out :=
  s.word .pass fun s => s.vint d k z fun w i => elem w (s.v a) i * elem w (s.v b) i
/-- VMULH. -/
def execVmulh (d a b : VReg) (k : KReg) (z : W2) (s : State) : Out :=
  s.word .pass fun s => s.vint d k z fun w i =>
    wrapS w (elemS w (s.v a) i * elemS w (s.v b) i / (2 ^ (8 * w) : Nat))
/-- VMIN. -/
def execVmin (d a b : VReg) (k : KReg) (z : W2) (s : State) : Out :=
  s.word .pass fun s => s.vint d k z fun w i =>
    if elemS w (s.v b) i < elemS w (s.v a) i then elem w (s.v b) i else elem w (s.v a) i
/-- VMAX. -/
def execVmax (d a b : VReg) (k : KReg) (z : W2) (s : State) : Out :=
  s.word .pass fun s => s.vint d k z fun w i =>
    if elemS w (s.v a) i < elemS w (s.v b) i then elem w (s.v b) i else elem w (s.v a) i
/-- VMINN. -/
def execVminn (d a b : VReg) (k : KReg) (z : W2) (s : State) : Out :=
  s.word .pass fun s => s.vint d k z fun w i =>
    if elem w (s.v b) i < elem w (s.v a) i then elem w (s.v b) i else elem w (s.v a) i
/-- VMAXN. -/
def execVmaxn (d a b : VReg) (k : KReg) (z : W2) (s : State) : Out :=
  s.word .pass fun s => s.vint d k z fun w i =>
    if elem w (s.v a) i < elem w (s.v b) i then elem w (s.v b) i else elem w (s.v a) i
/-- The shift count: the low log2(8w) bits (R151). -/
def shiftCount (w : Nat) (b : V) (i : Nat) : Nat := elem w b i % (8 * w)
/-- VSHL. -/
def execVshl (d a b : VReg) (k : KReg) (z : W2) (s : State) : Out :=
  s.word .pass fun s => s.vint d k z fun w i => elem w (s.v a) i * 2 ^ shiftCount w (s.v b) i
/-- VSHR. -/
def execVshr (d a b : VReg) (k : KReg) (z : W2) (s : State) : Out :=
  s.word .pass fun s => s.vint d k z fun w i => elem w (s.v a) i / 2 ^ shiftCount w (s.v b) i
/-- VSHA. -/
def execVsha (d a b : VReg) (k : KReg) (z : W2) (s : State) : Out :=
  s.word .pass fun s => s.vint d k z fun w i => wrapS w (elemS w (s.v a) i / (2 ^ shiftCount w (s.v b) i : Nat))
/-- VABS, wrapping. -/
def execVabs (d a : VReg) (k : KReg) (z : W2) (s : State) : Out :=
  s.word .pass fun s => s.vint d k z fun w i => (elemS w (s.v a) i).natAbs
/-- VNEG, wrapping. -/
def execVneg (d a : VReg) (k : KReg) (z : W2) (s : State) : Out :=
  s.word .pass fun s => s.vint d k z fun w i => 2 ^ (8 * w) - elem w (s.v a) i
/-- A value clamped to a range (R33). -/
def clampTo (lo hi x : Int) : Int := if hi < x then hi else if x < lo then lo else x
/-- VSAT: SAT where an active element is clamped. -/
def execVsat (d a b : VReg) (k : KReg) (z : W2) (s : State) : Out :=
  s.word .pass fun s =>
    let w := w2Bytes z
    let n := 128 / w
    let sum (i : Nat) : Int := elemS w (s.v a) i + elemS w (s.v b) i
    let sat := (List.range n).any fun i =>
      (s.k k).getLsbD i && (decide (maxS w < sum i) || decide (sum i < minS w))
    s.vector d (pack w ((List.range n).map fun i => wrapS w (clampTo (minS w) (maxS w) (sum i))))
      (activeBytes w n (s.k k)) 2 (flagIf sat flagSAT) 0
/-- VCLZ. -/
def execVclz (d a : VReg) (k : KReg) (z : W2) (s : State) : Out :=
  s.word .pass fun s => s.vint d k z fun w i => leadingZeros (8 * w) (elem w (s.v a) i)
/-- VPOPC. -/
def execVpopc (d a : VReg) (k : KReg) (z : W2) (s : State) : Out :=
  s.word .pass fun s => s.vint d k z fun w i => countOnes (elem w (s.v a) i) (8 * w)

/-- A logical word: the whole register, written where elements are active. -/
def State.vlogic (s : State) (d : VReg) (k : KReg) (z : W2) (x : V) : State :=
  s.vector d x (activeBytes (w2Bytes z) (128 / w2Bytes z) (s.k k)) 2 0 0

/-- VAND. -/
def execVand (d a b : VReg) (k : KReg) (z : W2) (s : State) : Out :=
  s.word .pass fun s => s.vlogic d k z (s.v a &&& s.v b)
/-- VOR. -/
def execVor (d a b : VReg) (k : KReg) (z : W2) (s : State) : Out :=
  s.word .pass fun s => s.vlogic d k z (s.v a ||| s.v b)
/-- VXOR. -/
def execVxor (d a b : VReg) (k : KReg) (z : W2) (s : State) : Out :=
  s.word .pass fun s => s.vlogic d k z (s.v a ^^^ s.v b)
/-- VANDN. -/
def execVandn (d a b : VReg) (k : KReg) (z : W2) (s : State) : Out :=
  s.word .pass fun s => s.vlogic d k z (s.v a &&& ~~~s.v b)

/-! ### Narrowing and widening integers (R162) -/

/-- Source width, destination width, and whether the types are signed. -/
def narrowSel (z : NarrowSel) : Nat × Nat × Bool :=
  match z with
  | .i16i32 => (4, 2, true)
  | .n16n32 => (4, 2, false)
  | .i8i16 => (2, 1, true)
  | .n8n16 => (2, 1, false)

/-- The range of a type. -/
def typeRange (w : Nat) (signed : Bool) : Int × Int :=
  if signed then (minS w, maxS w) else (0, 2 ^ (8 * w) - 1)

/-- An element read as its type says. -/
def elemT (w : Nat) (signed : Bool) (x : V) (i : Nat) : Int := if signed then elemS w x i else (elem w x i : Nat)

/-- VNARROW: clamping raises SAT. -/
def execVnarrow (d a : VReg) (z : NarrowSel) (k : KReg) (s : State) : Out :=
  s.word .pass fun s =>
    let (ws, wd, sg) := narrowSel z
    let n := 128 / ws
    let x (i : Nat) : Int := elemT ws sg (s.v a) i
    let (lo, hi) := typeRange wd sg
    let sat := (List.range n).any fun i => (s.k k).getLsbD i && clampTo lo hi (x i) != x i
    s.vector d (pack wd ((List.range n).map fun i => wrapS wd (clampTo lo hi (x i)))) (activeBytes wd n (s.k k)) 4
      (flagIf sat flagSAT) 0

/-- Destination width, source width, and whether the types are signed. -/
def widenSel (z : WidenSel) : Nat × Nat × Bool :=
  match z with
  | .i32i16 => (4, 2, true)
  | .n32n16 => (4, 2, false)
  | .i16i8 => (2, 1, true)
  | .n16n8 => (2, 1, false)

/-- VWIDEN. -/
def execVwiden (d a : VReg) (z : WidenSel) (k : KReg) (s : State) : Out :=
  s.word .pass fun s =>
    let (wd, ws, sg) := widenSel z
    let n := 128 / wd
    s.vector d (pack wd ((List.range n).map fun i => wrapS wd (elemT ws sg (s.v a) i))) (activeBytes wd n (s.k k)) 4 0 0

/-! ### Permutes (R163) -/

/-- VPERM. -/
def execVperm (d a b : VReg) (k : KReg) (z : W2) (s : State) : Out :=
  s.word .pass fun s => s.vint d k z fun w i => elem w (s.v a) (elem w (s.v b) i % (128 / w))
/-- VSLIDE. -/
def execVslide (d a : VReg) (g : GLow) (k : KReg) (z : W2) (s : State) : Out :=
  s.word .pass fun s => s.vint d k z fun w i =>
    let j : Int := (i : Int) + (s.g g.toGReg).toInt
    if 0 ≤ j ∧ j < (128 / w : Nat) then elem w (s.v a) j.toNat else 0
/-- VTRN. -/
def execVtrn (d a b : VReg) (k : KReg) (z : W2) (s : State) : Out :=
  s.word .pass fun s => s.vint d k z fun w i =>
    if i % 2 = 0 then elem w (s.v a) (i / 2) else elem w (s.v b) (i / 2)
/-- VCOMPR: every element is written. -/
def execVcompr (d a : VReg) (k : KReg) (z : W2) (s : State) : Out :=
  s.word .pass fun s =>
    let w := w2Bytes z
    s.vector d (pack w (((List.range (128 / w)).filter fun i => (s.k k).getLsbD i).map (elem w (s.v a))))
      (BitVec.allOnes 128) 2 0 0
/-- The number of set bits of a mask below a position. -/
def rankBelow (k : K) : Nat → Nat
  | 0 => 0
  | i + 1 => rankBelow k i + boolNat (k.getLsbD i)
/-- VEXPD. -/
def execVexpd (d a : VReg) (k : KReg) (z : W2) (s : State) : Out :=
  s.word .pass fun s => s.vint d k z fun w i => elem w (s.v a) (rankBelow (s.k k) i)

/-! ### Integer reductions and scans (R49, R164, R165) -/

/-- One step of an integer reduction on elements of a width, as unsigned patterns. -/
def redOp (c : RedSel) (w a b : Nat) : Nat :=
  let sg (x : Nat) : Int := (BitVec.ofNat (8 * w) x).toInt
  match c with
  | .sum => (a + b) % 2 ^ (8 * w)
  | .min => if sg b < sg a then b else a
  | .max => if sg a < sg b then b else a
  | .minn => if b < a then b else a
  | .maxn => if a < b then b else a

/-- The identity of an integer reduction (R49). -/
def redId (c : RedSel) (w : Nat) : Nat :=
  match c with
  | .sum => 0
  | .min => 2 ^ (8 * w - 1) - 1
  | .max => 2 ^ (8 * w - 1)
  | .minn => 2 ^ (8 * w) - 1
  | .maxn => 0

/-- One level of the tree: lanes 2i and 2i + 1 (R49). -/
def treeLevel {α : Type} (f : α → α → α) : List α → List α
  | a :: b :: l => f a b :: treeLevel f l
  | l => l

/-- The tree, a number of levels deep. -/
def tree {α : Type} (f : α → α → α) : Nat → List α → List α
  | 0, l => l
  | n + 1, l => tree f n (treeLevel f l)

/-- VRED, integer. -/
def execVredInt (d a : VReg) (c : RedSel) (k : KReg) (z : W2) (s : State) : Out :=
  s.word .pass fun s =>
    let w := w2Bytes z
    let lanes := (List.range (128 / w)).map fun i => if (s.k k).getLsbD i then elem w (s.v a) i else redId c w
    s.vector d (pack w ((tree (redOp c w) 7 lanes).take 1)) (BitVec.allOnes 128) 2 0 0

/-- An inclusive prefix: the accumulator after each lane (R165). -/
def scan {α β : Type} (f : β → α → β) : β → List α → List β
  | _, [] => []
  | acc, x :: l => f acc x :: scan f (f acc x) l

/-- VSCAN, integer. -/
def execVscanInt (d a : VReg) (c : RedSel) (k : KReg) (z : W2) (s : State) : Out :=
  s.word .pass fun s =>
    let w := w2Bytes z
    let step (acc i : Nat) : Nat := if (s.k k).getLsbD i then redOp c w acc (elem w (s.v a) i) else acc
    s.vector d (pack w (scan step (redId c w) (List.range (128 / w)))) (BitVec.allOnes 128) 2 0 0

/-! ### Compares, selection and moves (R169, R170) -/

/-- A VCMP condition on an element pair. -/
def cmpHolds (c : Cond) (w : Nat) (a b : V) (i : Nat) : Bool :=
  match c with
  | .eq => elem w a i == elem w b i
  | .ne => elem w a i != elem w b i
  | .lt => decide (elemS w a i < elemS w b i)
  | .ge => decide (elemS w b i ≤ elemS w a i)
  | .ltn => decide (elem w a i < elem w b i)
  | .gen => decide (elem w b i ≤ elem w a i)

/-- A mask of the lanes below n for which a condition holds. -/
def maskOf (n : Nat) (p : Nat → Bool) : K :=
  BitVec.ofNat 128 ((List.range n).foldl (fun a i => if p i then a + 2 ^ i else a) 0)

/-- VCMP. -/
def execVcmp (d : KReg) (a b : VReg) (k : KReg) (c : Cond) (z : W2) (s : State) : Out :=
  s.word .pass fun s =>
    s.maskTo d (maskOf (128 / w2Bytes z) fun i => (s.k k).getLsbD i && cmpHolds c (w2Bytes z) (s.v a) (s.v b) i) 2 0 0
/-- VSEL: every element is written. -/
def execVsel (d a b : VReg) (k : KReg) (z : W2) (s : State) : Out :=
  s.word .pass fun s =>
    let sel := spread (activeBytes (w2Bytes z) (128 / w2Bytes z) (s.k k)) 8 128
    s.vector d (blend sel (s.v a) (s.v b)) (BitVec.allOnes 128) 2 0 0
/-- VBCAST. -/
def execVbcast (d : VReg) (g : GLow) (k : KReg) (z : W2) (s : State) : Out :=
  s.word .pass fun s => s.vint d k z fun _ _ => (s.g g.toGReg).toNat
/-- The element that a scalar names: its low log2(n) bits. -/
def laneOf (x : W) (z : W2) : Nat := x.toNat % (128 / w2Bytes z)
/-- VEXT: zero-extended. -/
def execVext (g : GLow) (a : VReg) (h : GLow) (z : W2) (s : State) : Out :=
  s.word .pass fun s =>
    s.scalar g.toGReg (BitVec.ofNat 64 (elem (w2Bytes z) (s.v a) (laneOf (s.g h.toGReg) z))) 2
/-- VINS: the other elements are those of vd at issue, a source (R54, R170). -/
def execVins (d : VReg) (g h : GLow) (z : W2) (s : State) : Out :=
  s.word .pass fun s =>
    let w := w2Bytes z
    let n := 128 / w
    let j := laneOf (s.g h.toGReg) z
    s.vector d (pack w ((List.range n).map fun i => if i = j then (s.g g.toGReg).toNat else elem w (s.v d) i))
      (BitVec.allOnes 128) 2 0 0

/-! ### Mask instructions (R171) -/

/-- KAND. -/
def execKand (d a b : KReg) (s : State) : Out := s.word .pass fun s => s.maskTo d (s.k a &&& s.k b) 2 0 0
/-- KOR. -/
def execKor (d a b : KReg) (s : State) : Out := s.word .pass fun s => s.maskTo d (s.k a ||| s.k b) 2 0 0
/-- KXOR. -/
def execKxor (d a b : KReg) (s : State) : Out := s.word .pass fun s => s.maskTo d (s.k a ^^^ s.k b) 2 0 0
/-- KNOT. -/
def execKnot (d a : KReg) (s : State) : Out := s.word .pass fun s => s.maskTo d (~~~s.k a) 2 0 0
/-- KMOV. -/
def execKmov (d a : KReg) (s : State) : Out := s.word .pass fun s => s.maskTo d (s.k a) 2 0 0
/-- KPOPC. -/
def execKpopc (d : GLow) (a : KReg) (s : State) : Out :=
  s.word .pass fun s => s.scalar d.toGReg (BitVec.ofNat 64 (countOnes (s.k a).toNat 128)) 2
/-- KFIRST. -/
def execKfirst (d : GLow) (a : KReg) (s : State) : Out :=
  s.word .pass fun s => s.scalar d.toGReg (BitVec.ofNat 64 (trailingZeros (s.k a).toNat 128)) 2
/-- KSET. -/
def execKset (d : KReg) (a : GLow) (s : State) : Out :=
  s.word .pass fun s => s.maskTo d (maskOf 128 fun i => decide (i < (s.g a.toGReg).toNat)) 2 0 0

end Sys2Proof.Machine
end

