-- ==== Sys2Proof/Machine/VectorMem.lean ====
section
/-! DEFINITION. Vector memory words (spec/06 R138–R142; majors 0x10–0x12), with the replay of element-addressed words, and
ordered reduction (spec/07 R166–R168). -/

namespace Sys2Proof.Machine

/-! ### Contiguous words (R138, R140) -/

/-- An element of a vector access: its position in the register in bytes, its address and its width. -/
structure Elem where
  at_ : Nat
  va : W
  n : Nat
  deriving DecidableEq, Repr

/-- The active elements of a contiguous word, ascending. -/
def contiguous (w : Nat) (ga : W) (k : K) : List Elem :=
  ((List.range (128 / w)).filter fun i => k.getLsbD i).map fun i =>
    { at_ := w * i, va := ga + BitVec.ofNat 64 (w * i), n := w }

/-- The checks of every element, the cause that stands first in R99 and of those the lowest element's, and the waits that order the
word. Log 27: DEDUCED. -/
def State.elemsCheck (s : State) (acc : Access) (l : List Elem) : Verdict :=
  l.foldl (fun v e => v.sooner (s.memCheck acc e.va e.n)) .pass

/-- The elements with the places to which they are translated. Log 27: DEDUCED. -/
def State.located (s : State) (acc : Access) (l : List Elem) : List (Elem × Place) :=
  l.filterMap fun e => (s.locate acc e.va).map fun pl => (e, pl)

/-- The TLB entries of a word's elements used. -/
def State.touchAll (s : State) (l : List Elem) : State := l.foldl (fun a e => a.touch e.va) s

/-- A contiguous load whose elements all lie in the own tile store: fixed latency 4, performed whole or not at all; the
lowest poisoned element is reported (R140). -/
def State.vloadOwn (s : State) (d : Dest) (l : List (Elem × Place)) (act : K) (value : V → V) : State :=
  match l.find? fun x => s.placeBad x.2 x.1.n with
  | some x => s.fly fun m ba => { Landing.of d 0 (m + 4) ba with fault := some x.1.va }
  | none =>
    let bits := l.foldl (fun a x => a ||| (bytesV (s.strandBytes x.2 x.1.n) <<< (8 * x.1.at_))) 0
    (l.foldl (fun a x => a.correct x.2 x.1.n) s).fly fun m ba => { Landing.of d (value bits) (m + 4) ba with act := act }

/-- A contiguous load of which some element travels: one outstanding operation, one request per element, in ascending order (R139). -/
def State.vloadFar (s : State) (d : Dest) (fmt : PendFmt) (l : List (Elem × Place)) (act : K) : State :=
  let uid := s.fresh
  let s1 := (s.pend { Pend.make uid d fmt l.length true false s.issue.ba with act := act }).bump
  s1.requests s.acquires none (l.map fun x => (x.2, x.1.n, .read (s1.req x.2 x.1.n uid x.1.at_ x.1.va (s1.forwardedTo x.2 x.1.n))))

/-- A contiguous load. Log 109: DESIGN CHOICE. -/
def State.vload (s : State) (d : Dest) (fmt : PendFmt) (l : List Elem) (act : K) (value : V → V) : State :=
  let places := s.located .read l
  let s1 := s.touchAll l
  if l.isEmpty then s
  else if places.all fun x => s.ownStore x.2 then s1.vloadOwn d places act value
  else s1.vloadFar d fmt places act

/-- A store of several cells in ascending order: those of the own tile store at once up to the first that travels, that and the others as
requests of one outstanding operation; one commit entry in a rewrite (R137, R139). Log 109: DESIGN CHOICE. -/
def State.vstore (s : State) (l : List (Elem × W)) : State :=
  let cells := l.filterMap fun x => (s.locate .write x.1.va).map fun pl => (pl, x.1.va, x.1.n, x.2)
  let s1 := s.touchAll (l.map (·.1))
  if l.isEmpty then s
  else match s.rewriting with
    | some _ => s1.commit (.stores cells)
    | none =>
      let here (pl : Place) : Bool := s.ownStore pl && s.acquires.isEmpty
      let near := cells.takeWhile fun c => here c.1
      let far := cells.dropWhile fun c => here c.1
      let s2 := near.foldl (fun a c => a.writeNum a.party c.1 c.2.2.1 c.2.2.2.toNat) s1
      if far.isEmpty then s2
      else
        let uid := s2.fresh
        let s3 := (s2.pend (Pend.make uid .none .drop far.length true false s.issue.ba)).bump
        s3.requests s.acquires none (far.map fun c => (c.1, c.2.2.1, .write (s3.req c.1 c.2.2.1 uid 0 c.2.1 []) c.2.2.2))

/-- VLD. -/
def execVld (d : VReg) (a : GReg) (k : KReg) (z : W2) (s : State) : Out :=
  s.word (s.elemsCheck .read (contiguous (w2Bytes z) (s.g a) (s.k k))) fun s =>
    let w := w2Bytes z
    s.vload (.v d) .bytes (contiguous w (s.g a) (s.k k)) (activeBytes w (128 / w) (s.k k)) id

/-- VST. -/
def execVst (v : VReg) (a : GReg) (k : KReg) (z : W2) (s : State) : Out :=
  s.word (s.elemsCheck .write (contiguous (w2Bytes z) (s.g a) (s.k k))) fun s =>
    let w := w2Bytes z
    s.vstore ((contiguous w (s.g a) (s.k k)).map fun e => (e, BitVec.ofNat 64 (elem w (s.v v) (e.at_ / w))))

/-- The one element of VLDB; none where no element is active. -/
def single (w : Nat) (ga : W) (k : K) : List Elem :=
  if activeBytes w (128 / w) k = 0 then [] else [{ at_ := 0, va := ga, n := w }]

/-- VLDB. -/
def execVldb (d : VReg) (a : GReg) (k : KReg) (z : W2) (s : State) : Out :=
  s.word (s.elemsCheck .read (single (w2Bytes z) (s.g a) (s.k k))) fun s =>
    let w := w2Bytes z
    s.vload (.v d) (.bcast w) (single w (s.g a) (s.k k)) (activeBytes w (128 / w) (s.k k))
      fun x => repeatV w x (128 / w)

/-- VLDM. -/
def execVldm (d : KReg) (a : GReg) (s : State) : Out :=
  s.word (s.elemsCheck .read [{ at_ := 0, va := s.g a, n := 16 }]) fun s =>
    s.vload (if d = 0 then .none else .k d) (if d = 0 then .word else .mask) [{ at_ := 0, va := s.g a, n := 16 }]
      (BitVec.allOnes 128) id

/-- VSTM: two cells of 8 bytes. -/
def execVstm (v : KReg) (a : GReg) (s : State) : Out :=
  s.word (s.elemsCheck .write [{ at_ := 0, va := s.g a, n := 16 }]) fun s =>
    s.vstore [({ at_ := 0, va := s.g a, n := 8 }, (s.k v).extractLsb' 0 64),
      ({ at_ := 8, va := s.g a + 8, n := 8 }, (s.k v).extractLsb' 64 64)]

/-! ### Element-addressed words (R138–R142)

The word puts its replay record in the context; its elements are then performed in ascending order, one at a time. -/

/-- What an element-addressed word does to an element. -/
inductive ElemOp
  | load
  | store
  | amo (op : AmoOp)
  deriving DecidableEq, Repr

/-- The form of an element-addressed word: its vector register, its width, what it does, and whether a scalar stride is
used. -/
structure ElemForm where
  reg : VReg
  w : Nat
  op : ElemOp
  strided : Bool
  deriving DecidableEq, Repr

/-- The form of the word of a replay record. -/
def elemForm (i : Instr) : Option ElemForm :=
  match i with
  | .vlds v _ _ _ z => some ⟨v, w2Bytes z, .load, true⟩
  | .vsts v _ _ _ z => some ⟨v, w2Bytes z, .store, true⟩
  | .vgath v _ _ _ z => some ⟨v, w2Bytes z, .load, false⟩
  | .vscat v _ _ _ z => some ⟨v, w2Bytes z, .store, false⟩
  | .vamo v _ _ _ t => some ⟨v, 4, .amo (match t with | .i32 => .add | .f32 => .fadd), false⟩
  | _ => none

/-- The address of an element (R138). -/
def Replay.addr (r : Replay) (f : ElemForm) (i : Nat) : W :=
  if f.strided then r.ga + BitVec.ofNat 64 i * r.gb else r.ga + BitVec.ofNat 64 (elem f.w r.index i * f.w)

/-- The next element to perform, below a bound. -/
def Replay.next (r : Replay) (n : Nat) : Option Nat :=
  (List.range n).find? fun i => r.mask.getLsbD i && !r.done.getLsbD i

/-- The record of an element-addressed word put in the context; nothing is done where no element is active (R138).
Log 25: DESIGN CHOICE. -/
def State.startElems (s : State) (i : Instr) (ga gb : W) (data index : V) (k : K) : State :=
  match elemForm i with
  | none => s
  | some f =>
    if activeBytes f.w (128 / f.w) k = 0 then s
    else
      let r : Replay := { word := i, ga := ga, gb := gb, data := data, index := index, mask := k, done := 0, ba := s.issue.ba, running := true }
      s.modCtx fun c => { c with replay := some r }

/-- VLDS. -/
def execVlds (v : VReg) (a b : GReg) (k : KReg) (z : W2) (s : State) : Out :=
  s.word s.acquireWait fun s => s.startElems (.vlds v a b k z) (s.g a) (s.g b) 0 0 (s.k k)
/-- VSTS. -/
def execVsts (v : VReg) (a b : GReg) (k : KReg) (z : W2) (s : State) : Out :=
  s.word s.acquireWait fun s => s.startElems (.vsts v a b k z) (s.g a) (s.g b) (s.v v) 0 (s.k k)
/-- VGATH. -/
def execVgath (v : VReg) (a : GReg) (x : VReg) (k : KReg) (z : W2) (s : State) : Out :=
  s.word s.acquireWait fun s => s.startElems (.vgath v a x k z) (s.g a) 0 0 (s.v x) (s.k k)
/-- VSCAT. -/
def execVscat (v : VReg) (a : GReg) (x : VReg) (k : KReg) (z : W2) (s : State) : Out :=
  s.word s.acquireWait fun s => s.startElems (.vscat v a x k z) (s.g a) 0 (s.v v) (s.v x) (s.k k)
/-- VAMO. -/
def execVamo (v : VReg) (a : GReg) (x : VReg) (k : KReg) (t : VAmoT) (s : State) : Out :=
  s.word s.acquireWait fun s => s.startElems (.vamo v a x k t) (s.g a) 0 (s.v v) (s.v x) (s.k k)

/-- The access kind of an element. -/
def ElemOp.access : ElemOp → Access
  | .load => .read
  | .store => .write
  | .amo _ => .atomic

/-- The element's place is served by another tile's store, whose panes answer (R320, R323): a pane of another owner refuses;
a pane that its engine owns, or that a store finds STAGED, holds the request. A strand's own messages to the same bytes come
first. -/
def State.elemServer (s : State) (acc : Access) (pl : Place) (n : Nat) (va : W) : Verdict :=
  let pane := match pl with
    | .win t off =>
      if t = s.cur then Verdict.pass
      else
        let ps := panesOf off n
        if ps.any fun p => !s.tiles[t].panes[p].allows s.q then .trap .permission va
        else if ps.any fun p => s.tiles[t].panes[p].engine || (acc != Access.read && s.tiles[t].panes[p].staged != 0) then
          .wait
        else .pass
    | .hbm .. => s.linesVerdict [(pl, n)]
  (pane.andThen (s.heldWait pl)).andThen
    (if s.relay.any fun m =>
        (match m.amoOf s.strand.owner with
         | some (p, k) => p.meets k pl n
         | none => false) ||
        (acc != Access.read && match m.writeOf s.strand.owner with
         | some (p, bs) => p.meets bs.length pl n
         | none => false)
     then .wait else .pass)

/-- The replay record of the current strand changed. -/
def State.modReplay (s : State) (f : Replay → Replay) : State :=
  s.modCtx fun c => { c with replay := c.replay.map f }

/-- An element marked as performed. -/
def State.elemDone (s : State) (i : Nat) : State :=
  s.modReplay fun r => { r with done := r.done ||| ((1 : K) <<< i) }

/-- The cells of an entry added to the last entry of a commit buffer. -/
def lastCells (buf : List Commit) (e : Commit) : List Commit :=
  match buf.reverse, e with
  | .stores a :: l, .stores b => (.stores (a ++ b) :: l).reverse
  | .amos op wide a :: l, .amos _ _ b => (.amos op wide (a ++ b) :: l).reverse
  | _, _ => buf

/-- An element added to the commit entry of its word (R137): the first opens the entry. -/
def State.commitElem (s : State) (first : Bool) (e : Commit) : State :=
  if first then s.commit e
  else s.modRewrite fun r => { r with buf := lastCells r.buf e }

/-- An element performed (R139). Log 25: DESIGN CHOICE. -/
def State.performElem (s : State) (r : Replay) (f : ElemForm) (i : Nat) (pl : Place) (va : W) : State :=
  let x := BitVec.ofNat 64 (elem f.w r.data i)
  let s1 := ((s.touch va).useLines [(pl, f.w)]).elemDone i
  match f.op, s.rewriting with
  | .load, _ =>
    let bits := bytesV (s.strandBytes pl f.w) <<< (8 * f.w * i)
    (s1.correct pl f.w).modCtx fun c => c.setV f.reg (blend (spread (activeBytes f.w (128 / f.w) ((1 : K) <<< i)) 8 128) bits (c.v f.reg))
  | .store, some _ => s1.commitElem (r.done == 0) (.stores [(pl, va, f.w, x)])
  | .amo op, some _ => s1.commitElem (r.done == 0) (.amos op false [(pl, va, x, 0)])
  | .store, none => s1.writeNum s.party pl f.w x.toNat
  | .amo op, none =>
    let r := amoValue op false (BitVec.ofNat 64 (s.readNum s.party pl 4)) x 0
    let s2 := match r.1 with
      | some v => s1.writeNum s.party pl 4 v.toNat
      | none => s1
    s2.modCtx fun c => c.orFlags r.2

/-- A fault of an element delivered (R141): the record keeps DONE, TRAPMASK := DONE, TRAPPC = the next bundle. `rest` performs the
other words of the word's bundle, which have issued. Log 26: DEDUCED. -/
def State.elemFault (s : State) (rest : State → State) (r : Replay) (c : Cause) (va : W) : State :=
  let s1 := rest (s.modReplay fun r => { r with running := false })
  s1.takeTrap s.cur s.curK c va (some r.done) s1.ctx.pc

/-- A store refused at another tile's pane is not performed: PERMISSION follows at the next boundary, TRAPMASK is not
written (R320). Log 26: DEDUCED. -/
def State.elemRefused (s : State) (i : Nat) (va : W) : State :=
  (s.elemDone i).addDue .permission va none

/-- The current strand's element-addressed word goes on by one element, or ends. -/
def State.elemStep (s : State) (rest : State → State) (r : Replay) : State :=
  let atEnd := s.modCtx fun c => { c with replay := none, refused := [] }
  match elemForm r.word with
  | none => atEnd
  | some f => match r.next (128 / f.w) with
    | none => atEnd
    | some i =>
      let va := r.addr f i
      let acc := f.op.access
      match (s.accessCheck acc f.w va f.w).andThen s.acquireWait with
      | .trap c v => s.elemFault rest r c v
      | .stall => s
      | .wait => s.stopBy .wait
      | .miss a v t => s.stopBy (.miss a v t)
      | .pass => match s.locate acc va with
        | none => s.elemFault rest r .xlateS1 va
        | some pl =>
          let buffered := f.op != .load && s.rewriting.isSome
          if buffered then s.performElem r f i pl va
          else match s.elemServer acc pl f.w va with
            | .trap c v => if f.op = .store then s.elemRefused i v else s.elemFault rest r c v
            | .pass =>
              if f.op != .store && s.placeBad pl f.w then s.elemFault rest r .poison va
              else s.performElem r f i pl va
            | .stall | .wait | .miss .. => (s.askLines s.q [(pl, f.w)]).stopBy .wait

/-! ### Ordered reduction (R166–R168) -/

/-- The checks of VRORD: 64-byte alignment, R and W (R402), and an object homed in a cache bank. -/
def State.reduceCheck (s : State) (va : W) : Verdict :=
  (s.accessCheckFor .atomic 64 va 64 fun
    | .win .. => .trap .permission va
    | .hbm .. => .pass).andThen s.acquireWait

/-- The slice that a register and a mask contribute: inactive elements are −0. -/
def sliceOf (v : V) (k : K) : V :=
  pack 4 ((List.range 32).map fun i => if k.getLsbD i then elem 4 v i else Fmt.zero Fmt.f32 true)

/-- The places of the second and third lines of an ordered reduction object, which hold SUM (R166, R404). -/
def State.sumPlaces (s : State) (va : W) (pl : Place) : List Place :=
  [64, 128].map fun n => (s.locate .atomic (va + BitVec.ofNat 64 n)).getD (pl.plus n)

/-- VRORD: performed when its slice is accepted at the home; a commit entry in a rewrite. -/
def execVrord (v : VReg) (a b : GLow) (k : KReg) (s : State) : Out :=
  s.word (s.reduceCheck (s.g a.toGReg)) fun s =>
    let va := s.g a.toGReg
    let idx := (s.g b.toGReg).toNat % 2 ^ 32
    match s.locate .atomic va with
    | none => s
    | some pl =>
      let s1 := s.touch va
      let data := sliceOf (s.v v) (s.k k)
      match s.rewriting with
      | some _ => s1.commit (.slice va pl (s.sumPlaces va pl) idx data (s.k k))
      | none =>
        let p := Pend.make s.fresh .none .drop 1 true false s.issue.ba
        let r := { s.req pl 192 s.fresh 0 va [] with more := s.sumPlaces va pl }
        ((s1.pend p).bump).request pl 192 (.slice r idx data (s.k k)) s.acquires

end Sys2Proof.Machine
end

