-- ==== Sys2Proof/Machine/Parking.lean ====
section
/-! DEFINITION. Messages of the device to the host (spec/26 R418), page requests (spec/25 R412, R413, R415), the saving of
threads to their frames (spec/23 R384, R385, R387–R391, spec/15 R297) and parking (R392, spec/24 R396). -/

namespace Sys2Proof.Machine

/-! ### Messages to the host -/

/-- A function's streams changed. -/
def State.modStream (s : State) (fn : Fin 193) (f : Stream → Stream) : State :=
  { s with streams := s.streams.set fn (f s.streams[fn]) }

/-- A message of the device takes the next number of its function's stream and is kept until it is acknowledged, the last
1,024 of them (R418). Log 10: DESIGN CHOICE. -/
def State.deviceSend (s : State) (fn : Fin 193) (kind : BitVec 8) (corr : W) (body : List W) : State :=
  s.modStream fn fun x =>
    let m : HostMsg := { kind := kind, seqno := x.next, corr := corr, body := body }
    let l := x.kept ++ [m]
    { x with next := x.next + 1, kept := l.drop (l.length - 1024), egress := x.egress ++ [m] }

/-! ### Page requests -/

/-- An IPA lies in a range of a size (R412). -/
def inRange (ipa base : Nat) (z : Fin 4) : Bool := ipa / 2 ^ pageBits z == base / 2 ^ pageBits z

/-- ACCESS of a PAGE_REQUEST (R413): 3 for the read of a table. -/
def accessCode (acc : Access) (table : Bool) : Fin 4 :=
  if table then 3
  else match acc with
    | .read => 0
    | .write | .atomic => 1
    | .fetch => 2

/-- REQ of a PAGE_REQUEST (R413). -/
def Waiter.code : Waiter → Nat
  | .thread .. => 0
  | .chan .. => 1
  | .pair .. => 2

/-- The first tag after the last handed out that is neither outstanding nor retired (R412); the queue holds at most 64. -/
def nextTag (tags : List PageTag) : BitVec 8 → Nat → BitVec 8
  | t, 0 => t
  | t, n + 1 => if tags.any fun x => x.tag == t then nextTag tags (t + 1) n else t

/-- A page request raised (R412, R413). -/
def State.raisePage (s : State) (vf : Fin 192) (m : PageMiss) : State :=
  let fn : Fin 193 := ⟨vf.val, by omega⟩
  let x := s.streams[fn]
  let tag := nextTag x.tags (match x.lastTag with | some t => t + 1 | none => 0) 64
  let b := 2 ^ pageBits m.size
  let page := m.ipa / b * b
  let rec_ : PageTag := { tag := tag, ipa := page, size := m.size, acc := m.acc, seq := m.seq, tile := m.tile,
                          retired := false, raised := s.domain.sid, waiters := [m.who] }
  let s1 := s.modStream fn fun y => { y with tags := y.tags ++ [rec_], lastTag := some tag }
  let s2 := s1.modCounts m.seq fun c => { c with pageRequests := c.pageRequests + 1 }
  s2.deviceSend fn 4 0
    [BitVec.ofNat 64 (page + m.size.val * 2 ^ 10 + m.acc.val * 2 ^ 8 + tag.toNat),
     BitVec.ofNat 64 (vf.val * 2 ^ 24 + (partOf m.seq).val * 2 ^ 20 + (seqNo m.seq).val * 2 ^ 16 + m.who.code * 2 ^ 14 +
       m.tile.val),
     BitVec.ofNat 64 s.domain.sid, 0]

/-- The outstanding tag of a VF whose range holds an IPA (R412). -/
def Stream.covering (x : Stream) (ipa : Nat) : Option PageTag := x.tags.find? fun t => !t.retired && inRange ipa t.ipa t.size

/-- A miss at stage 2 (R412): it waits on the tag whose range holds it, raises a request, or waits for room. -/
def State.pageMiss (s : State) (vf : Fin 192) (m : PageMiss) : State :=
  let fn : Fin 193 := ⟨vf.val, by omega⟩
  let x := s.streams[fn]
  match x.covering m.ipa with
  | some t =>
    let join (y : PageTag) : PageTag :=
      if y.tag = t.tag ∧ !y.waiters.contains m.who then { y with waiters := y.waiters ++ [m.who] } else y
    s.modStream fn fun y => { y with tags := y.tags.map join }
  | none =>
    if 64 ≤ x.tags.length then s.modStream fn fun y => { y with misses := y.misses ++ [m] } else s.raisePage vf m

/-- Misses that waited for room, taken in order while there is some (R412). -/
def State.raiseWaiting (s : State) (vf : Fin 192) : Nat → State
  | 0 => s
  | n + 1 =>
    let fn : Fin 193 := ⟨vf.val, by omega⟩
    match s.streams[fn].misses with
    | [] => s
    | m :: l =>
      if 64 ≤ s.streams[fn].tags.length then s
      else ((s.modStream fn fun y => { y with misses := l }).pageMiss vf m).raiseWaiting vf n

/-- A requester that has ended waits no longer: a tag that nobody waits on is retired (R415). -/
def State.withdraw (s : State) (vf : Fin 192) (w : Waiter) : State :=
  let drop (t : PageTag) : PageTag :=
    let l := t.waiters.filter (· != w)
    { t with waiters := l, retired := t.retired || l.isEmpty }
  s.modStream ⟨vf.val, by omega⟩ fun y => { y with tags := y.tags.map drop, misses := y.misses.filter fun m => m.who != w }

/-- A work still waits on a tag or for room in a VF's queue. -/
def Stream.waits (x : Stream) (w : Waiter) : Bool :=
  (x.tags.any fun t => !t.retired && t.waiters.contains w) || x.misses.any fun m => m.who == w

/-! ### Saving to a frame -/

/-- A free vector value, number n and register r. -/
def freeV (n r : Nat) : V := BitVec.ofNat 1024 (leNat ((List.range 128).map fun i => Config.freeByte n (1000 + 128 * r + i)))

/-- The registers outside a live map are unpredictable after the restore (R117, R375). -/
def Regs.mapped (x : Regs) (map : W × W) (n : Nat) : Regs :=
  { g := Vector.ofFn fun r => if map.1.getLsbD r.val then x.g[r] else Config.freeWord (n + r.val),
    v := Vector.ofFn fun r => if map.2.getLsbD r.val then x.v[r] else freeV n r.val,
    k := Vector.ofFn fun r => if map.2.getLsbD (32 + r.val) then x.k[r]
      else (Config.freeWord (n + 64 + 2 * r.val) ++ Config.freeWord (n + 65 + 2 * r.val) : BitVec 128) }

/-- A strand's thread can be saved now: no divide of it is in flight, and the words of the unit that it holds have been
performed (R172, R297, R384). -/
def State.saveable (s : State) (t : TileId) (k : StrandId) : Bool :=
  let x := s.strandAt t k
  let m := s.tiles[t].matrix
  x.under.isNone &&
  (match s.tiles[t].core.divider with
   | some d => d.owner != x.owner
   | none => true) &&
  (match m.holder with
   | some (o, _) => o != x.owner || m.queue.isEmpty
   | none => true)

/-- A holding thread's accumulators written to its frame, and the unit freed and cleared (R297). -/
def State.saveUnit (s : State) (t : TileId) (owner : Nat) (th : Thread) : State × Bool :=
  match s.tiles[t].matrix.holder with
  | some (o, _) =>
    if o = owner then
      ((s.writeAccs th.seq (framePlace t th.frame) s.tiles[t].matrix).modMatrix t fun m =>
        { m with holder := none, clearing := true, accs := Vector.replicate 4 ⟨AccBank.zero, AccBank.zero⟩ }, true)
    else (s, false)
  | none => (s, false)

/-- A resident thread saved to its frame in a state, whole or by a live map, and its strand freed (R384, R385, R387). -/
def State.saveThread (s : State) (t : TileId) (k : StrandId) (st : ThreadState) (map : Option (W × W)) : State :=
  let x := s.strandAt t k
  match x.work with
  | .thread i => match s.tiles[t].core.threads[i] with
    | none => s
    | some th =>
      let (s1, accs) := s.saveUnit t x.owner th
      let c := { x.ctx with parked := false,
                            regs := match map with
                              | some m => x.ctx.regs.mapped m s.free
                              | none => x.ctx.regs }
      let s2 := if map.isSome then { s1 with free := s1.free + 81 } else s1
      let th1 := { th with state := st, saved := c, mapped := map.isSome, accs := accs, ready := x.ready }
      ((s2.modThread t i fun _ => th1).writeFrame t th1 c).freeStrand t k
  | .free | .rewrite _ | .firmware => s

/-- The state in which a thread is saved: PARKED while it waits for pages, SLEEP in WFE, otherwise SAVED (R379, R384). -/
def Ctx.saveState (c : Ctx) : ThreadState :=
  if c.parked then .parked else if c.sleeping && !c.event then .sleep else .saved

/-- The live map of a SAFE bundle (R117, R375). -/
def State.liveMap (s : State) (q : SeqId) (ba : W) : Option (W × W) :=
  match s.seqs[q] with
  | none => none
  | some x => (x.image.safes.find? fun e => e.1 == ba).map (·.2)

/-! ### Parking -/

/-- The thread of a strand is parked on page requests (R392): TRAPMASK := DONE for an element-addressed word, unless INTRAP is
set (R141); it is saved at once where it can be, and otherwise as soon as it can. Parking is a switch event (R396). -/
def State.parkThread (s : State) (t : TileId) (k : StrandId) : State :=
  let mark (c : Ctx) : Ctx :=
    match c.replay with
    | some r => { c with parked := true, trap := if c.intrap then c.trap else { c.trap with mask := r.done } }
    | none => { c with parked := true }
  let s1 := s.modStrandAt t k fun x => { x with ctx := mark x.ctx }
  let s2 := if s1.tiles[t].core.fg = some k then s1.switchEvent t else s1
  if s2.saveable t k then s2.saveThread t k .parked none else s2

/-- A parked thread whose last reply is in becomes SAVED, or goes on where it had not been saved (R392, R397). -/
def State.unparkThread (s : State) (t : TileId) (owner : Nat) : State :=
  match s.tiles[t].core.strandOf owner with
  | some k => s.modStrandAt t k fun x => { x with ctx := { x.ctx with parked := false } }
  | none => match s.tiles[t].core.threadOf owner with
    | some i =>
      s.modThread t i fun th => if th.state = .parked then { th with state := .saved } else th
    | none => s

/-- The PARK of a pair changed, in its bag or on its way there: an entry that becomes runnable goes to the tail (R361).
Log 73: DEDUCED. -/
def State.repark (s : State) (t : TileId) (q : SeqId) (a b : BitVec 50) (was now : Fin 8) : State :=
  let is (e : BagEntry) : Bool := e.seq == q && e.lineA == a && e.lineB == b && e.park == was
  let change (e : BagEntry) : BagEntry := { e with park := now, waited := 0, poisons := if now = 0 then 0 else e.poisons }
  let onWay (m : Msg) : Msg := match m.body with
    | .pair e lent done => if m.dst == t && is e then { m with body := .pair (change e) lent done } else m
    | .read _ | .readRsp .. | .write .. | .amo .. | .amoRsp .. | .netop .. | .netrsp .. | .borrow | .msg ..
    | .creditWords .. | .creditSeq _ | .ack _ | .recall _ | .slice .. => m
  ({ s with relay := s.relay.map onWay }).modTile t fun x =>
    { x with bag := (x.bag.filter fun e => !is e) ++ (x.bag.filter is).map change }

/-- A channel changed. -/
def State.modChan (s : State) (t : TileId) (c : ChanId) (f : Chan → Chan) : State :=
  s.modTile t fun x => { x with chans := x.chans.set c (f x.chans[c]) }

/-- A queued command changed. -/
def State.modCmd (s : State) (t : TileId) (c : ChanId) (uid : Nat) (f : Cmd → Cmd) : State :=
  s.modChan t c fun x => { x with queue := x.queue.map fun y => if y.uid = uid then f y else y }

/-- A request before a Meridian changed. -/
def State.modMeridian (s : State) (d : DieId) (uid : Nat) (f : MeridianItem → MeridianItem) : State :=
  s.modDie d fun x => { x with meridian := x.meridian.map fun y => if y.uid = uid then f y else y }

/-- A requester is told of a reply to its page request (R397, R361, R199, R415): the range, and whether it was mapped. -/
def State.pageTold (s : State) (vf : Fin 192) (w : Waiter) (ipa : Nat) (z : Fin 4) (ok : Bool) : State :=
  match w with
  | .thread t owner =>
    let s1 := if ok then s else s.modWork t owner fun c => { c with refused := c.refused ++ [(ipa, z)] }
    if s1.streams[(⟨vf.val, by omega⟩ : Fin 193)].waits w then s1 else s1.unparkThread t owner
  | .pair t q a b => s.repark t q a b 1 (if ok then 0 else 4)
  | .chan t c uid =>
    let go (x : Cmd) : Cmd := { x with parked := false, refused := if ok then x.refused else x.refused ++ [(ipa, z)] }
    let ask (x : MeridianItem) : MeridianItem :=
      { x with parked := false, refused := if ok then x.refused else x.refused ++ [(ipa, z)] }
    ((s.modMeridian (dieOf t) uid ask).modCmd t c uid go).modChan t c fun x =>
      if x.state = .waitPage ∧ (x.queue.head?.map (·.uid)) = some uid then { x with state := .run } else x

/-- A reply to an outstanding tag (R414, R415): the tag is freed and every requester is told. -/
def State.pageAnswer (s : State) (vf : Fin 192) (tag : PageTag) (ok : Bool) : State :=
  let fn : Fin 193 := ⟨vf.val, by omega⟩
  let s1 := s.modStream fn fun y => { y with tags := y.tags.filter fun t => t.tag != tag.tag }
  (tag.waiters.foldl (fun a w => a.pageTold vf w tag.ipa tag.size ok) s1).raiseWaiting vf 64

end Sys2Proof.Machine
end

