-- ==== Sys2Proof/Machine/HostCore.lean ====
section
/-! DEFINITION. The host port's messages (spec/26 R417, R418, R421, R422): functions, events on their way to the host, and
completions. -/

namespace Sys2Proof.Machine

/-- The function that FN names (R417): a VF, or the MF, which is number 192. -/
def fnOf (x : BitVec 8) : Option (Fin 193) :=
  if h : x.toNat < 192 then some ⟨x.toNat, by omega⟩ else if x = 255 then some 192 else none

/-- The function of a VF. -/
def vfFn (v : Fin 192) : Fin 193 := ⟨v.val, by omega⟩

/-! ### Events (R421, R422) -/

/-- The body of an EVENT (R421). -/
def EventRec.body (e : EventRec) : List W :=
  [BitVec.ofNat 64 (e.seq.val * 2 ^ 20 + e.part.val * 2 ^ 16 + e.code.toNat), BitVec.ofNat 64 e.time] ++ e.detail

/-- A queue of a die controller is not empty: it holds an event, or its last entry holds a count of dropped ones. -/
def Die.queued (x : Die) (n : Fin 17) : Bool := (x.events.any fun e => e.queue == n) || x.dropped.any fun y => y.1 == n

/-- The next queue, round-robin after the last served (R422). -/
def Die.nextQueue (x : Die) : Option (Fin 17) :=
  ((List.range 17).map fun i => (⟨(x.lastQueue.val + 1 + i) % 17, by omega⟩ : Fin 17)).find? x.queued

/-- The first event of a queue taken out. -/
def takeEvent (n : Fin 17) : List EventRec → List EventRec
  | [] => []
  | e :: l => if e.queue = n then l else e :: takeEvent n l

/-- The functions that hear of the events dropped from a queue (R439): the MF of its own, and those of the partition. Log 75: DEDUCED. -/
def State.overflowFns (s : State) (n : Fin 17) : List (Fin 193) :=
  if h : n.val < 16 then
    (match s.parts[n.val] with
     | some x => ((List.finRange 192).filter fun v => x.vfs.getLsbD v.val).map vfFn
     | none => []) ++ [192]
  else [192]

/-- A die's events reach the host port (R26, R422): die 0's, and another's over its event circuit while links join it to die 0. -/
def State.eventWay (s : State) (d : DieId) : Bool :=
  d == 0 || (s.meetsZero d && s.standing.any fun y => y.part.isNone && y.die == d)

/-- A die controller sends one event (R422), none while the die is in reset (R423). The body of OVERFLOW is its count.
Log 10: DESIGN CHOICE. -/
def State.sendEvent (s : State) (d : DieId) : State :=
  let x := s.dies[d]
  if x.inReset || !s.eventWay d then s
  else match x.nextQueue with
    | none => s
    | some n =>
      match x.events.find? fun e => e.queue == n with
      | some e =>
        (s.modDie d fun y => { y with events := takeEvent n y.events, lastQueue := n }).deviceSend e.fn 3 0 e.body
      | none =>
        let k := ((x.dropped.find? fun y => y.1 == n).map (·.2)).getD 0
        let w0 : W := BitVec.ofNat 64 (n.val % 16 * 2 ^ 16 + 0x000B)
        let s1 := s.modDie d fun y => { y with dropped := y.dropped.filter fun z => z.1 != n, lastQueue := n }
        (s.overflowFns n).foldl (fun a fn =>
          a.deviceSend fn 3 0 [w0, BitVec.ofNat 64 s.domain.sid, BitVec.ofNat 64 k]) s1

/-- EVENT_SEND (R422). -/
def execEventSend (d : DieId) (s : State) : Out := .next (s.sendEvent d)

/-- Every event of a die sent. Log 75: DEDUCED. -/
def State.flushDie (s : State) (d : DieId) : Nat → State
  | 0 => s
  | n + 1 => (s.sendEvent d).flushDie d n

/-- Every queued event sent: a COMPLETION leaves after every EVENT that its action raised (R418). -/
def State.flush (s : State) : State :=
  (List.finRange 4).foldl (fun a d => a.flushDie d (a.dies[d].events.length + a.dies[d].dropped.length)) s

/-! ### Completions (R418, R419) -/

/-- The COMPLETION messages of a command sent, and kept with the last 64. -/
def State.completeAll (s : State) (fn : Fin 193) (h : HostHdr) (bodies : List (List W)) : State :=
  let s1 := s.flush
  let n := s1.streams[fn].next
  let s2 := bodies.foldl (fun a b => a.deviceSend fn 2 h.corr b) s1
  s2.modStream fn fun x =>
    let l := x.done ++ [(h.seqno.toNat, x.kept.filter fun m => n ≤ m.seqno)]
    { x with done := l.drop (l.length - 64) }

/-- A command completed with a STATUS and the words of its result (R419). -/
def State.complete (s : State) (fn : Fin 193) (h : HostHdr) (status : BitVec 8) (words : List W) : State :=
  s.completeAll fn h [status.setWidth 64 :: words]

/-- A command that another function's action has ended completed (R428). -/
def State.completeHdr (s : State) (h : HostHdr) (status : BitVec 8) : State :=
  match fnOf h.fn with
  | some fn => s.complete fn h status []
  | none => s

/-! ### Whose sequence -/

/-- The partition of a VF (R27). -/
def State.partOfVf (s : State) (v : Fin 192) : Option PartId :=
  (List.finRange 16).find? fun p => match s.parts[p] with
    | some x => x.vfs.getLsbD v.val
    | none => false

/-- The sequence of a number that was submitted through a VF (R419). -/
def State.ownSeq (s : State) (v : Fin 192) (n : Fin 16) : Option SeqId :=
  match s.partOfVf v with
  | none => none
  | some p => match s.seqs[seqOf p n] with
    | some x => if x.vf = v then some (seqOf p n) else none
    | none => none

end Sys2Proof.Machine
end

