-- ==== Sys2Proof/Machine/VecFp.lean ====
section
/-! DEFINITION. Vector floating-point words, approximations, conversions, BX packing, floating-point reductions, scans and
compares (spec/07 R148–R149, R152–R161, R164, R165, R169; spec/02 R35–R49; majors 0x14 to 0x18). -/

namespace Sys2Proof.Machine

/-! ### Elements and results -/

/-- The OR of flags. -/
def orAll (l : List (BitVec 6)) : BitVec 6 := l.foldl (· ||| ·) 0

/-- The lanes of a list whose flags include an enabled one (R40). -/
def hotLanes (en : BitVec 6) (l : List (BitVec 6)) : K := maskOf l.length fun i => decide (l.getD i 0 &&& en ≠ 0)

/-- The bytes of a format. -/
def Fmt.bytes (f : Fmt) : Nat := f.width / 8

/-- The elements of a register in a format. -/
def Fmt.lanes (f : Fmt) : Nat := 128 / f.bytes

/-- Element i of a register as a datum, subnormals being zero under FTZ (R44). -/
def Ctx.num (c : Ctx) (f : Fmt) (x : V) (i : Nat) : Num := unpack f (flushIn f c.ftz (elem f.bytes x i))

/-- A floating-point result per lane from the lane's number: destination width, number of lanes, latency 4 (R148, R149). -/
def State.vfpLanes (s : State) (d : VReg) (k : KReg) (w n : Nat) (f : Nat → Nat × BitVec 6) : State :=
  let rs := (List.range n).map fun i => if (s.k k).getLsbD i then f i else (0, 0)
  let fl := rs.map (·.2)
  s.vector d (pack w (rs.map (·.1))) (activeBytes w n (s.k k)) 4 (orAll fl) (hotLanes s.ctx.fpEnables fl)

/-- An element-wise word of a format. -/
def State.vfp (s : State) (d : VReg) (k : KReg) (t : FP2) (f : Fmt → Nat → Nat × BitVec 6) : State :=
  s.vfpLanes d k (fp2Fmt t).bytes (fp2Fmt t).lanes (f (fp2Fmt t))

/-- The current rounding mode (R38). -/
def State.rmode (s : State) : RMode := RMode.ofRM s.ctx.rm

/-! ### Arithmetic (R152–R154) -/

/-- VFADD. -/
def execVfadd (d a b : VReg) (k : KReg) (t : FP2) (s : State) : Out :=
  s.word .pass fun s => s.vfp d k t fun f i => addNum f s.rmode s.ctx.ftz (s.ctx.num f (s.v a) i) (s.ctx.num f (s.v b) i)
/-- VFSUB. -/
def execVfsub (d a b : VReg) (k : KReg) (t : FP2) (s : State) : Out :=
  s.word .pass fun s => s.vfp d k t fun f i =>
    addNum f s.rmode s.ctx.ftz (s.ctx.num f (s.v a) i) (s.ctx.num f (s.v b) i).negate
/-- VFMUL. -/
def execVfmul (d a b : VReg) (k : KReg) (t : FP2) (s : State) : Out :=
  s.word .pass fun s => s.vfp d k t fun f i => mulNum f s.rmode s.ctx.ftz (s.ctx.num f (s.v a) i) (s.ctx.num f (s.v b) i)

/-- a < b of two data that are not NaNs, −0 being below +0 where `zeros` (R153, R169). -/
def Num.lt (zeros : Bool) (a b : Num) : Bool :=
  match a, b with
  | .inf true, .inf true => false
  | .inf true, _ => true
  | .inf false, _ => false
  | .fin .., .inf n => !n
  | .fin x m _, .fin y n _ =>
    decide (a.fix < b.fix) || (zeros && m == 0 && n == 0 && x && !y)
  | _, _ => false

/-- VFMIN (or VFMAX) of two element patterns (R153). -/
def fminmax (f : Fmt) (ftz big : Bool) (x y : Nat) : Nat × BitVec 6 :=
  let x1 := flushIn f ftz x
  let y1 := flushIn f ftz y
  let a := unpack f x1
  let b := unpack f y1
  let fl := nanFlags [a, b]
  match a.isNan, b.isNan with
  | true, true => (f.nan, fl)
  | true, false => (y1, fl)
  | false, true => (x1, fl)
  | false, false => (if (if big then Num.lt true a b else Num.lt true b a) then y1 else x1, fl)

/-- VFMIN. -/
def execVfmin (d a b : VReg) (k : KReg) (t : FP2) (s : State) : Out :=
  s.word .pass fun s => s.vfp d k t fun f i => fminmax f s.ctx.ftz false (elem f.bytes (s.v a) i) (elem f.bytes (s.v b) i)
/-- VFMAX. -/
def execVfmax (d a b : VReg) (k : KReg) (t : FP2) (s : State) : Out :=
  s.word .pass fun s => s.vfp d k t fun f i => fminmax f s.ctx.ftz true (elem f.bytes (s.v a) i) (elem f.bytes (s.v b) i)

/-- A change of sign bit alone: NaNs become canonical (R152). -/
def signOnly (f : Fmt) (g : Nat → Nat) (x : Nat) : Nat × BitVec 6 :=
  let a := unpack f x
  if a.isNan then (f.nan, nanFlags [a]) else (g x, 0)

/-- VFABS. -/
def execVfabs (d a : VReg) (k : KReg) (t : FP2) (s : State) : Out :=
  s.word .pass fun s => s.vfp d k t fun f i =>
    signOnly f (fun x => x % 2 ^ (f.width - 1)) (elem f.bytes (s.v a) i)
/-- VFNEG. -/
def execVfneg (d a : VReg) (k : KReg) (t : FP2) (s : State) : Out :=
  s.word .pass fun s => s.vfp d k t fun f i =>
    signOnly f (fun x => (x + 2 ^ (f.width - 1)) % 2 ^ f.width) (elem f.bytes (s.v a) i)

/-- A datum rounded to an integral value (R152). -/
def rndNum (f : Fmt) (mode : RMode) (a : Num) : Nat × BitVec 6 :=
  match a with
  | .nan _ => (f.nan, nanFlags [a])
  | .inf n => (f.inf n, 0)
  | .fin n m x =>
    let (k, ex, _) := roundUnits mode n m x 0
    ((if ex then roundTo f .rne false n m x else roundTo f .rne false n k 0).1, flagIf (!ex) flagNX)

/-- VFRND. -/
def execVfrnd (d a : VReg) (k : KReg) (t : FP2) (s : State) : Out :=
  s.word .pass fun s => s.vfp d k t fun f i => rndNum f s.rmode (s.ctx.num f (s.v a) i)

/-- The class code of an element pattern (R153). -/
def fclass (f : Fmt) (x : Nat) : Nat :=
  match unpack f x with
  | .nan sig => if sig then 2 ^ 8 else 2 ^ 9
  | .inf n => if n then 2 ^ 0 else 2 ^ 7
  | .fin n m _ =>
    if m = 0 then (if n then 2 ^ 3 else 2 ^ 4)
    else if subnormal f x then (if n then 2 ^ 2 else 2 ^ 5)
    else if n then 2 ^ 1 else 2 ^ 6

/-- VFCLASS. -/
def execVfclass (d a : VReg) (k : KReg) (t : FP2) (s : State) : Out :=
  s.word .pass fun s => s.vfp d k t fun f i => (fclass f (elem f.bytes (s.v a) i), 0)

/-- VFMA. -/
def execVfma (d a b : VReg) (k : KReg) (t : FP2) (s : State) : Out :=
  s.word .pass fun s => s.vfp d k t fun f i =>
    fmaNum f s.rmode s.ctx.ftz (s.ctx.num f (s.v a) i) (s.ctx.num f (s.v b) i) (s.ctx.num f (s.v d) i)
/-- VFMS. -/
def execVfms (d a b : VReg) (k : KReg) (t : FP2) (s : State) : Out :=
  s.word .pass fun s => s.vfp d k t fun f i =>
    fmaNum f s.rmode s.ctx.ftz (s.ctx.num f (s.v a) i) (s.ctx.num f (s.v b) i) (s.ctx.num f (s.v d) i).negate
/-- VFNMA. -/
def execVfnma (d a b : VReg) (k : KReg) (t : FP2) (s : State) : Out :=
  s.word .pass fun s => s.vfp d k t fun f i =>
    fmaNum f s.rmode s.ctx.ftz (s.ctx.num f (s.v a) i).negate (s.ctx.num f (s.v b) i) (s.ctx.num f (s.v d) i)

/-! ### Approximations (R155–R159) -/

/-- A quotient of naturals rounded to nearest, ties to even. -/
def divRne (a b : Nat) : Nat :=
  let q := a / b
  let r := a % b
  if b < 2 * r ∨ (2 * r = b ∧ q % 2 = 1) then q + 1 else q

/-- The largest number below 2^n, at least `x`, that satisfies a downward-closed test, bit by bit. -/
def searchBits (p : Nat → Bool) : Nat → Nat → Nat
  | 0, x => x
  | n + 1, x => searchBits p n (if p (x + 2 ^ n) then x + 2 ^ n else x)

/-- x^1024. -/
def pow1024 (x : Nat) : Nat := ((x ^ 32) ^ 16) ^ 2

/-- The table of VFRCP (R156): RNE(2^24 / (1 + i/1024)). -/
def rcpTable (i : Nat) : Nat := divRne (2 ^ 34) (1024 + i)

/-- The table of VFRSQ (R157): RNE(2^24 / √(2^p (1 + i/512))), by comparing squares; no entry is a tie. -/
def rsqTable (p i : Nat) : Nat :=
  let den := 2 ^ p * (512 + i)
  let t := searchBits (fun t => decide (t * t * den ≤ 2 ^ 57)) 25 0
  if (2 * t + 1) ^ 2 * den ≤ 2 ^ 59 then t + 1 else t

/-- The table of VFEXP2 (R158): RNE(2^23 × 2^(i/1024)), by comparing 1,024th powers; only i = 0 is exact. -/
def exp2Table (i : Nat) : Nat :=
  let t := searchBits (fun t => decide (pow1024 t ≤ pow1024 (2 ^ 23) * 2 ^ i)) 24 0
  if pow1024 (2 * t + 1) ≤ pow1024 (2 ^ 24) * 2 ^ i then t + 1 else t

/-- Bits of a binary logarithm: x in units of 2^−96, from 1 to below 2, is squared once per bit. -/
def log2Bits : Nat → Nat → Nat → Nat
  | 0, _, acc => acc
  | n + 1, x, acc =>
    let y := x * x / 2 ^ 96
    if 2 ^ 97 ≤ y then log2Bits n (y / 2) (2 * acc + 1) else log2Bits n y (2 * acc)

/-- The table of VFLOG2 (R159): RNE(2^24 × log2(1 + i/1024)), from 25 bits of the logarithm. -/
def log2Table (i : Nat) : Nat := (log2Bits 25 ((1024 + i) * 2 ^ 86) 0 + 1) / 2

/-- A finite non-zero datum as 1.f × 2^e (R155). -/
def normalise (m : Nat) (x : Int) : Nat × Int :=
  let top := Nat.log2 m
  (m * 2 ^ (23 - top) - 2 ^ 23, (top : Int) + x)

/-- The delivered result and its flags (R155): the approximation ± m × 2^x rounded in RNE, whether the approximation is f(x),
and whether f(x) exceeds the largest finite value. -/
def approx (ftz neg : Bool) (m : Nat) (x : Int) (exact atEnd : Bool) : Nat × BitVec 6 :=
  let (r, fl) := roundTo Fmt.f32 .rne ftz neg m x
  let nx := !exact || fl &&& flagNX != 0
  let mag := r % 2 ^ 31
  (r, flagIf nx flagNX ||| flagIf (nx && decide (mag < 2 ^ 23)) flagUF |||
    flagIf (mag == Fmt.inf Fmt.f32 false && atEnd) flagOF)

/-- VFRCP of a datum (R155, R156). An input just above 2^−128 may deliver ±Inf though 1/x does not exceed the largest finite value: R155,
which judges OF against the exact 1/x, gives NX alone there, R156's sentence OF and NX; R155 is taken. Log 117: DEDUCED. -/
def rcpNum (ftz : Bool) (a : Num) : Nat × BitVec 6 :=
  match a with
  | .nan _ => (Fmt.f32.nan, nanFlags [a])
  | .inf n => (Fmt.f32.zero n, 0)
  | .fin n m x =>
    if m = 0 then (Fmt.f32.inf n, flagDZ)
    else
      let (fr, e0) := normalise m x
      let i0 := fr / 2 ^ 13 + fr / 2 ^ 12 % 2
      let i := if i0 = 1024 then 0 else i0
      let e := if i0 = 1024 then e0 + 1 else e0
      approx ftz n (rcpTable i) (-24 - e) (fr == 0) (decide ((2 ^ 24 - 1) * m * 2 ^ (x + 254).toNat < 2 ^ 150))

/-- VFRSQ of a datum (R155, R157). -/
def rsqNum (ftz : Bool) (a : Num) : Nat × BitVec 6 :=
  match a with
  | .nan _ => (Fmt.f32.nan, nanFlags [a])
  | .inf n => if n then (Fmt.f32.nan, flagNV) else (Fmt.f32.zero false, 0)
  | .fin n m x =>
    if m = 0 then (Fmt.f32.inf n, flagDZ)
    else if n then (Fmt.f32.nan, flagNV)
    else
      let (fr, e0) := normalise m x
      let i0 := fr / 2 ^ 14 + fr / 2 ^ 13 % 2
      let i := if i0 = 512 then 0 else i0
      let e := if i0 = 512 then e0 + 1 else e0
      let p := (e % 2).toNat
      approx ftz false (rsqTable p i) (-24 - e / 2) (fr == 0 && p == 0) false

/-- VFEXP2 of a datum (R155, R158). -/
def exp2Num (ftz : Bool) (a : Num) : Nat × BitVec 6 :=
  match a with
  | .nan _ => (Fmt.f32.nan, nanFlags [a])
  | .inf n => if n then (Fmt.f32.zero false, 0) else (Fmt.f32.inf false, 0)
  | .fin .. =>
    let u : Int := a.fix
    let one : Int := 2 ^ 160 * 2 ^ 160
    if 128 * one ≤ u then (Fmt.f32.inf false, flagOF ||| flagNX)
    else if u < -151 * one then (Fmt.f32.zero false, flagUF ||| flagNX)
    else
      let j := (2 * u * 1024 + one) / (2 * one)
      let n := j / 1024
      approx ftz false (exp2Table (j % 1024).toNat) (n - 23) (u % one == 0) false

/-- VFLOG2 of a datum (R155, R159). -/
def log2Num (ftz : Bool) (a : Num) : Nat × BitVec 6 :=
  match a with
  | .nan _ => (Fmt.f32.nan, nanFlags [a])
  | .inf n => if n then (Fmt.f32.nan, flagNV) else (Fmt.f32.inf false, 0)
  | .fin n m x =>
    if m = 0 then (Fmt.f32.inf true, flagDZ)
    else if n then (Fmt.f32.nan, flagNV)
    else
      let (fr, e0) := normalise m x
      let i0 := fr / 2 ^ 13 + fr / 2 ^ 12 % 2
      let i := if i0 = 1024 then 0 else i0
      let e := if i0 = 1024 then e0 + 1 else e0
      let v : Int := e * 2 ^ 24 + (log2Table i : Int)
      approx ftz (decide (v < 0)) v.natAbs (-24) (fr == 0) false

/-- VFRCP. -/
def execVfrcp (d a : VReg) (k : KReg) (s : State) : Out :=
  s.word .pass fun s => s.vfp d k .f32 fun f i => rcpNum s.ctx.ftz (s.ctx.num f (s.v a) i)
/-- VFRSQ. -/
def execVfrsq (d a : VReg) (k : KReg) (s : State) : Out :=
  s.word .pass fun s => s.vfp d k .f32 fun f i => rsqNum s.ctx.ftz (s.ctx.num f (s.v a) i)
/-- VFEXP2. -/
def execVfexp2 (d a : VReg) (k : KReg) (s : State) : Out :=
  s.word .pass fun s => s.vfp d k .f32 fun f i => exp2Num s.ctx.ftz (s.ctx.num f (s.v a) i)
/-- VFLOG2. -/
def execVflog2 (d a : VReg) (k : KReg) (s : State) : Out :=
  s.word .pass fun s => s.vfp d k .f32 fun f i => log2Num s.ctx.ftz (s.ctx.num f (s.v a) i)

/-! ### The stochastic generator (R43) -/

/-- One step in Galois form. -/
def lfsrStep (x : BitVec 32) : BitVec 32 :=
  let y := x >>> 1
  if x.getLsbD 0 then y ^^^ 0x80200003 else y

/-- A number of steps. -/
def lfsrSteps : Nat → BitVec 32 → BitVec 32
  | 0, x => x
  | n + 1, x => lfsrSteps n (lfsrStep x)

/-- One draw: the state after 16 steps, whose low 16 bits are the draw. -/
def drawStep (x : BitVec 32) : BitVec 32 := lfsrSteps 16 x

/-- The draws of the lanes that draw, in ascending order, and the generator after them. -/
def draws (x : BitVec 32) : List Bool → List Nat × BitVec 32
  | [] => ([], x)
  | true :: l =>
    let y := drawStep x
    let (ds, z) := draws y l
    (y.toNat % 2 ^ 16 :: ds, z)
  | false :: l =>
    let (ds, z) := draws x l
    (0 :: ds, z)

/-- The rounding mode of each lane of a word (R42, R94, R160), and the generator after its draws. -/
def Ctx.modes (c : Ctx) (r : Rnd) (who : List Bool) : List RMode × BitVec 32 :=
  match r with
  | .rm => (who.map fun _ => RMode.ofRM c.rm, c.lfsr)
  | .rne => (who.map fun _ => .rne, c.lfsr)
  | .rtz => (who.map fun _ => .rtz, c.lfsr)
  | .rup => (who.map fun _ => .rup, c.lfsr)
  | .rdn => (who.map fun _ => .rdn, c.lfsr)
  | .rst => let (ds, x) := draws c.lfsr who; (ds.map .rst, x)

/-! ### Conversions and BX packing (R160, R161) -/

/-- A conversion of one element pattern of a pair (R36, R37, R160). -/
def convertElem (p : CvtPair) (ftz : Bool) (mode : RMode) (x : Nat) : Nat × BitVec 6 :=
  let src (f : Fmt) : Num := unpack f (flushIn f ftz x)
  let int (lo hi : Int) (w : Nat) (a : Num) : Nat × BitVec 6 := let (v, fl) := toInt mode lo hi a; (wrapS w v, fl)
  let fromInt (f : Fmt) (v : Int) : Nat × BitVec 6 := roundTo f mode ftz (v < 0) v.natAbs 0
  match p with
  | .f32f16 => convertNum Fmt.f32 .rne false (unpack Fmt.f16 x)
  | .f32bf16 => convertNum Fmt.f32 .rne false (unpack Fmt.bf16 x)
  | .f16f32 => convertNum Fmt.f16 mode ftz (src Fmt.f32)
  | .bf16f32 => convertNum Fmt.bf16 mode ftz (src Fmt.f32)
  | .f16bf16 => convertNum Fmt.f16 mode ftz (src Fmt.bf16)
  | .bf16f16 => convertNum Fmt.bf16 mode ftz (src Fmt.f16)
  | .i32f32 => int (minS 4) (maxS 4) 4 (src Fmt.f32)
  | .n32f32 => int 0 (2 ^ 32 - 1) 4 (src Fmt.f32)
  | .i16f16 => int (minS 2) (maxS 2) 2 (src Fmt.f16)
  | .f32i32 => fromInt Fmt.f32 (BitVec.ofNat 32 x).toInt
  | .f32n32 => fromInt Fmt.f32 x
  | .f16i16 => fromInt Fmt.f16 (BitVec.ofNat 16 x).toInt

/-- Source width, destination width and number of conversions of a pair (R160). -/
def cvtShape (p : CvtPair) : Nat × Nat × Nat :=
  match p with
  | .f32f16 | .f32bf16 => (2, 4, 32)
  | .f16f32 | .bf16f32 => (4, 2, 32)
  | .f16bf16 | .bf16f16 | .i16f16 | .f16i16 => (2, 2, 64)
  | .i32f32 | .n32f32 | .f32i32 | .f32n32 => (4, 4, 32)

/-- VCVT. -/
def execVcvt (d a : VReg) (p : CvtPair) (k : KReg) (r : Rnd) (s : State) : Out :=
  s.word .pass fun s =>
    let (ws, wd, n) := cvtShape p
    let (ms, x) := s.ctx.modes r ((List.range n).map fun i => (s.k k).getLsbD i)
    let s1 := s.vfpLanes d k wd n fun i => convertElem p s.ctx.ftz (ms.getD i .rne) (elem ws (s.v a) i)
    s1.modCtx fun c => { c with lfsr := x }

/-- VPACK. -/
def execVpack (d a : VReg) (f : BX) (r : Rnd) (s : State) : Out :=
  s.word .pass fun s =>
    let (ms, x) := s.ctx.modes r (List.replicate 32 true)
    let input (i : Nat) : Num × RMode := (s.ctx.num Fmt.f32 (s.v a) i, ms.getD i .rne)
    let (b0, f0) := bxEncode f ((List.range 16).map input)
    let (b1, f1) := bxEncode f ((List.range 16).map fun i => input (16 + i))
    let fl := f0 ++ f1
    let s1 := s.vector d (BitVec.ofNat 1024 (b0 + b1 * 2 ^ (8 * bxBytes f))) (BitVec.allOnes 128) 4 (orAll fl)
      (hotLanes s.ctx.fpEnables fl)
    s1.modCtx fun c => { c with lfsr := x }

/-- VUNPK: no flag. Log 50: DEDUCED. -/
def execVunpk (d a : VReg) (f : BX) (k : KReg) (s : State) : Out :=
  s.word .pass fun s => s.vfpLanes d k 4 32 fun i =>
    (numToF32 (bxElement f ((s.v a).toNat / 2 ^ (8 * bxBytes f * (i / 16)) % 2 ^ (8 * bxBytes f)) (i % 16)), 0)

/-! ### Reductions and scans (R49, R164, R165) -/

/-- One step of a floating-point reduction on element patterns. -/
def fredOp (c : FRedSel) (f : Fmt) (mode : RMode) (ftz : Bool) (x y : Nat) : Nat × BitVec 6 :=
  match c with
  | .sum => addNum f mode ftz (unpack f (flushIn f ftz x)) (unpack f (flushIn f ftz y))
  | .min => fminmax f ftz false x y
  | .max => fminmax f ftz true x y

/-- The identity (R49). -/
def fredId (c : FRedSel) (f : Fmt) : Nat :=
  match c with
  | .sum => f.zero true
  | .min => f.inf false
  | .max => f.inf true

/-- VRED, floating point: an enabled flag sets TRAPMASK bit 0. -/
def execVredFp (d a : VReg) (c : FRedSel) (k : KReg) (t : FP2) (s : State) : Out :=
  s.word .pass fun s =>
    let f := fp2Fmt t
    let node (x y : Nat × BitVec 6) : Nat × BitVec 6 :=
      let (r, fl) := fredOp c f s.rmode s.ctx.ftz x.1 y.1
      (r, x.2 ||| y.2 ||| fl)
    let lanes := (List.range f.lanes).map fun i =>
      (if (s.k k).getLsbD i then elem f.bytes (s.v a) i else fredId c f, (0 : BitVec 6))
    let (r, fl) := ((tree node 7 lanes).head?).getD (0, 0)
    s.vector d (BitVec.ofNat 1024 r) (BitVec.allOnes 128) 4 fl (if fl &&& s.ctx.fpEnables = 0 then 0 else 1)

/-- VSCAN, floating point. -/
def execVscanFp (d a : VReg) (c : FRedSel) (k : KReg) (t : FP2) (s : State) : Out :=
  s.word .pass fun s =>
    let f := fp2Fmt t
    let step (acc : Nat × BitVec 6) (i : Nat) : Nat × BitVec 6 :=
      if (s.k k).getLsbD i then fredOp c f s.rmode s.ctx.ftz acc.1 (elem f.bytes (s.v a) i) else (acc.1, 0)
    let rs := scan step (fredId c f, 0) (List.range f.lanes)
    let fl := rs.map (·.2)
    s.vector d (pack f.bytes (rs.map (·.1))) (BitVec.allOnes 128) 4 (orAll fl) (hotLanes s.ctx.fpEnables fl)

/-! ### Compares (R169) -/

/-- A condition on two data, and its flag (R35, R169). -/
def fcmp (c : FCond) (a b : Num) : Bool × BitVec 6 :=
  let un := a.isNan || b.isNan
  match c with
  | .eq => (!un && !Num.lt false a b && !Num.lt false b a, nanFlags [a, b])
  | .lt => (!un && Num.lt false a b, flagIf un flagNV)
  | .le => (!un && !Num.lt false b a, flagIf un flagNV)
  | .un => (un, nanFlags [a, b])

/-- VFCMP. -/
def execVfcmp (d : KReg) (a b : VReg) (k : KReg) (c : FCond) (t : FP2) (s : State) : Out :=
  s.word .pass fun s =>
    let f := fp2Fmt t
    let rs := (List.range f.lanes).map fun i =>
      if (s.k k).getLsbD i then fcmp c (s.ctx.num f (s.v a) i) (s.ctx.num f (s.v b) i) else (false, 0)
    let fl := rs.map (·.2)
    s.maskTo d (maskOf f.lanes fun i => (rs.getD i (false, 0)).1) 4 (orAll fl) (hotLanes s.ctx.fpEnables fl)

end Sys2Proof.Machine
end

