-- ==== Sys2Proof/Machine/MatrixUnit.lean ====
section
/-! DEFINITION. The matrix unit: holding, the queue and its order, operands, MMA and its checksums, accumulator words, MCHK,
the ring of B operands, MSTAT (spec/08 R172–R187, spec/15 R289–R298, spec/02 R48; majors 0x19, 0x1A). -/

namespace Sys2Proof.Machine

/-! ### Exact sums (R48) -/

/-- An exact product; 0 × ∞ is an invalid NaN. -/
def Num.times (a b : Num) : Num :=
  match a, b with
  | .nan x, .nan y => .nan (x || y)
  | .nan x, .inf _ | .nan x, .fin .. => .nan x
  | .inf _, .nan y | .fin .., .nan y => .nan y
  | .inf x, .inf y => .inf (x != y)
  | .inf x, .fin y m _ | .fin y m _, .inf x => if m = 0 then .nan true else .inf (x != y)
  | .fin x m e, .fin y n g => .fin (x != y) (m * n) (e + g)

/-- The absolute value. -/
def Num.mag : Num → Num
  | .nan x => .nan x
  | .inf _ => .inf false
  | .fin _ m e => .fin false m e

/-- −0. -/
def Num.negZero (a : Num) : Bool := a.isZero && a.neg

/-- A sum of addends, exact, rounded once to FP32 in RNE (R48): an exact zero is +0 unless every addend is −0. -/
def exactSum (l : List Num) : Nat × BitVec 6 :=
  let f := Fmt.f32
  if l.any Num.isNan then (f.nan, nanFlags l)
  else
    let pos := l.any fun a => a == .inf false
    let neg := l.any fun a => a == .inf true
    if pos && neg then (f.nan, flagNV)
    else if pos then (f.inf false, 0)
    else if neg then (f.inf true, 0)
    else roundFix f .rne false (l.all Num.negZero) (l.foldl (fun a x => a + x.fix) 0)

/-- An FP32 pattern as a datum. -/
def f32Num (x : F32) : Num := unpack Fmt.f32 x.toNat

/-- The FP32 pattern of an exact sum. -/
def sumF32 (l : List Num) : F32 := BitVec.ofNat 32 (exactSum l).1

/-! ### Operands (R177, R319) -/

/-- Bytes of an operand in the tile store. -/
def OpFmt.bytes : OpFmt → Nat
  | .bf16 => 2048
  | .bx8 => 1152
  | .bx5 => 768
  | .bx3 => 512

/-- The FMT code of R293. -/
def OpFmt.code : OpFmt → Nat
  | .bf16 => 0
  | .bx8 => 1
  | .bx5 => 2
  | .bx3 => 3

/-- The format of an alias; none for those that hold no operand. -/
def View.opFmt : View → Option OpFmt
  | .raw => some .bf16
  | .bx .bx8 => some .bx8
  | .bx .bx5 => some .bx5
  | .bx .bx3 => some .bx3
  | .widen | .reserved => none

/-- Element e of an operand's bytes, decoded exactly (R46). -/
def opElem (f : OpFmt) (bs : Array Byte) (e : Nat) : Num :=
  let blk (b : BX) : Num :=
    bxElement b (leNat ((List.range (bxBytes b)).map fun i => bs.getD (bxBytes b * (e / 16) + i) 0)) (e % 16)
  match f with
  | .bf16 => unpack Fmt.bf16 (leNat [bs.getD (2 * e) 0, bs.getD (2 * e + 1) 0])
  | .bx8 => blk .bx8
  | .bx5 => blk .bx5
  | .bx3 => blk .bx3

/-- The 1,024 elements of an operand, row-major. -/
def Operand.elems (o : Operand) : Array Num :=
  let bs := o.bytes.toArray
  ((List.range 1024).map (opElem o.fmt bs)).toArray

/-- The element in row r and column c. -/
def at2 (a : Array Num) (r c : Nat) : Num := a.getD (32 * r + c) (.fin false 0 0)

/-! ### Checks at issue -/

/-- The strand's address in its own tile window, through the matrix-operand TLB (R172, R177, R407): the window's offset and
whether the key slot is void; or what stops the access. -/
def State.ownWindow (s : State) (acc : Access) (va : W) : Except Verdict (Nat × Bool) :=
  match s.ctx.faultAt va with
  | some c => .error (.trap c va)
  | none => match s.xlateOpen s.tile.tlbMatrix s.cur s.q acc va with
    | .at_ (.win t off) e => if t = s.cur then .ok (off, s.entryVoid s.cur e) else .error (.trap .permission va)
    | .at_ (.hbm ..) _ => .error (.trap .permission va)
    | .miss => .error (.miss acc va 1)
    | .fault c => .error (.trap c va)

/-- The RAW span of an operand at a window offset: its format, first byte and length; none where no operand stands there or it
leaves one pane (R178, R319). -/
def operandSpan (off : Nat) : Option (OpFmt × Nat) :=
  match (windowView off).1.opFmt with
  | none => none
  | some f =>
    let start := (rawSpan off 1).1
    if start % 4096 + f.bytes ≤ 4096 then some (f, start) else none

/-- PANE_VIOLATION where a pane is BUSY or RING (R178, R182). R182 says it of a destination pane; MLDACC's source pane is held to
the same, as an operand pane is by R178. Log 28: DEDUCED. -/
def State.paneFree (s : State) (p : Fin 128) : Verdict :=
  if s.tile.panes[p].busy != 0 || s.tile.panes[p].ring then .trap .paneViolation (BitVec.ofNat 64 p.val) else .pass

/-- PERMISSION where a pane is not the strand's (R320). Log 12: DEDUCED. -/
def State.paneTag (s : State) (p : Fin 128) (va : W) : Verdict :=
  if s.mon? || s.tile.panes[p].allows s.q then .pass else .trap .permission va

/-- KEY_VOID where the key slot is void. -/
def voidCheck (void : Bool) (va : W) : Verdict := if void then .trap .keyVoid va else .pass

/-- The checks of an operand in the order of R178's table; last, the strand's own held stores. The table does not place a fault or
a walk of the translation, nor the pane's tag (R320): here translation comes first and the tag just before PANE_VIOLATION. Log 28:
DEDUCED. -/
def State.operandChecks (s : State) (va : W) : List Verdict :=
  match s.ownWindow .read va with
  | .error v => [v]
  | .ok (off, void) =>
    let view := windowView off
    let aligned := view.2 % (if view.1 = .raw then 64 else 128) == 0
    let misalign := if aligned then Verdict.pass else .trap .misalign va
    match operandSpan off with
    | none => [.pass, misalign, .trap .permission va]
    | some (_, start) =>
      [.pass, misalign, s.paneTag (paneNo start) va, s.paneFree (paneNo start), voidCheck void va,
       s.heldWait (.win s.cur start)]

/-- The checks of two operands, each applied to A and then to B (R178). -/
def interleave : List Verdict → List Verdict → Verdict
  | [], m => m.foldr Verdict.andThen .pass
  | a :: l, [] => a.andThen (interleave l [])
  | a :: l, b :: m => (a.andThen b).andThen (interleave l m)

/-- The operand at an address that has passed its checks, as it stands at issue (R179). Log 49: DEDUCED. -/
def State.operandAt (s : State) (va : W) : Option Operand :=
  match s.ownWindow .read va with
  | .error _ => none
  | .ok (off, _) => (operandSpan off).map fun (f, start) =>
    { fmt := f, bytes := s.readPlace s.party (.win s.cur start) f.bytes, poison := s.placeBad (.win s.cur start) f.bytes,
      pane := some (paneNo start), addr := va }

/-- The checks of a pane, or of a record within one, that a word reads or writes whole through the RAW alias (R99, R182, R183). R183
names no trap for a record that is not 64-byte aligned or that leaves its pane: MISALIGN and PERMISSION here, as R182 has them. Log 28:
DEDUCED. -/
def State.wholePaneCheck (s : State) (acc : Access) (va : W) (align n : Nat) : Verdict :=
  if va.toNat % align ≠ 0 then .trap .misalign va
  else match s.ownWindow acc va with
  | .error v => v
  | .ok (off, void) =>
    if (windowView off).1 ≠ View.raw ∨ 4096 < off % 4096 + n then .trap .permission va
    else (((s.paneTag (paneNo off) va).andThen (s.paneFree (paneNo off))).andThen (voidCheck void va)).andThen
      (s.heldWait (.win s.cur off))

/-- The RAW offset that a word names, after its checks. -/
def State.rawOf (s : State) (acc : Access) (va : W) : Nat :=
  match s.ownWindow acc va with
  | .ok (off, _) => off
  | .error _ => 0

/-- The strand holds the unit (R172). -/
def State.holds (s : State) : Bool :=
  match s.tile.matrix.holder with
  | some (o, _) => o == s.strand.owner
  | none => false

/-- PERMISSION where the strand does not hold the unit (R172). -/
def State.holdCheck (s : State) : Verdict := if s.holds then .pass else .trap .permission 0

/-- The checks of every M word but MCLAIM: the claim and the word's own checks in the order of R99, and room in the queue (R172,
R175). Log 28: DEDUCED. -/
def State.unitCheck (s : State) (own : Verdict) : Verdict :=
  ((s.holdCheck.sooner own).andThen s.acquireWait).andThen
    (if 8 ≤ s.tile.matrix.queue.length then .wait else .pass)

/-- CIRCUIT where no latch circuit of the sequence is open (R294). -/
def State.latchOpen (s : State) : Verdict :=
  match s.tile.matrix.latchBy with
  | none => .trap .circuit 0
  | some h =>
    if s.circuits.any fun c => c.handle == h && c.seq == s.q && c.dst == s.cur then .pass else .trap .circuit 0

/-! ### Issue -/

/-- A pane handed to an operand: STAGED (R179). Log 49: DEDUCED. -/
def State.stage (s : State) (t : TileId) (p : Option (Fin 128)) : State :=
  match p with
  | some n => s.modPane t n fun x => { x with staged := x.staged + 1 }
  | none => s

/-- A pane's staging by one word ends (R291). -/
def State.unstage (s : State) (t : TileId) (p : Option (Fin 128)) : State :=
  match p with
  | some n => s.modPane t n fun x => { x with staged := x.staged - 1 }
  | none => s

/-- A pane handed over as a destination (R182). -/
def State.hand (s : State) (p : Fin 128) : State := s.modPane s.cur p fun x => { x with engine := true, handed := true }

/-- A word joins the queue (R175, R186). -/
def State.enqueue (s : State) (k : MKind) : State :=
  let w : MWord := { kind := k, owner := s.strand.owner, strand := s.curK, seq := s.q, ba := s.issue.ba, spoil := false,
                     read := false, left := none }
  s.modMatrix s.cur fun m => { m with queue := m.queue ++ [w] }

/-- MMA and MMAT with B at an address. -/
def State.mma (s : State) (trans chk : Bool) (c : Acc) (a b : W) : State :=
  match s.operandAt a, s.operandAt b with
  | some x, some y => ((s.stage s.cur x.pane).stage s.cur y.pane).enqueue (.mma trans chk c x y)
  | _, _ => s

/-- MMA and MMAT with B the head of the latch, captured at issue (R180). -/
def State.mmaRing (s : State) (trans chk : Bool) (c : Acc) (a : W) : State :=
  match s.operandAt a, s.tile.matrix.latch with
  | some x, y :: _ => (s.stage s.cur x.pane).enqueue (.mma trans chk c x y)
  | _, _ => s

/-- The checks of the ring forms: an empty latch is waited for. -/
def State.ringCheck (s : State) (a : W) : Verdict :=
  s.unitCheck ((s.latchOpen.sooner (interleave (s.operandChecks a) [])).andThen
    (if s.tile.matrix.latch.isEmpty then .wait else .pass))

/-- MMA. -/
def execMma (a b : GReg) (c : Acc) (k : Bool) (s : State) : Out :=
  s.word (s.unitCheck (interleave (s.operandChecks (s.g a)) (s.operandChecks (s.g b)))) fun s =>
    s.mma false k c (s.g a) (s.g b)
/-- MMA with RING. -/
def execMmaRing (a : GReg) (c : Acc) (k : Bool) (s : State) : Out :=
  s.word (s.ringCheck (s.g a)) fun s => s.mmaRing false k c (s.g a)
/-- MMAT. -/
def execMmat (a b : GReg) (c : Acc) (k : Bool) (s : State) : Out :=
  s.word (s.unitCheck (interleave (s.operandChecks (s.g a)) (s.operandChecks (s.g b)))) fun s =>
    s.mma true k c (s.g a) (s.g b)
/-- MMAT with RING. -/
def execMmatRing (a : GReg) (c : Acc) (k : Bool) (s : State) : Out :=
  s.word (s.ringCheck (s.g a)) fun s => s.mmaRing true k c (s.g a)

/-- MCLAIM (R173): waits until the unit is free and cleared. -/
def execMclaim (s : State) : Out :=
  s.word (if s.holds || (s.tile.matrix.holder.isNone && !s.tile.matrix.clearing) then .pass else .wait) fun s =>
    if s.holds then s else s.modMatrix s.cur fun m => { m with holder := some (s.strand.owner, s.curK) }

/-- Words of a work stand in the queue. -/
def Matrix.busyFor (m : Matrix) (owner : Nat) : Bool := m.queue.any fun w => w.owner == owner

/-- The unit freed and cleared: the clearing takes 8 cycles (R173). -/
def State.releaseUnit (s : State) (t : TileId) : State :=
  s.modMatrix t fun m => { m with holder := none, clearing := true,
                                  accs := Vector.replicate 4 ⟨AccBank.zero, AccBank.zero⟩ }

/-- MREL (R173). -/
def execMrel (s : State) : Out :=
  s.word (if s.holds && !s.tile.matrix.queue.isEmpty then .wait else .pass) fun s =>
    if s.holds then s.releaseUnit s.cur else s

/-- MZERO. -/
def execMzero (c : Acc) (s : State) : Out := s.word (s.unitCheck .pass) fun s => s.enqueue (.mzero c)
/-- MSWAP. -/
def execMswap (c : Acc) (s : State) : Out := s.word (s.unitCheck .pass) fun s => s.enqueue (.mswap c)
/-- MLDACC: the pane's bytes as they stand at issue. -/
def execMldacc (a : GReg) (c : Acc) (s : State) : Out :=
  s.word (s.unitCheck (s.wholePaneCheck .read (s.g a) 4096 4096)) fun s =>
    let off := s.rawOf .read (s.g a)
    let pl := Place.win s.cur off
    let o : Operand := { fmt := .bf16, bytes := s.readPlace s.party pl 4096, poison := s.placeBad pl 4096,
                         pane := some (paneNo off), addr := s.g a }
    (s.stage s.cur o.pane).enqueue (.mldacc c o)
/-- MSTACC. -/
def execMstacc (a : GReg) (c : Acc) (s : State) : Out :=
  s.word (s.unitCheck (s.wholePaneCheck .write (s.g a) 4096 4096)) fun s =>
    let p := paneNo (s.rawOf .write (s.g a))
    (s.hand p).enqueue (.mstacc c p)
/-- MFIX. -/
def execMfix (a b : GReg) (c : Acc) (s : State) : Out :=
  s.word (s.unitCheck .pass) fun s =>
    let x := (s.g a).toNat
    s.enqueue (.mfix c ⟨x % 32, by omega⟩ ⟨x / 32 % 32, by omega⟩ ((s.g b).setWidth 32))
/-- MCHK (R183): gd is marked until the summary is written. -/
def execMchk (a d : GReg) (c : Acc) (s : State) : Out :=
  s.word (s.unitCheck (s.wholePaneCheck .write (s.g a) 64 576)) fun s =>
    let off := s.rawOf .write (s.g a)
    let p := Pend.make s.fresh (gDest d) .word 1 false false s.issue.ba
    (((s.pend p).bump).hand (paneNo off)).enqueue (.mchk c (paneNo off) (off % 4096) s.fresh)

/-- The checks of an MRING send of an operand. -/
def State.sendCheck (s : State) (a : W) : Verdict := s.unitCheck (interleave (s.operandChecks a) [])

/-- A send of an operand at an address. -/
def State.mring (s : State) (a h : W) (pop : Bool) : State :=
  match s.operandAt a with
  | some o => (s.stage s.cur o.pane).enqueue (.send h (some o) pop)
  | none => s

/-- MRING gh, 0(ga). -/
def execMringSend (a h : GReg) (s : State) : Out :=
  s.word (s.sendCheck (s.g a)) fun s => s.mring (s.g a) (s.g h) false
/-- MRING gh, 0(ga), POP. -/
def execMringSendPop (a h : GReg) (s : State) : Out :=
  s.word (s.unitCheck (s.latchOpen.sooner (interleave (s.operandChecks (s.g a)) []))) fun s =>
    s.mring (s.g a) (s.g h) true
/-- MRING gh, LATCH. -/
def execMringLatch (h : GReg) (s : State) : Out :=
  s.word (s.unitCheck s.latchOpen) fun s => s.enqueue (.send (s.g h) none false)
/-- MRING gh, LATCH, POP. -/
def execMringLatchPop (h : GReg) (s : State) : Out :=
  s.word (s.unitCheck s.latchOpen) fun s => s.enqueue (.send (s.g h) none true)
/-- MRING POP. -/
def execMringPop (s : State) : Out := s.word (s.unitCheck s.latchOpen) fun s => s.enqueue .pop

/-- The status that MSTAT reads (R185). Log 32: DESIGN CHOICE. -/
def State.unitStatus (s : State) : W :=
  let m := s.tile.matrix
  let ck (f : AccPair → Bool) : Nat :=
    (List.finRange 4).foldl (fun a n => a + boolNat (f m.accs[n]) * 2 ^ n.val) 0
  let mine := if s.holds then 2 ^ 20 + ck (fun a => a.vis.ck) * 2 ^ 12 + ck (fun a => a.work.ck) * 2 ^ 8 +
    m.queue.length * 2 ^ 4 else 0
  let held := match m.holder with
    | some (_, k) => 2 ^ 21 + k.val * 2 ^ 17
    | none => 0
  BitVec.ofNat 64 (m.latch.length * 2 ^ 22 + held + mine)

/-- MSTAT: its value arrives before the strand's next bundle. -/
def execMstat (d : GReg) (s : State) : Out := s.word .pass fun s => s.scalar d s.unitStatus 1

/-- MWAIT (R176), an acquire at tile scope, after the releases before it (R339, R341). -/
def execMwait (s : State) : Out :=
  s.word (s.holdCheck.andThen
    (if s.tile.matrix.busyFor s.strand.owner then .wait else s.releaseWait)) fun s => s

/-! ### Performance -/

/-- The banks and resources of a word, for the order of R175. -/
def MKind.working : MKind → Option Acc
  | .mma _ _ a _ _ => some a
  | .mzero a => some a
  | .mswap _ | .mldacc .. | .mstacc .. | .mchk .. | .mfix .. | .send .. | .pop => none

/-- The visible bank that a word touches. -/
def MKind.visible : MKind → Option Acc
  | .mldacc a _ => some a
  | .mstacc a _ => some a
  | .mchk a _ _ _ => some a
  | .mfix a _ _ _ => some a
  | .mma .. | .mzero _ | .mswap _ | .send .. | .pop => none

/-- A word of the ring. -/
def MKind.ring : MKind → Bool
  | .send .. | .pop => true
  | .mma .. | .mzero _ | .mswap _ | .mldacc .. | .mstacc .. | .mchk .. | .mfix .. => false

/-- MSWAP. -/
def MKind.swap : MKind → Bool
  | .mswap _ => true
  | .mma .. | .mzero _ | .mldacc .. | .mstacc .. | .mchk .. | .mfix .. | .send .. | .pop => false

/-- A later word must wait for an earlier one (R175). -/
def MKind.after (late early : MKind) : Bool :=
  late.swap || early.swap || (late.ring && early.ring) ||
  (late.working.isSome && late.working == early.working) || (late.visible.isSome && late.visible == early.visible)

/-- The pane that a word writes. -/
def MKind.dest : MKind → Option (Fin 128)
  | .mstacc _ p => some p
  | .mchk _ p _ _ => some p
  | .mma .. | .mzero _ | .mswap _ | .mldacc .. | .mfix .. | .send .. | .pop => none

/-- The panes that a word keeps STAGED. -/
def MKind.staged : MKind → List (Fin 128)
  | .mma _ _ _ a b => a.pane.toList ++ b.pane.toList
  | .mldacc _ o => o.pane.toList
  | .send _ (some o) _ => o.pane.toList
  | .send _ none _ | .mzero _ | .mswap _ | .mstacc .. | .mchk .. | .mfix .. | .pop => []

/-- NV where the products of a chunk hold both infinities, whatever else they hold (R48). -/
def infClash (l : List Num) : BitVec 6 := flagIf (l.contains (.inf false) && l.contains (.inf true)) flagNV

/-- The chunk of a product (R48, R180): the new element of W and its flags. -/
def mmaElem (w : AccBank) (a b : Array Num) (trans : Bool) (i j : Nat) : Nat × BitVec 6 :=
  let prods := (List.range 32).map fun k => Num.times (if trans then at2 a k i else at2 a i k) (at2 b k j)
  let r := exactSum (f32Num (w.m.toArray.getD (32 * i + j) 0) :: prods)
  (r.1, r.2 ||| infClash prods)

/-- The four checksum vectors after a product (R181). -/
def AccBank.checksum (w : AccBank) (a b : Array Num) (trans : Bool) : AccBank :=
  let el (i k : Nat) : Num := if trans then at2 a k i else at2 a i k
  let r := List.range 32
  let u := (r.map fun k => f32Num (sumF32 (r.map fun i => el i k))).toArray
  let ua := (r.map fun k => f32Num (sumF32 (r.map fun i => (el i k).mag))).toArray
  let v := (r.map fun k => f32Num (sumF32 (r.map fun j => at2 b k j))).toArray
  let va := (r.map fun k => f32Num (sumF32 (r.map fun j => (at2 b k j).mag))).toArray
  let z := Num.fin false 0 0
  { w with
    sr := Vector.ofFn fun i => sumF32 (f32Num w.sr[i] :: r.map fun k => (el i.val k).times (v.getD k z)),
    ar := Vector.ofFn fun i => sumF32 (f32Num w.ar[i] :: r.map fun k => (el i.val k).mag.times (va.getD k z)),
    sc := Vector.ofFn fun j => sumF32 (f32Num w.sc[j] :: r.map fun k => (u.getD k z).times (at2 b k j.val)),
    ac := Vector.ofFn fun j => sumF32 (f32Num w.ac[j] :: r.map fun k => (ua.getD k z).times (at2 b k j.val).mag) }

/-- The working bank after MMA or MMAT, and the flags raised (R180). -/
def AccBank.mma (w : AccBank) (a b : Operand) (trans chk : Bool) : AccBank × BitVec 6 :=
  let x := a.elems
  let y := b.elems
  let rs : Vector (Nat × BitVec 6) 1024 := Vector.ofFn fun n => mmaElem w x y trans (n.val / 32) (n.val % 32)
  let w1 := if chk && w.ck then w.checksum x y trans else { w with ck := w.ck && chk }
  ({ w1 with m := rs.map fun r => BitVec.ofNat 32 r.1 }, orAll (rs.toList.map (·.2)))

/-- The bank that MLDACC leaves (R182). -/
def AccBank.loaded (bytes : List Byte) : AccBank :=
  let bs := bytes.toArray
  let m : Vector F32 1024 := Vector.ofFn fun n =>
    BitVec.ofNat 32 (leNat ((List.range 4).map fun i => bs.getD (4 * n.val + i) 0))
  let el (i j : Nat) : Num := f32Num (m.toArray.getD (32 * i + j) 0)
  let r := List.range 32
  { m := m,
    sr := Vector.ofFn fun i => sumF32 (r.map fun j => el i.val j),
    sc := Vector.ofFn fun j => sumF32 (r.map fun i => el i j.val),
    ar := Vector.ofFn fun i => sumF32 (r.map fun j => (el i.val j).mag),
    ac := Vector.ofFn fun j => sumF32 (r.map fun i => (el i j.val).mag), ck := true }

/-- A bank whose elements are unpredictable (R304): its checksums are invalid. -/
def AccBank.spoilt (w : AccBank) (n : Nat) : AccBank :=
  { w with m := Vector.ofFn fun i => Config.freeF32 n i.val, ck := false }

/-- Ulp of an absolute checksum (R183). -/
def ulpOf (a : Num) : Num :=
  if a.isZero then .fin false 1 (-149)
  else .fin false 1 ((if a.top < -126 then -126 else a.top) - 23)

/-- A bound (R183). -/
def chkBound (a : F32) : F32 :=
  match f32Num a with
  | .fin n m x => sumF32 [.fin n m (x - 16), ulpOf (.fin n m x)]
  | .nan s => sumF32 [.nan s]
  | .inf n => sumF32 [.inf n]

/-- flagged(r, b) (R183). -/
def chkFlagged (r b : F32) : Bool :=
  (f32Num r).isNan || (!(f32Num b).isNan && Num.lt false (f32Num b) (f32Num r).mag)

/-- MCHK of a bank (R183): the bytes of the record, and the summary. -/
def AccBank.mchk (v : AccBank) : List Byte × W :=
  let el (i j : Nat) : Num := f32Num (v.m.toArray.getD (32 * i + j) 0)
  let r := List.range 32
  let fin := List.finRange 32
  let rr := fin.map fun i => sumF32 ((f32Num v.sr[i]).negate :: r.map fun j => el i.val j)
  let rc := fin.map fun j => sumF32 ((f32Num v.sc[j]).negate :: r.map fun i => el i j.val)
  let br := fin.map fun i => chkBound v.ar[i]
  let bc := fin.map fun j => chkBound v.ac[j]
  let flags (x y : List F32) : Nat :=
    ((x.zip y).zipIdx).foldl (fun a (p, i) => if chkFlagged p.1 p.2 then a + 2 ^ i else a) 0
  let word (x : F32) : List Byte := leBytes 4 x.toNat
  if v.ck then
    (((rr ++ br ++ rc ++ bc).flatMap word) ++ leBytes 4 (flags rr br) ++ leBytes 4 (flags rc bc) ++ leBytes 4 1 ++
       leBytes 52 0,
     BitVec.ofNat 64 (2 ^ 16 + countOnes (flags rc bc) 32 * 2 ^ 8 + countOnes (flags rr br) 32))
  else (leBytes 576 0, 0)

/-- An accumulator of a tile changed. -/
def State.modAcc (s : State) (t : TileId) (a : Acc) (f : AccPair → AccPair) : State :=
  s.modMatrix t fun m => { m with accs := m.accs.set a (f m.accs[a]) }

/-- A trap that waits at the next boundary of a work (R63, R184, R304). -/
def State.trapWork (s : State) (t : TileId) (owner : Nat) (c : Cause) (v : W) : State :=
  s.modWork t owner fun x => { x with due := x.due ++ [{ cause := c, val := v, mask := some 0 }] }

/-- The first poisoned operand. -/
def poisonedOf (l : List Operand) : Option Operand := l.find? (·.poison)

/-- The open latch circuit of a sequence from a tile with a handle (R184, R253). -/
def State.latchCircuit (s : State) (h : W) (t : TileId) (q : SeqId) : Option Circuit :=
  s.circuits.find? fun c =>
    c.handle.toNat == h.toNat && c.latch && c.seq == q && c.src == t && !c.closing && c.peer.isNone

/-- The words of a latch entry (R293): the header and the operand's bytes. Log 29: DESIGN CHOICE. -/
def entryWords (n : BitVec 16) (o : Operand) : List (BitVec 256) :=
  BitVec.ofNat 256 (n.toNat * 2 ^ 8 + o.fmt.code) ::
    (List.range (o.bytes.length / 32)).map fun i => BitVec.ofNat 256 (leNat ((o.bytes.drop (32 * i)).take 32))

/-- A circuit changed. -/
def State.modCircuit (s : State) (h : BitVec 32) (f : Circuit → Circuit) : State :=
  { s with circuits := s.circuits.map fun c => if c.handle == h then f c else c }

/-- The words of a send that its circuit's injection queue has not taken: those left of a begun one; otherwise the whole entry, once the
circuit has a credit and, for a LATCH form, the own latch an entry (R184, R293). -/
def State.sendRest (s : State) (t : TileId) (w : MWord) (c : Circuit) (src : Option Operand) : Option (List (BitVec 256)) :=
  match w.left with
  | some l => some l
  | none =>
    if c.credits = 0 then none
    else (src.orElse fun _ => s.tiles[t].matrix.latch.head?).map (entryWords c.entries)

/-- The room of a circuit's injection queue (R205). -/
def Circuit.queueRoom (c : Circuit) : Nat := 16 - c.queue.length

/-- Words of an entry put in the injection queue; where the entry begins, one credit is spent (R184, R293). -/
def State.sendWords (s : State) (h : BitVec 32) (begins : Bool) (l : List (BitVec 256)) : State :=
  s.modCircuit h fun c => { c with
    credits := if begins then c.credits - 1 else c.credits, entries := if begins then c.entries + 1 else c.entries,
    queue := c.queue ++ l.map fun w => ⟨w, s.domain.sid, none⟩ }

/-- The head of a tile's latch popped, and a credit returned to its sender (R184). -/
def State.popLatch (s : State) (t : TileId) : State :=
  let s1 := s.modMatrix t fun m => { m with latch := m.latch.drop 1 }
  match s.tiles[t].matrix.latchBy with
  | none => s1
  | some h => match s.circuits.find? fun c => c.handle == h with
    | none => s1
    | some c => s1.send t c.src (partOf c.seq) (.creditWords h 1) []

/-- A word that can complete now, apart from its order in the queue (R182, R184, R290, R291): its operands have been read; its
destination pane is not STAGED; the last words of its entry find room in the injection queue, and its pop an entry. -/
def State.wordReady (s : State) (t : TileId) (w : MWord) : Bool :=
  let m := s.tiles[t].matrix
  match w.kind with
  | .mstacc _ p | .mchk _ p _ _ => s.tiles[t].panes[p].staged == 0
  | .send h src pop =>
    match s.latchCircuit h t w.seq with
    | none => w.left.isNone || !pop || !m.latch.isEmpty
    | some c => match s.sendRest t w c src with
      | none => false
      | some l => decide (l.length ≤ c.queueRoom) && (!pop || !m.latch.isEmpty)
  | .pop => !m.latch.isEmpty
  | .mma .. | .mldacc .. => w.read
  | .mzero _ | .mswap _ | .mfix .. => true

/-- A rewrite on the tile has written a pane through an M word (R187). -/
def State.noteWrote (s : State) (t : TileId) (owner : Nat) (p : Fin 128) : State :=
  match s.tiles[t].core.strandOf owner with
  | none => s
  | some k => s.modStrandAt t k fun x => match x.work with
    | .rewrite r => { x with work := .rewrite { r with wrote := p :: r.wrote.erase p } }
    | .free | .thread _ | .firmware => x

/-- What a word writes to its destination pane; a word of a discarded rewrite leaves the pane unpredictable (R187), and under a key slot
that has been voided it faults and writes nothing (R227). -/
def State.wordWrites (s : State) (t : TileId) (w : MWord) (p : Fin 128) (off : Nat) (l : List Byte) : State :=
  if w.spoil then s.spoilPane w.seq t p
  else if !s.keyLive w.seq (dieOf t) then
    s.trapWork t w.owner .keyVoid (s.tilebase w.seq + BitVec.ofNat 64 (t.val * 2 ^ 22 + 4096 * p.val + off))
  else (s.writePlace (.seq w.seq) (.win t (4096 * p.val + off)) l).noteWrote t w.owner p

/-- The effect of a word on the accumulators, its flags and its traps (R180–R184, R186, R304). -/
def State.performWord (s : State) (t : TileId) (w : MWord) : State :=
  match w.kind with
  | .mma tr chk a x y => match poisonedOf [x, y] with
    | some o => ((s.modAcc t a fun p => { p with work := p.work.spoilt s.free }).useFree).trapWork t w.owner .poison o.addr
    | none =>
      let r := (s.tiles[t].matrix.accs[a].work).mma x y tr chk
      ((s.modAcc t a fun p => { p with work := r.1 }).modWork t w.owner fun c => c.orFlags r.2).modCounts w.seq
        fun c => { c with mmas := c.mmas + 1 }
  | .mzero a => s.modAcc t a fun p => { p with work := AccBank.zero }
  | .mswap a => s.modAcc t a fun p => { work := p.vis, vis := p.work }
  | .mldacc a o =>
    if o.poison then
      ((s.modAcc t a fun p => { p with vis := p.vis.spoilt s.free }).useFree).trapWork t w.owner .poison o.addr
    else s.modAcc t a fun p => { p with vis := AccBank.loaded o.bytes }
  | .mstacc a p =>
    s.wordWrites t w p 0 (s.tiles[t].matrix.accs[a].vis.m.toList.flatMap fun x => leBytes 4 x.toNat)
  | .mchk a p off u =>
    let r := (s.tiles[t].matrix.accs[a].vis).mchk
    (s.wordWrites t w p off r.1).answer t w.owner u 0 (r.2.setWidth 1024) 0 none
  | .mfix a i j x => s.modAcc t a fun p => { p with vis := { p.vis with m := p.vis.m.set (32 * i.val + j.val) x } }
  | .send h src pop =>
    match s.latchCircuit h t w.seq with
    | none => if w.left.isNone then s.trapWork t w.owner .circuit h else if pop then s.popLatch t else s
    | some c =>
      let s1 := s.sendWords c.handle w.left.isNone ((s.sendRest t w c src).getD [])
      if pop then s1.popLatch t else s1
  | .pop => s.popLatch t

/-- A destination pane returned to the core, unless another queued word was handed it (R182). -/
def State.returnPane (s : State) (t : TileId) (p : Option (Fin 128)) : State :=
  match p with
  | none => s
  | some n =>
    if s.tiles[t].matrix.queue.any fun w => w.kind.dest == some n then s
    else s.modPane t n fun x => { x with engine := false, handed := false }

/-- The unit of a rewrite that is gone is released once its words are performed (R174). -/
def State.orphanEnd (s : State) (t : TileId) : State :=
  match s.tiles[t].matrix.holder with
  | some (0, _) => if s.tiles[t].matrix.queue.isEmpty then s.releaseUnit t else s
  | some (_ + 1, _) | none => s

/-- A pane pre-staged for a rewrite (R370) that a word of it has read is staged no longer by the rewrite. -/
def State.prestageRead (s : State) (t : TileId) (owner : Nat) (p : Fin 128) : State :=
  match s.tiles[t].core.strandOf owner with
  | none => s
  | some k => match (s.strandAt t k).work with
    | .rewrite r =>
      if r.staged.contains p then
        (s.modStrandAt t k fun x => { x with work := .rewrite { r with staged := r.staged.erase p } }).unstage t (some p)
      else s
    | .free | .thread _ | .firmware => s

/-- Site 1 of FAULTINJ fires at the completion of an MMA or MMAT, after its checksum update (R230): bits of one working
element are flipped. -/
def State.injectUnit (s : State) (t : TileId) (kind : MKind) : State :=
  let c := s.tiles[t].core
  let w := c.injSite.toNat
  let isMma : Bool := match kind with
    | .mma .. => true
    | .mzero _ | .mswap _ | .mldacc .. | .mstacc .. | .mchk .. | .mfix .. | .send .. | .pop => false
  if isMma && c.injArmed && bitsAt w 0 4 == 1 then
    let flip : F32 := ((1 : F32) <<< bitsAt w 20 8) ||| (if bitsAt w 36 2 = 2 then (1 : F32) <<< bitsAt w 28 8 else 0)
    let i := 32 * bitsAt w 10 5 + bitsAt w 15 5
    let s1 := s.modAcc t ⟨bitsAt w 8 2, by unfold bitsAt; omega⟩ fun p => { p with work := { p.work with
      m := Vector.ofFn fun j => if j.val = i then p.work.m[j] ^^^ flip else p.work.m[j] } }
    s1.modCore t fun x => { x with injFired := true, injArmed := false }
  else s

/-- A queued word changed. -/
def State.modWord (s : State) (t : TileId) (n : Nat) (f : MWord → MWord) : State :=
  s.modMatrix t fun m => { m with queue := m.queue.modify n f }

/-- A word waits behind an earlier one of the queue (R175). -/
def Matrix.blocked (m : Matrix) (n : Nat) (w : MWord) : Bool := (m.queue.take n).any fun e => w.kind.after e.kind

/-- The unit can read a word's operands to the last byte before the word completes: an MMA's once the array has read those of the
MMAs before it and no MSWAP stands before it, MLDACC's when its turn has come, a send's once all its words have entered the
injection queue (R175, R290, R291). -/
def Matrix.mayRead (m : Matrix) (n : Nat) (w : MWord) : Bool :=
  !w.read && !w.kind.staged.isEmpty &&
  match w.kind with
  | .mma .. => (m.queue.take n).all fun e => !e.kind.swap && (e.read || e.kind.working.isNone || e.kind.staged.isEmpty)
  | .mldacc .. => !m.blocked n w
  | .send .. => w.left == some []
  | .mzero _ | .mswap _ | .mstacc .. | .mchk .. | .mfix .. | .pop => false

/-- The panes that a word has read are STAGED by it no longer (R179, R291, R370). -/
def State.unstageWord (s : State) (t : TileId) (w : MWord) : State :=
  w.kind.staged.foldl (fun a p => (a.unstage t (some p)).prestageRead t w.owner p) s

/-- As many words of a send as its circuit's injection queue has room for enter it (R205, R290). -/
def State.sendMove (s : State) (t : TileId) (n : Nat) (w : MWord) : State :=
  match w.kind with
  | .send h src _ =>
    match s.latchCircuit h t w.seq with
    | none => s
    | some c => match s.sendRest t w c src with
      | none => s
      | some l =>
        if c.queueRoom = 0 then s
        else (s.sendWords c.handle w.left.isNone (l.take c.queueRoom)).modWord t n fun x =>
          { x with left := some (l.drop c.queueRoom) }
  | .mma .. | .mzero _ | .mswap _ | .mldacc .. | .mstacc .. | .mchk .. | .mfix .. | .pop => s

/-- A queued word performed (R175, R291): its flags are ORed, its destination pane returns, and it leaves the queue. -/
def State.completeWord (s : State) (t : TileId) (n : Nat) (w : MWord) : State :=
  let s1 := (s.performWord t w).injectUnit t w.kind
  let s2 := s1.modMatrix t fun x => { x with queue := x.queue.eraseIdx n }
  let s3 := if w.read then s2 else s2.unstageWord t w
  (s3.returnPane t w.kind.dest).orphanEnd t

/-- The queued words of a sequence drain, in their order (R174, R330). -/
def State.drainUnit (s : State) (t : TileId) (q : SeqId) : Nat → State
  | 0 => s
  | n + 1 => match s.tiles[t].matrix.queue with
    | [] => s
    | w :: _ => if w.seq = q then (s.completeWord t 0 w).drainUnit t q n else s

/-- MATRIX_WORD_COMPLETE (R175, R290, R291): a queued word moves on. First the unit reads its operands and their panes are STAGED
by it no longer; then, when no earlier word holds it back, it is performed, its flags are ORed, its destination pane returns and it leaves
the queue. -/
def execMatrixWordComplete (t : TileId) (n : Fin 8) (s : State) : Out :=
  let m := s.tiles[t].matrix
  match m.queue[n.val]? with
  | none => .next s
  | some w =>
    if s.still t then .next s
    else if m.mayRead n.val w then .next ((s.unstageWord t w).modWord t n.val fun x => { x with read := true })
    else if m.blocked n.val w then .next s
    else if !s.wordReady t w then .next (s.sendMove t n.val w)
    else .next (s.completeWord t n.val w)

/-- A send can put words in its circuit's injection queue. -/
def State.sendsNow (s : State) (t : TileId) (w : MWord) : Bool :=
  match w.kind with
  | .send h src _ =>
    (match s.latchCircuit h t w.seq with
     | some c => decide (0 < c.queueRoom) && !((s.sendRest t w c src).getD []).isEmpty
     | none => false)
  | .mma .. | .mzero _ | .mswap _ | .mldacc .. | .mstacc .. | .mchk .. | .mfix .. | .pop => false

/-- The queued word that moves next: the first that can move, else the first. -/
def State.matrixNext (s : State) (t : TileId) : Fin 8 :=
  let m := s.tiles[t].matrix
  ((List.finRange 8).find? fun n => match m.queue[n.val]? with
    | none => false
    | some w => m.mayRead n.val w || (!m.blocked n.val w && (s.wordReady t w || s.sendsNow t w))).getD 0

/-- MATRIX_CLEAR_END: the clearing after a release has ended (R173). -/
def execMatrixClearEnd (t : TileId) (s : State) : Out :=
  .next (s.modMatrix t fun m => { m with clearing := false })

end Sys2Proof.Machine
end

