-- ==== Sys2Proof/Machine/Walk.lean ====
section
/-! DEFINITION. The walker at work (spec/25 R400, R404, R407–R409, R416; spec/24 R396): what a walk installs, whom it tells of a
fault, and the page requests that it raises. -/

namespace Sys2Proof.Machine

/-! ### TLBs and the directory -/

/-- The TLBs of a tile, as TLBI selects them: load/store, matrix operand, copy, fetch (R225). -/
def Tile.dropEntries (x : Tile) (tlbs : BitVec 4) (p : TlbEntry → Bool) : Tile :=
  let keep (l : List TlbEntry) : List TlbEntry := l.filter fun e => !p e
  { x with tlbLoad := if tlbs.getLsbD 0 then keep x.tlbLoad else x.tlbLoad,
           tlbMatrix := if tlbs.getLsbD 1 then keep x.tlbMatrix else x.tlbMatrix,
           tlbCopy := if tlbs.getLsbD 2 then x.tlbCopy.map keep else x.tlbCopy,
           tlbFetch := if tlbs.getLsbD 3 then keep x.tlbFetch else x.tlbFetch }

/-- TLB entries dropped on the tiles of a set. -/
def State.dropEntries (s : State) (on : TileId → Bool) (tlbs : BitVec 4) (p : TlbEntry → Bool) : State :=
  { s with tiles := Vector.ofFn fun t => if on t then s.tiles[t].dropEntries tlbs p else s.tiles[t] }

/-- The home die of a region (R409). -/
def Region.home : Region → DieId
  | .stage1 _ va => ⟨va % 4, by omega⟩
  | .stage2 _ ipa => ⟨ipa % 4, by omega⟩

/-- A TLB entry lies in a region (R409). -/
def TlbEntry.inRegion (e : TlbEntry) (r : Region) : Bool :=
  match r with
  | .stage1 q va => e.seq == q && e.page * 2 ^ pageBits e.size / 2 ^ 21 ≤ va && va ≤ ((e.page + 1) * 2 ^ pageBits e.size - 1) / 2 ^ 21
  | .stage2 p ipa => e.window.isNone && partOf e.seq == p && e.ipa / 2 ^ 21 == ipa

/-- The translations of a region dropped on the dies of a mask. Log 31: DESIGN CHOICE. -/
def State.dropRegion (s : State) (r : Region) (mask : BitVec 4) : State :=
  s.dropEntries (fun t => mask.getLsbD (dieOf t).val) 15 fun e => e.inRegion r

/-- A notification (R409): bit d of the region's mask set at its home; where its directory is full, an entry is evicted first
and its translations dropped. Log 31: DESIGN CHOICE. -/
def State.notify (s : State) (r : Region) (d : DieId) : State :=
  let bit : BitVec 4 := (1 : BitVec 4) <<< d.val
  let dir := s.dies[r.home].directory
  if dir.any fun x => x.1 == r then
    s.modDie r.home fun y => { y with directory := y.directory.map fun x => if x.1 == r then (x.1, x.2 ||| bit) else x }
  else
    let s1 := if dir.length < 4096 then s
      else match dir with
        | [] => s
        | old :: l => (s.dropRegion old.1 old.2).modDie r.home fun y => { y with directory := l }
    s1.modDie r.home fun y => { y with directory := y.directory ++ [(r, bit)] }

/-- The most recent entry first, at most n. -/
def pushTlb (n : Nat) (e : TlbEntry) (l : List TlbEntry) : List TlbEntry :=
  (e :: l.filter fun x => !(x.seq == e.seq && x.page == e.page && x.size == e.size)).take n

/-- The stage-1 region of an entry (R409): that of its page's first byte. -/
def TlbEntry.region1 (e : TlbEntry) : Region := .stage1 e.seq (e.page * 2 ^ pageBits e.size / 2 ^ 21)

/-- A walk's result installed (R407, R409). -/
def State.install (s : State) (t : TileId) (tlb : Fin 4) (ch : ChanId) (e : TlbEntry) : State :=
  let s1 := s.notify e.region1 (dieOf t)
  let s2 := if e.window.isSome then s1 else s1.notify (.stage2 (partOf e.seq) (e.ipa / 2 ^ 21)) (dieOf t)
  s2.modTile t fun x => match tlb with
    | 0 => { x with tlbLoad := pushTlb 128 e x.tlbLoad }
    | 1 => { x with tlbMatrix := pushTlb 8 e x.tlbMatrix }
    | 2 => { x with tlbCopy := x.tlbCopy.set ch (pushTlb 16 e x.tlbCopy[ch]) }
    | 3 => { x with tlbFetch := pushTlb 32 e x.tlbFetch }

/-- The first access to a TOUCH leaf (R404): one compare-and-swap writes PLACE := PIN and the tile, the reserved bits [63:58]
as 0 (R7). -/
def State.touchLeaf (s : State) (q : SeqId) (t : TileId) (leaf : Place) (old : W) : State :=
  let new := putField (putField (putField old 7 2 1) 48 10 t.val) 58 6 0
  if s.readNum (.seq q) leaf 8 = old.toNat then s.writeNum (.seq q) leaf 8 new.toNat else s

/-! ### Whom a walk tells -/

/-- A requester is told of a walk's fault (R416). A PREF is dropped. Log 30: DESIGN CHOICE. -/
def State.walkFault (s : State) (w : Walk) (c : Cause) (who : Waiter) : State :=
  match who with
  | .thread t owner => if owner = 0 then s else s.modWork t owner fun x => { x with xfault := some (w.va, c) }
  | .chan t ch uid => s.modCmd t ch uid fun x => { x with xfault := some (w.va, c) }
  | .pair .. => s

/-- The VF of a sequence. -/
def State.vfOf (s : State) (q : SeqId) : Fin 192 :=
  match s.seqs[q] with
  | some x => x.vf
  | none => 0

/-- The stage-2 misses of the active elements above the one that faulted (R396): at most n more requests, none for a range
that is refused, and none for one already asked for, whose reply the thread awaits as well (R412). -/
def State.collect (s : State) (q : SeqId) (t : TileId) (owner : Nat) (refused : List (Nat × Fin 4)) (acc : Access) :
    List W → Nat → State
  | [], _ => s
  | _, 0 => s
  | va :: l, n + 1 =>
    match s.walk q t va with
    | .missing ipa z table =>
      let fn : Fin 193 := ⟨(s.vfOf q).val, by omega⟩
      let m : PageMiss := { ipa := ipa, size := z, acc := accessCode acc table, seq := q, tile := t, who := .thread t owner }
      if refused.any fun r => inRange ipa r.1 r.2 then s.collect q t owner refused acc l (n + 1)
      else if (s.streams[fn].covering ipa).isSome then
        (s.pageMiss (s.vfOf q) m).collect q t owner refused acc l (n + 1)
      else if 64 ≤ s.streams[fn].tags.length then s
      else (s.raisePage (s.vfOf q) m).collect q t owner refused acc l n
    | .done _ | .touch .. | .fault _ | .poisoned => s.collect q t owner refused acc l (n + 1)

/-- The addresses of the elements above the next one of a replay record. Log 108: DEDUCED. -/
def Replay.rest (r : Replay) : List W :=
  match elemForm r.word with
  | none => []
  | some f =>
    (((List.range (128 / f.w)).filter fun i => r.mask.getLsbD i && !r.done.getLsbD i).drop 1).map fun i => r.addr f i

/-- A requester meets XLATE_S2 (R199, R361, R392, R396, R416): in a range that was refused it is XLATE_DENIED; otherwise a page
request is raised and the thread or the channel is parked, the rewrite discarded with PARK 1. -/
def State.walkMissing (s : State) (w : Walk) (ipa : Nat) (z : Fin 4) (table : Bool) (who : Waiter) : State :=
  let vf := s.vfOf w.seq
  let miss (x : Waiter) (tile : TileId) : PageMiss :=
    { ipa := ipa, size := z, acc := accessCode w.acc table, seq := w.seq, tile := tile, who := x }
  match who with
  | .thread t owner =>
    if owner = 0 then s
    else match s.tiles[t].core.strandOf owner with
      | none => s
      | some k =>
        let x := s.strandAt t k
        match x.work with
        | .rewrite r =>
          let p := Waiter.pair (s.homeOf w.seq t r.pair.lineA) w.seq r.pair.lineA r.pair.lineB
          (s.discard t k r (.park 1)).pageMiss vf (miss p t)
        | .thread _ | .firmware =>
          if x.ctx.refused.any fun r => inRange ipa r.1 r.2 then s.walkFault w .xlateDenied who
          else
            let s1 := s.pageMiss vf (miss who t)
            let joins := (s.streams[(⟨vf.val, by omega⟩ : Fin 193)].covering ipa).isSome
            let s2 := match x.ctx.replay with
              | some r => s1.collect w.seq t owner x.ctx.refused w.acc r.rest (if joins then 8 else 7)
              | none => s1
            s2.parkThread t k
        | .free => s
  | .chan t ch uid => match s.tiles[t].chans[ch].queue.find? fun y => y.uid == uid with
    | none => s
    | some y =>
      if y.refused.any fun r => inRange ipa r.1 r.2 then s.walkFault w .xlateDenied who
      else ((s.modCmd t ch uid fun y => { y with parked := true }).modChan t ch fun x =>
          { x with state := .waitPage }).pageMiss vf (miss who t)
  | .pair .. => s

/-- TRANSLATION_WALK (R400, R408): one of the two walks in progress ends, once the lines of the entries that it reads stand at their homes
(R276). Log 119: DESIGN CHOICE. -/
def execTranslationWalk (t : TileId) (n : Fin 2) (s0 : State) : Out :=
  match s0.tiles[t].walks[n.val]? with
  | none => .next s0
  | some w =>
    let spans := s0.walkSpans w.seq t w.va
    let s := s0.useLines spans
    let s1 := s.modTile t fun x => { x with walks := x.walks.eraseIdx n.val }
    if s0.still t then .next s0
    else if !(s0.absent spans).isEmpty then .next (s0.askLines w.seq spans)
    else .next (match s.walk w.seq t w.va with
      | .done e => w.into.foldl (fun a x => a.install t x.1 x.2 e) s1
      | .touch leaf old => s.touchLeaf w.seq t leaf old
      | .fault c => w.who.foldl (fun a x => a.walkFault w c x) s1
      | .poisoned => w.who.foldl (fun a x => a.walkFault w .poison x) s1
      | .missing ipa z table => w.who.foldl (fun a x => a.walkMissing w ipa z table x) s1)

end Sys2Proof.Machine
end

