-- ==== Sys2Proof/Machine/Transfer.lean ====
section
/-! DEFINITION. Copy words, batches and the copy engine (spec/09 R188–R202, spec/17 R315, spec/18 R324–R329; major 0x1B). -/

namespace Sys2Proof.Machine

/-! ### Shapes and records (R193, R195) -/

/-- What a record or single copy asks for. -/
structure Rec where
  next : W
  own : Bool
  op : Nat
  xp : Nat
  arrive : Bool
  src : W
  dst : W
  rows : Nat
  rowb : Nat
  sstride : W
  dstride : W
  index : W
  barrier : W
  deriving DecidableEq, Repr

/-- A 20-bit signed field of a shape word (R193). -/
def strideAt (w : W) (lo : Nat) : W := (w.extractLsb' lo 20).signExtend 64

/-- Rows of a shape word. -/
def shapeRows (w : W) : Nat := field w 0 12 + 1
/-- Row bytes of a shape word. -/
def shapeBytes (w : W) : Nat := field w 12 12 + 1

/-- The record that eight words hold (R195). -/
def recOf (ws : List W) : Rec :=
  let w (n : Nat) : W := ws.getD n 0
  { next := w 0, own := (w 1).getLsbD 63, op := field (w 1) 60 3, xp := field (w 1) 58 2, arrive := (w 1).getLsbD 57,
    src := w 2, dst := w 3, rows := shapeRows (w 4), rowb := shapeBytes (w 4), sstride := strideAt (w 4) 24,
    dstride := strideAt (w 4) 44, index := w 5, barrier := w 6 }

/-- OP codes. -/
def CopyOp.code : CopyOp → Nat
  | .copy => 0
  | .gather => 1
  | .scatter => 2

/-- XPOSE codes. -/
def xposeCode : XPose → Nat
  | .none => 0
  | .t8 => 1
  | .t16 => 2

/-- A single copy as a record (R194). -/
def singleRec (op : CopyOp) (xp : XPose) (src dst shape index : W) : Rec :=
  { recOf [0, 0, src, dst, shape, index, 0, 0] with op := op.code, xp := xposeCode xp }

/-- The shape word of CPY (R194): one row of len bytes. -/
def cpyShape (len : Nat) : W := BitVec.ofNat 64 (len * 2 ^ 44 + len * 2 ^ 24 + (len - 1) * 2 ^ 12)

/-- Bytes of a transposed unit (R196). -/
def Rec.unit (r : Rec) : Nat := if r.xp = 2 then 2 else 1

/-- A reserved OP, XPOSE or shape (R196, R199). -/
def Rec.bad (r : Rec) : Bool :=
  2 < r.op || r.xp == 3 || (r.xp != 0 && (r.op != 0 || r.rowb % r.unit != 0 || 4096 < r.rows * r.unit))

/-- The address that a record finds misaligned (R199). Of the spans of a 16-bit transpose it is the destination's that must be
2-byte aligned, the one that is written in units of two bytes: DST, and DSTRIDE where there is more than one column. Log 48:
DEDUCED. -/
def Rec.misaligned (r : Rec) : Option W :=
  if r.op ≠ 0 ∧ r.index.toNat % 4 ≠ 0 then some r.index
  else if r.arrive ∧ r.barrier.toNat % 8 ≠ 0 then some r.barrier
  else if r.xp = 2 ∧ (r.dst.toNat % 2 ≠ 0 ∨ (r.unit < r.rowb ∧ r.dstride.toNat % 2 ≠ 0)) then some r.dst
  else none

/-- base + n × stride. -/
def strided (base : W) (n : Nat) (stride : W) : W := base + BitVec.ofNat 64 n * stride

/-! ### Fixed spans at issue (R194) -/

/-- The aliases of a window, first and last byte + 1 (R317). -/
def windowAliases : List (Nat × Nat) :=
  [(0, 0x80000), (0x80000, 0x180000), (0x180000, 0x240000), (0x240000, 0x300000), (0x300000, 0x3C0000)]

/-- The panes of a tile's window that n bytes at an address of a sequence cover, as TILEBASE lays the window out (R403). -/
def State.ownPanes (s : State) (q : SeqId) (t : TileId) (va : W) (n : Nat) : List (Fin 128) :=
  let base := (s.tilebase q).toNat + t.val * 2 ^ 22
  windowAliases.flatMap fun (a, b) =>
    let lo := if va.toNat < base + a then base + a else va.toNat
    let hi := if base + b < va.toNat + n then base + b else va.toNat + n
    if lo < hi then panesOf (lo - base) (hi - lo) else []

/-- The panes that the rows of a span cover. -/
def State.spanPanes (s : State) (q : SeqId) (t : TileId) (base stride : W) (rows n : Nat) : List (Fin 128) :=
  (List.finRange 128).filter ((List.range rows).flatMap fun e => s.ownPanes q t (strided base e stride) n).contains

/-- The panes of a tile that the fixed spans of a record or single copy cover (R194). -/
def State.fixedPanes (s : State) (q : SeqId) (t : TileId) (r : Rec) : List (Fin 128) :=
  let src := if r.op = 1 then [] else s.spanPanes q t r.src r.sstride r.rows r.rowb
  let dst := if r.op = 2 then []
    else if r.xp = 0 then s.spanPanes q t r.dst r.dstride r.rows r.rowb
    else s.spanPanes q t r.dst r.dstride (r.rowb / r.unit) (r.rows * r.unit)
  let idx := if r.op = 0 then [] else s.ownPanes q t r.index (4 * r.rows)
  (List.finRange 128).filter (src ++ dst ++ idx).contains

/-- The panes of the issuing tile that a single copy is handed. -/
def State.handedPanes (s : State) (r : Rec) : List (Fin 128) :=
  (s.fixedPanes s.q s.cur r).filter fun p => s.tile.panes[p].allows s.q

/-! ### Batches (R191, R192) -/

/-- The open batch joined by one more member. -/
def Ctx.join (c : Ctx) : Ctx :=
  if c.batches.any fun b => b.num == c.batchnow then
    { c with batches := c.batches.map fun b => if b.num = c.batchnow then { b with members := b.members + 1, used := true }
        else b }
  else { c with batches := c.batches ++
    [{ num := c.batchnow, members := 1, used := true, sealed := false, fault := none, reported := false }] }

/-- A batch is finished (R191). -/
def Batch.finished (b : Batch) : Bool := b.sealed && b.members == 0

/-- Batches that nothing more can be asked of are forgotten. -/
def Ctx.forget (c : Ctx) : Ctx :=
  { c with batches := c.batches.filter fun b => !(b.finished && (b.fault.isNone || b.reported)) }

/-- The sealed batches that are unfinished. -/
def Ctx.unfinished (c : Ctx) : Nat := (c.batches.filter fun b => b.sealed && b.members != 0).length

/-- The earlier of two faults in member order. -/
def firstFault (a b : Option (Nat × Cause × W)) : Option (Nat × Cause × W) :=
  match a, b with
  | some x, some y => if y.1 < x.1 then some y else some x
  | some x, none => some x
  | none, y => y

/-- A member of a batch completed, faulted or cancelled. -/
def Ctx.memberEnd (c : Ctx) (num : W) (fault : Option (Nat × Cause × W)) : Ctx :=
  { c with batches := c.batches.map fun b =>
      if b.num = num then { b with members := b.members - 1, fault := firstFault b.fault fault } else b }

/-- A member of a work's batch ends; the finish of a sealed batch sets the work's event bit (R191). -/
def State.memberEnd (s : State) (t : TileId) (owner : Nat) (num : W) (fault : Option (Nat × Cause × W)) : State :=
  let s1 := s.modWork t owner fun c => c.memberEnd num fault
  let ended := match s1.workCtx t owner with
    | some c => c.batches.any fun b => b.num == num && b.finished
    | none => false
  if ended then (s1.setEvent t owner).modWork t owner Ctx.forget else s1

/-- The open batch has a member that is not finished. -/
def Ctx.openBusy (c : Ctx) : Bool := c.batches.any fun b => b.num == c.batchnow && b.members != 0

/-- CSEAL (R191): it waits where it would make a 17th unfinished sealed batch. -/
def execCseal (d : GReg) (s : State) : Out :=
  s.word ((s.illegalIf s.rewriting.isSome).andThen
      (if 16 ≤ s.ctx.unfinished ∧ s.ctx.openBusy = true then .wait else .pass)) fun s =>
    let num := s.ctx.batchnow
    let s1 := s.scalar d num 1
    let s2 := s1.modCtx Ctx.sealOpen
    if s2.ctx.batches.any fun b => b.num == num && b.finished then
      (s2.setEvent s.cur s.strand.owner).modCtx Ctx.forget
    else s2

/-- The lowest-numbered finished batch with a fault that has not been reported (R192). -/
def Ctx.reportable (c : Ctx) : Option Batch :=
  (c.batches.filter fun b => b.finished && b.fault.isSome && !b.reported).foldl (fun a b => match a with
    | none => some b
    | some x => if b.num.toNat < x.num.toNat then some b else some x) none

/-- The trap that CWAIT leaves for the next boundary, its batch's fault marked reported (R192). -/
def Ctx.report (c : Ctx) : Ctx :=
  match c.reportable with
  | none => c
  | some b => match b.fault with
    | none => c
    | some (_, cause, v) =>
      { c with batches := c.batches.map fun x => if x.num = b.num then { x with reported := true } else x,
               due := c.due ++ [{ cause := cause, val := v, mask := some 0 }] }

/-- CWAIT: its return is an acquire, after the releases before it (R339, R341). -/
def execCwait (n : Fin 16) (s : State) : Out :=
  s.word ((s.illegalIf s.rewriting.isSome).andThen (if n.val < s.ctx.unfinished then .wait else s.releaseWait)) fun s =>
    s.modCtx fun c => c.report.forget

/-! ### Commands (R190, R194, R197) -/

/-- A pane handed to a single copy: BUSY, and engine-owned until BUSY clears (R194, R325). -/
def Pane.lend (p : Pane) : Pane := { p with busy := p.busy + 1, ret := p.ret || !p.engine, engine := true }

/-- One engine activity on a pane ends; a handed pane returns to the core when BUSY clears (R194). -/
def Pane.release (p : Pane) : Pane :=
  let n := p.busy - 1
  if n = 0 && p.ret then { p with busy := n, ret := false, engine := false } else { p with busy := n }

/-- The queue of a channel has room (R190). -/
def State.chanRoom (s : State) (c : ChanId) : Verdict := if 16 ≤ s.tile.chans[c].queue.length then .wait else .pass

/-- A command placed in a channel's queue; the strand's earlier memory words come first (R190), and it joins the open batch
(R191). -/
def State.command (s : State) (c : ChanId) (k : CmdKind) (st : CmdStep) (panes : List (Fin 128)) : State :=
  let cmd : Cmd :=
    { uid := s.fresh, owner := s.strand.owner, seq := s.q, batch := s.ctx.batchnow, kind := k,
      after := (s.ctx.pends.filter (·.mem)).map (·.uid), step := st, row := 0, parked := false, cancel := false, held := [],
      busy := panes, xfault := none, refused := [] }
  let s1 := (s.bump).modCtx Ctx.join
  let s2 := panes.foldl (fun a p => a.modPane s.cur p Pane.lend) s1
  s2.modChan s.cur c fun x =>
    { x with queue := x.queue ++ [cmd], state := if x.queue.isEmpty then .run else x.state }

/-- The checks of a single copy (R188, R189, R194): in a rewrite, alignment, and the panes that it would be handed; before a pane
is handed over, the strand's earlier accesses to its own store are performed (R190). -/
def State.singleCheck (s : State) (c : ChanId) (r : Rec) (align : Option W) : Verdict :=
  let panes := s.handedPanes r
  let bad := panes.find? fun p => s.tile.panes[p].staged != 0 || s.tile.panes[p].ring
  (((s.illegalIf s.rewriting.isSome).andThen
      (match align with
       | some a => .trap .misalign a
       | none => .pass)).andThen
      (match bad with
       | some p => .trap .paneViolation (BitVec.ofNat 64 p.val)
       | none => .pass)).andThen ((s.chanRoom c).andThen (if panes.isEmpty then .pass else s.heldWait (.win s.cur 0)))

/-- A single copy issued. -/
def State.single (s : State) (c : ChanId) (op : CopyOp) (xp : XPose) (src dst shape index : W) : State :=
  s.command c (.single op xp src dst shape index) .rows (s.handedPanes (singleRec op xp src dst shape index))

/-- The register after one, within the file. -/
def gAfter (r : GReg) (n : Nat) : GReg := ⟨(r.val + n) % 64, by omega⟩

/-- The first of two addresses that is not 64-byte aligned. -/
def unaligned64 (l : List W) : Option W := l.find? fun a => a.toNat % 64 != 0

/-- CPY. -/
def execCpy (a b : GReg) (l : BitVec 6) (c : ChanId) (s : State) : Out :=
  let shape := cpyShape (64 * (l.toNat + 1))
  s.word (s.singleCheck c (singleRec .copy .none (s.g b) (s.g a) shape 0) (unaligned64 [s.g a, s.g b])) fun s =>
    s.single c .copy .none (s.g b) (s.g a) shape 0
/-- CPYS. -/
def execCpys (a b : GReg) (x : XPose) (c : ChanId) (s : State) : Out :=
  let r := singleRec .copy x (s.g b) (s.g a) (s.g (gAfter b 1)) 0
  s.word ((s.illegalIf (decide (62 < b.val))).andThen (s.singleCheck c r r.misaligned)) fun s =>
    s.single c .copy x (s.g b) (s.g a) (s.g (gAfter b 1)) 0
/-- CGATH. -/
def execCgath (a b : GReg) (c : ChanId) (s : State) : Out :=
  let r := singleRec .gather .none (s.g b) (s.g a) (s.g (gAfter b 1)) (s.g (gAfter b 2))
  s.word ((s.illegalIf (decide (61 < b.val))).andThen (s.singleCheck c r r.misaligned)) fun s =>
    s.single c .gather .none (s.g b) (s.g a) (s.g (gAfter b 1)) (s.g (gAfter b 2))
/-- CSCAT. -/
def execCscat (a b : GReg) (c : ChanId) (s : State) : Out :=
  let r := singleRec .scatter .none (s.g b) (s.g a) (s.g (gAfter b 1)) (s.g (gAfter b 2))
  s.word ((s.illegalIf (decide (61 < b.val))).andThen (s.singleCheck c r r.misaligned)) fun s =>
    s.single c .scatter .none (s.g b) (s.g a) (s.g (gAfter b 1)) (s.g (gAfter b 2))
/-- CHAIN. -/
def execChain (a : GReg) (c : ChanId) (s : State) : Out :=
  s.word (((s.illegalIf s.rewriting.isSome).andThen
      (if (s.g a).toNat % 64 ≠ 0 then .trap .misalign (s.g a) else .pass)).andThen (s.chanRoom c)) fun s =>
    s.command c (.chain (s.g a)) .fetch []

/-! ### What an engine reaches -/

/-- What stops an engine's access: a fault with its TRAPVAL, or a walk under way. -/
inductive EngStop
  | fault (c : Cause) (v : W)
  | wait
  deriving DecidableEq, Repr

/-- The translation of an address by a channel (R189, R400, R407): a walk that succeeds fills the channel's group at once;
one that does not is queued. -/
def State.engineXlate (s : State) (t : TileId) (c : ChanId) (m : Cmd) (acc : Access) (va : W) :
    State × Except EngStop Place :=
  let failed := match m.xfault with
    | some (a, x) => if a.toNat / 4096 = va.toNat / 4096 then some x else none
    | none => none
  match failed with
  | some x => (s, .error (.fault x va))
  | none => match s.xlate s.tiles[t].tlbCopy[c] t m.seq acc va with
    | .at_ pl _ => (s, .ok pl)
    | .fault x => (s, .error (.fault x va))
    | .miss => match s.walk m.seq t va with
      | .done e =>
        let s1 := s.install t 2 c e
        match s1.checkEntry t m.seq acc e va with
        | .at_ pl _ => (s1, .ok pl)
        | .fault x => (s1, .error (.fault x va))
        | .miss => (s1, .error .wait)
      | .touch .. | .fault _ | .missing .. | .poisoned =>
        (s.queueWalk t m.seq acc va 2 c (.chan t c m.uid), .error .wait)

/-- Pieces of at most 64 bytes, each within one line. -/
def pieces (va : W) : Nat → Nat → List (W × Nat)
  | _, 0 => []
  | n, k + 1 =>
    if n = 0 then []
    else
      let m := if n ≤ 64 - va.toNat % 64 then n else 64 - va.toNat % 64
      (va, m) :: pieces (va + BitVec.ofNat 64 m) (n - m) k

/-- The pieces of n bytes at an address. -/
def piecesOf (va : W) (n : Nat) : List (W × Nat) := pieces va n (n / 64 + 2)

/-- Pieces translated in order; the first that is not stops them. -/
def State.engineXlates (s : State) (t : TileId) (c : ChanId) (m : Cmd) (acc : Access) :
    List (W × Nat) → State × Except EngStop (List (Place × Nat × W))
  | [] => (s, .ok [])
  | (va, n) :: l => match s.engineXlate t c m acc va with
    | (s1, .error e) => (s1, .error e)
    | (s1, .ok pl) => match s1.engineXlates t c m acc l with
      | (s2, .error e) => (s2, .error e)
      | (s2, .ok r) => (s2, .ok ((pl, n, va) :: r))

/-- The rules of one piece of an engine access where it stands (R198, R227, R278, R320, R323, R324): the pane's tag, the key slot of
the place's die, a fenced die, a tile that stands still; then, for what a record moves, the pane engine-owned, not STAGED, not
RING. Log 46: DEDUCED. -/
def State.pieceStop (s : State) (q : SeqId) (moved : Bool) (pl : Place) (n : Nat) (va : W) : Option EngStop :=
  match pl with
  | .hbm _ home => if s.keyLive q (dieOf home) then none else some (.fault .keyVoid va)
  | .win t off =>
    let ps := panesOf off n
    if ps.any fun p => !s.tiles[t].panes[p].allows q then some (.fault .permission va)
    else if !s.keyLive q (dieOf t) then some (.fault .keyVoid va)
    else if s.dies[dieOf t].fenced then some (.fault .poison va)
    else if s.still t then some .wait
    else (ps.find? fun p => moved && (!s.tiles[t].panes[p].engine || s.tiles[t].panes[p].staged != 0 ||
        s.tiles[t].panes[p].ring)).map fun p => .fault .paneViolation (BitVec.ofNat 64 p.val)

/-- The first piece that may not be reached. -/
def State.piecesStop (s : State) (q : SeqId) (moved : Bool) (l : List (Place × Nat × W)) : Option EngStop :=
  l.findSome? fun (pl, n, va) => s.pieceStop q moved pl n va

/-- Pieces that may be reached wait for their lines at the home banks (R276). -/
def State.engineReach (s : State) (q : SeqId) (moved : Bool) (l : List (Place × Nat × W)) : State × Option EngStop :=
  let spans := l.map fun (pl, n, _) => (pl, n)
  match s.piecesStop q moved l with
  | some x => (s, some x)
  | none => if (s.absent spans).isEmpty then (s.useLines spans, none) else (s.askLines q spans, some .wait)

/-- The first poisoned piece of a source (R199). -/
def State.enginePoison (s : State) (l : List (Place × Nat × W)) : Option EngStop :=
  (l.find? fun x => s.placeBad x.1 x.2.1).map fun x => .fault .poison x.2.2

/-- The bytes of pieces. -/
def State.engineRead (s : State) (q : SeqId) (l : List (Place × Nat × W)) : List Byte :=
  l.flatMap fun x => s.readPlace (.seq q) x.1 x.2.1

/-- Pieces read: what a read corrects is corrected (R303). -/
def State.corrected (s : State) (l : List (Place × Nat × W)) : State := l.foldl (fun a x => a.correct x.1 x.2.1) s

/-- Bytes written over pieces in order. -/
def State.engineWrite (s : State) (q : SeqId) : List (Place × Nat × W) → List Byte → State
  | [], _ => s
  | x :: l, bs => (s.writePlace (.seq q) x.1 (bs.take x.2.1)).engineWrite q l (bs.drop x.2.1)

/-- Panes of the channel's own tile are BUSY until the record ends (R198, R325). -/
def State.keepBusy (s : State) (t : TileId) (c : ChanId) (m : Cmd) (l : List (Fin 128)) : State :=
  let new := (List.finRange 128).filter fun p => l.contains p && !m.busy.contains p
  (new.foldl (fun a p => a.modPane t p fun x => { x with busy := x.busy + 1 }) s).modCmd t c m.uid fun x =>
    { x with busy := x.busy ++ new }

/-- The panes of the channel's own tile that a row reaches are kept BUSY. -/
def State.engineBusy (s : State) (t : TileId) (c : ChanId) (m : Cmd) (l : List (Place × Nat × W)) : State :=
  s.keepBusy t c m (l.flatMap fun (pl, n, _) => match pl with
    | .win u off => if u = t then panesOf off n else []
    | .hbm .. => [])

/-- The panes that a command keeps BUSY are released. -/
def State.engineFree (s : State) (t : TileId) (c : ChanId) (m : Cmd) : State :=
  (m.busy.foldl (fun a p => a.modPane t p Pane.release) s).modCmd t c m.uid fun x => { x with busy := [] }

/-! ### How commands end -/

/-- The cause that a STATUS names (R98, R195). -/
def causeOf (st : BitVec 8) : Option Cause :=
  [Cause.illegalOp, .priv, .misalign, .xlateS1, .xlateS2, .xlateDenied, .permission, .poison, .checkStall, .paneViolation,
   .commitOverflow, .runaway, .keyVoid, .circuit, .fp, .trapWord, .breakpoint].find? fun c => c.code == st

/-- A command has completed, faulted or been cancelled (R191, R199, R201): its panes return, its batch member ends, the channel
goes on to its next command. -/
def State.endCmd (s : State) (t : TileId) (c : ChanId) (m : Cmd) (fault : Option (Cause × W)) : State :=
  let m1 := (s.tiles[t].chans[c].queue.find? fun x => x.uid == m.uid).getD m
  let s1 := s.engineFree t c m1
  let s2 := s1.modChan t c fun x =>
    let q := x.queue.filter fun y => y.uid != m.uid
    { x with queue := q, state := if q.isEmpty then .idle else .run,
             lastCause := match fault with
               | some (f, _) => (m.seq, f.code) :: x.lastCause.filter fun y => y.1 != m.seq
               | none => x.lastCause }
  s2.memberEnd t m.owner m.batch (fault.map fun f => (m.uid, f.1, f.2))

/-- The record of a command. -/
def Cmd.rec_ (m : Cmd) : Rec :=
  match m.kind with
  | .single op xp src dst shape index => singleRec op xp src dst shape index
  | .chain _ => recOf m.held

/-- The address of a chain's record. -/
def Cmd.recAddr (m : Cmd) : Option W :=
  match m.kind with
  | .chain a => some a
  | .single .. => none

/-- The control word written back (R195, R197): where 4,096 rows have been performed, FAULTROW names the last of them. Log 46:
DEDUCED. -/
def Cmd.control (m : Cmd) (status : BitVec 8) (fstep row : Nat) : W :=
  let r := m.rec_
  BitVec.ofNat 64 (r.op * 2 ^ 60 + r.xp * 2 ^ 58 + boolNat r.arrive * 2 ^ 57 + status.toNat * 2 ^ 48 + fstep * 2 ^ 40 +
    m.batch.toNat % 2 ^ 16 * 2 ^ 16 + (if row < 4096 then row else 4095))

/-- A record or single copy ends with a STATUS (R199): its panes are released; a chain writes the control word back, a single
copy is complete. -/
def State.endRecord (s : State) (t : TileId) (c : ChanId) (m : Cmd) (status : BitVec 8) (val : W) (fstep row : Nat) : State :=
  match m.recAddr with
  | none => s.endCmd t c m ((causeOf status).map fun x => (x, val))
  | some _ =>
    let m1 := (s.tiles[t].chans[c].queue.find? fun x => x.uid == m.uid).getD m
    (s.engineFree t c m1).modCmd t c m.uid fun x =>
      { x with step := .back status val (m.control status fstep row), xfault := none, parked := false }

/-- The destination of a faulted row is unpredictable (R8, R199). Log 47: DEDUCED. -/
def State.spoilRow (s : State) (t : TileId) (c : ChanId) (m : Cmd) (dst : List (W × Nat)) : State :=
  match s.engineXlates t c m .write dst with
  | (_, .error _) => s
  | (s1, .ok l) =>
    if (s1.piecesStop m.seq true l).isSome then s
    else (s1.engineWrite m.seq l ((List.range ((l.map fun x => x.2.1).foldl (· + ·) 0)).map (Config.freeByte s.free))).useFree

/-! ### One step of a channel -/

/-- A record that the engine owns starts (R198, R201): its panes of the own tile are BUSY from now on. -/
def State.startRecord (s : State) (t : TileId) (c : ChanId) (m : Cmd) (a : W) (ws : List W) : State :=
  let r := recOf ws
  let panes := if r.bad then [] else
    (s.fixedPanes m.seq t r).filter fun p => s.tiles[t].panes[p].allows m.seq && s.tiles[t].panes[p].engine
  ((s.keepBusy t c m panes).modCmd t c m.uid fun x => { x with held := ws, step := .rows, row := 0 }).modChan t c fun x =>
    { x with state := .run, lastRec := (m.seq, a) :: x.lastRec.filter fun y => y.1 != m.seq }

/-- The record read (R197, R199): OWN = 0 is waited for; what cannot be read ends the command. Log 46: DEDUCED. -/
def State.fetchRecord (s : State) (t : TileId) (c : ChanId) (m : Cmd) (a : W) : State :=
  if a.toNat % 64 ≠ 0 then s.endCmd t c m (some (.misalign, a))
  else match s.engineXlates t c m .read [(a, 64)] with
    | (s1, .error .wait) => s1
    | (s1, .error (.fault x _)) => s1.endCmd t c m (some (x, a))
    | (s1, .ok l) => match s1.engineReach m.seq false l with
      | (s2, some .wait) => s2
      | (s2, some (.fault x _)) => s2.endCmd t c m (some (x, a))
      | (s2, none) =>
        if (s2.enginePoison l).isSome then s2.endCmd t c m (some (.poison, a))
        else
          let bs := s2.engineRead m.seq l
          let ws := (List.range 8).map fun i => BitVec.ofNat 64 (leNat ((bs.drop (8 * i)).take 8))
          if (recOf ws).own then (s2.corrected l).startRecord t c m a ws
          else (s2.corrected l).modChan t c fun x => { x with state := .waitOwn }

/-- The barrier of a record (R199): its RAW offset in the own tile store. Log 48: DEDUCED. -/
def State.recBarrier (s : State) (t : TileId) (c : ChanId) (m : Cmd) (r : Rec) : State × Except EngStop Nat :=
  match s.engineXlate t c m .write r.barrier with
  | (s1, .error e) => (s1, .error e)
  | (s1, .ok (.win u off)) =>
    if u = t ∧ off < 0x80000 ∧ s1.tiles[t].panes[paneNo off].allows m.seq then (s1, .ok off)
    else (s1, .error (.fault .permission r.barrier))
  | (s1, .ok (.hbm ..)) => (s1, .error (.fault .permission r.barrier))

/-- The rows of a record are done: its arrival (R146, R196), and its end. -/
def State.endRows (s : State) (t : TileId) (c : ChanId) (m : Cmd) (r : Rec) : State :=
  if !r.arrive then s.endRecord t c m 0 0 0 0
  else match s.recBarrier t c m r with
    | (s1, .error .wait) => s1
    | (s1, .error (.fault x v)) => s1.endRecord t c m x.code v 3 (r.rows - 1)
    | (s1, .ok off) => match barArrive (s1.barrier m.seq t off) with
      | none => s1.endRecord t c m Cause.permission.code r.barrier 3 (r.rows - 1)
      | some b => (s1.setBarrier m.seq t off b).endRecord t c m 0 0 0 0

/-- The writes of a row (R196): whole, or transposed in units. -/
def Rec.writes (r : Rec) (dst : W) (e : Nat) : List (W × Nat) :=
  if r.xp = 0 then piecesOf dst r.rowb
  else (List.range (r.rowb / r.unit)).map fun i => (strided r.dst i r.dstride + BitVec.ofNat 64 (e * r.unit), r.unit)

/-- The row's bytes counted on the barrier (R146, R196). -/
def State.landRow (s : State) (t : TileId) (c : ChanId) (m : Cmd) (r : Rec) (e : Nat) (off : Option Nat) : State :=
  let next := s.modCmd t c m.uid fun x => { x with row := e + 1 }
  match off with
  | none => next
  | some o => match barLand (s.barrier m.seq t o) r.rowb with
    | none => s.endRecord t c m Cause.permission.code r.barrier 3 e
    | some b => next.setBarrier m.seq t o b

/-- Pieces translated, checked where they stand, and for a source found free of poison: they can be moved now. -/
def State.engineOpen (s : State) (t : TileId) (c : ChanId) (m : Cmd) (acc : Access) (l : List (W × Nat)) :
    State × Except EngStop (List (Place × Nat × W)) :=
  match s.engineXlates t c m acc l with
  | (s1, .error x) => (s1, .error x)
  | (s1, .ok ps) => match s1.engineReach m.seq true ps with
    | (s2, some x) => (s2, .error x)
    | (s2, none) => match if acc = .read then s2.enginePoison ps else none with
      | some x => (s2, .error x)
      | none => (s2, .ok ps)

/-- A row whose source and destination are known (R196): its source is the first fault point, its destination the second; it is read
whole, then written, then counted on the barrier. A barrier that can no longer be reached refuses the row that has been written
(R199). -/
def State.moveRow (s : State) (t : TileId) (c : ChanId) (m : Cmd) (r : Rec) (e : Nat) (src dst : W) : State :=
  let writes := r.writes dst e
  let stop (a : State) (x : EngStop) : State := match x with
    | .wait => a
    | .fault f v => (a.spoilRow t c m writes).endRecord t c m f.code v 2 e
  match s.engineOpen t c m .read (piecesOf src r.rowb) with
  | (s1, .error x) => stop s1 x
  | (s1, .ok from_) => match s1.engineOpen t c m .write writes with
    | (s2, .error x) => stop s2 x
    | (s2, .ok to_) =>
      let move (a : State) : State :=
        ((a.corrected from_).engineBusy t c m (from_ ++ to_)).engineWrite m.seq to_ (a.engineRead m.seq from_)
      if !r.arrive then (move s2).landRow t c m r e none
      else match s2.recBarrier t c m r with
        | (s3, .error .wait) => s3
        | (s3, .error (.fault f v)) => (move s3).endRecord t c m f.code v 3 e
        | (s3, .ok o) => (move s3).landRow t c m r e (some o)

/-- One row of a record (R196): the index entry, then the row. Log 45: DESIGN CHOICE. -/
def State.engineRow (s : State) (t : TileId) (c : ChanId) (m : Cmd) (r : Rec) : State :=
  let e := m.row
  if r.op = 0 then s.moveRow t c m r e (strided r.src e r.sstride) (strided r.dst e r.dstride)
  else
    let ia := r.index + BitVec.ofNat 64 (4 * e)
    match s.engineOpen t c m .read [(ia, 4)] with
    | (s1, .error .wait) => s1
    | (s1, .error (.fault f v)) => s1.endRecord t c m f.code v 1 e
    | (s1, .ok l) =>
      let x := leNat (s1.engineRead m.seq l)
      let s2 := s1.corrected l
      if r.op = 1 then s2.moveRow t c m r e (strided r.src x r.sstride) (strided r.dst e r.dstride)
      else s2.moveRow t c m r e (strided r.src e r.sstride) (strided r.dst x r.dstride)

/-- The fields of a record checked before its first row (R199). Log 48: DEDUCED. -/
def State.startRows (s : State) (t : TileId) (c : ChanId) (m : Cmd) (r : Rec) : State :=
  if r.bad then
    match m.recAddr with
    | some a => s.endRecord t c m Cause.illegalOp.code a 0 0
    | none => (s.endRecord t c m Cause.illegalOp.code (Config.freeWord s.free) 0 0).useFree
  else match r.misaligned with
    | some a => s.endRecord t c m Cause.misalign.code a 0 0
    | none =>
      if !r.arrive then s.engineRow t c m r
      else match s.recBarrier t c m r with
        | (s1, .error .wait) => s1
        | (s1, .error (.fault f v)) => s1.endRecord t c m f.code v 0 0
        | (s1, .ok _) => s1.engineRow t c m r

/-- The control word written back, and the chain followed (R197, R199). -/
def State.writeBack (s : State) (t : TileId) (c : ChanId) (m : Cmd) (status : BitVec 8) (val : W) (word : W) : State :=
  match m.recAddr with
  | none => s.endCmd t c m none
  | some a => match s.engineXlates t c m .write [(a + 8, 8)] with
    | (s1, .error .wait) => s1
    | (s1, .error (.fault f _)) => s1.endCmd t c m (some (f, a))
    | (s1, .ok l) => match s1.engineReach m.seq false l with
      | (s2, some .wait) => s2
      | (s2, some (.fault f _)) => s2.endCmd t c m (some (f, a))
      | (s2, none) =>
        let s3 := s2.engineWrite m.seq l (leBytes 8 word.toNat)
        let next := m.rec_.next
        if status = 0 ∧ next ≠ 0 ∧ !m.cancel then
          s3.modCmd t c m.uid fun x => { x with kind := .chain next, step := .fetch, row := 0, held := [], xfault := none }
        else s3.endCmd t c m ((causeOf status).map fun x => (x, val))

/-- The operations that a command waits for have been performed (R190). -/
def State.cmdReady (s : State) (t : TileId) (m : Cmd) : Bool :=
  match s.workCtx t m.owner with
  | none => true
  | some c => !c.pends.any fun p => m.after.contains p.uid

/-- A channel's running command goes on by one step. Log 45: DESIGN CHOICE. -/
def State.engineStep (s : State) (t : TileId) (c : ChanId) (m : Cmd) : State :=
  match m.step with
  | .fetch => match m.recAddr with
    | some a => if m.cancel then s.endCmd t c m none else s.fetchRecord t c m a
    | none => s.endCmd t c m none
  | .rows =>
    let r := m.rec_
    if m.cancel then s.endRecord t c m 0xFF 0 0 m.row
    else if m.row = 0 then s.startRows t c m r
    else if m.row < r.rows then s.engineRow t c m r
    else s.endRows t c m r
  | .back st v w => s.writeBack t c m st v w

/-- TRANSFER_RECORD: the channel's running command performs its next step: it reads a record, moves a row, or writes the
control word back (R196, R197). A channel that waits for OWN or for a page does nothing. -/
def execTransferRecord (t : TileId) (c : ChanId) (s : State) : Out :=
  match s.tiles[t].chans[c].queue with
  | [] => .next s
  | m :: _ =>
    if s.still t || m.parked || s.tiles[t].chans[c].state == .waitOwn || !s.cmdReady t m then .next s
    else .next (s.engineStep t c m)

/-- CHAIN_OWN_POLL: a channel in WAITOWN reads the control word again (R197). -/
def execChainOwnPoll (t : TileId) (c : ChanId) (s : State) : Out :=
  match s.tiles[t].chans[c].queue with
  | [] => .next s
  | m :: _ =>
    if !s.still t && s.tiles[t].chans[c].state == .waitOwn then .next (s.engineStep t c m) else .next s

/-! ### Status and cancellation (R201, R202) -/

/-- A parked command runs a record: it moves its rows, or writes its control word back. -/
def Cmd.runsRecord (m : Cmd) : Bool :=
  match m.kind, m.step with
  | .chain _, .rows | .chain _, .back .. => true
  | .chain _, .fetch | .single .., _ => false

/-- The running command of a channel cancelled (R202). -/
def State.cancelHead (s : State) (t : TileId) (c : ChanId) (m : Cmd) : State :=
  match s.tiles[t].chans[c].state with
  | .waitOwn => s.endCmd t c m none
  | .waitPage =>
    let s1 := s.withdraw (s.vfOf m.seq) (.chan t c m.uid)
    if m.runsRecord then
      ((s1.endRecord t c m 0xFF 0 0 m.row).modCmd t c m.uid fun x => { x with cancel := true }).modChan t c fun x =>
        { x with state := .cancel }
    else s1.endCmd t c m none
  | .idle | .run | .cancel =>
    (s.modCmd t c m.uid fun x => { x with cancel := true }).modChan t c fun x => { x with state := .cancel }

/-- Every command of a sequence on a channel cancelled (R202). -/
def State.cancelChan (s : State) (t : TileId) (c : ChanId) (q : SeqId) : State :=
  match s.tiles[t].chans[c].queue with
  | [] => s
  | m :: rest =>
    let s1 := (rest.filter fun x => x.seq == q).foldl (fun a x =>
      let st := a.tiles[t].chans[c].state
      (a.endCmd t c x none).modChan t c fun y => { y with state := st }) s
    if m.seq = q then s1.cancelHead t c m else s1

/-- A channel's cancelled command of a sequence taken to its end (R202, R330): a row in progress is complete, and the control word is
written back where it can be. -/
def State.endCancelled (s : State) (t : TileId) (c : ChanId) (q : SeqId) : Nat → State
  | 0 => match s.tiles[t].chans[c].queue with
    | [] => s
    | m :: _ => if m.seq = q then s.endCmd t c m none else s
  | n + 1 => match s.tiles[t].chans[c].queue with
    | [] => s
    | m :: _ => if m.seq = q then (s.engineStep t c m).endCancelled t c q n else s

/-- CCANCEL. -/
def execCcancel (c : ChanId) (s : State) : Out :=
  s.word (s.illegalIf s.rewriting.isSome) fun s => s.cancelChan s.cur c s.q

/-- STATE of a channel (R201). -/
def ChanState.code : ChanState → Nat
  | .idle => 0
  | .run => 1
  | .waitOwn => 2
  | .waitPage => 3
  | .cancel => 4

/-- The status word of a channel as a sequence sees it (R201). Log 32: DESIGN CHOICE. -/
def Chan.status (x : Chan) (q : SeqId) : W :=
  let st := match x.queue with
    | [] => 0
    | m :: _ => if m.seq = q then x.state.code else 0
  let cause := ((x.lastCause.find? fun y => y.1 == q).map (·.2)).getD 0
  BitVec.ofNat 64 (cause.toNat * 2 ^ 16 + (x.queue.filter fun m => m.seq == q).length * 2 ^ 11 + st)

/-- CSTAT: the read clears CAUSE. -/
def execCstat (d : GReg) (sel : Bool) (c : ChanId) (s : State) : Out :=
  s.word (s.illegalIf s.rewriting.isSome) fun s =>
    let x := s.tile.chans[c]
    if sel then s.scalar d (((x.lastRec.find? fun y => y.1 == s.q).map (·.2)).getD 0) 1
    else (s.scalar d (x.status s.q) 1).modChan s.cur c fun y =>
      { y with lastCause := y.lastCause.filter fun z => z.1 != s.q }

end Sys2Proof.Machine
end

