-- ==== Sys2Proof/Machine/Circuits.lean ====
section
/-! DEFINITION. Circuit words, the Meridian and the slot tables (spec/09 R203–R207, spec/11 R232–R238, spec/12 R239–R255,
spec/15 R293; major 0x1C, words 0 to 4). -/

namespace Sys2Proof.Machine

/-! ### Paths (R243, R244, R249) -/

/-- A slot-table entry that a path uses: its tile, output, input and d (R232). -/
structure Link where
  tile : TileId
  out : Fin 8
  inp : Fin 8
  d : Nat
  deriving DecidableEq, Repr

/-- The links of a path, and where it ends: the router, the input code there and D. -/
def linksFrom (t : TileId) (inp : Fin 8) (d : Nat) : List Step → Option (List Link × TileId × Fin 8 × Nat)
  | [] => some ([], t, inp, d)
  | m :: l => match move t m with
    | none => none
    | some h => (linksFrom h.goal h.inp (d + h.delay) l).map fun r =>
        ({ tile := t, out := h.out, inp := inp, d := d } :: r.1, r.2)

/-- The path of a circuit from its source, whose Local input is code 5. -/
def pathLinks (src : TileId) (p : List Step) : Option (List Link × TileId × Fin 8 × Nat) := linksFrom src 5 0 p

/-- No link is used twice (R249). -/
def noRepeat : List Link → Bool
  | [] => true
  | l :: r => (r.all fun m => m.tile != l.tile || m.out != l.out) && noRepeat r

/-- A requested path is valid (R249). -/
def validPath (src dst : TileId) (p : List Step) : Bool :=
  match pathLinks src p with
  | none => false
  | some (l, e, _) => decide (p.length ≤ 16) && noRepeat l && e == dst

/-- The code of a move (R235). -/
def Step.code : Step → Nat
  | .n => 1
  | .e => 2
  | .s => 3
  | .w => 4
  | .x => 5

/-- The moves that a PATH field holds from bit 0 up; none where it holds a reserved value (R235). -/
def movesOf (x : Nat) : Nat → Option (List Step)
  | 0 => if x = 0 then some [] else none
  | n + 1 =>
    if x = 0 then some []
    else
      let m : Option Step := match x % 16 with
        | 1 => some .n
        | 2 => some .e
        | 3 => some .s
        | 4 => some .w
        | 5 => some .x
        | _ => none
      match m with
      | none => none
      | some v => (movesOf (x / 16) n).map fun l => v :: l

/-- The PATH field of moves. -/
def pathCode : List Step → Nat
  | [] => 0
  | m :: l => m.code + 16 * pathCode l

/-- A straight run of n moves, across an edge by X (R249). -/
def straight (m : Step) (next : TileId → TileId) : TileId → Nat → Option (List Step × TileId)
  | t, 0 => some ([], t)
  | t, n + 1 =>
    let u := next t
    let is (k : Step) : Bool := (move t k).map (·.goal) == some u
    if is m then (straight m next u n).map fun r => (m :: r.1, r.2)
    else if is .x then (straight m next u n).map fun r => (Step.x :: r.1, r.2)
    else none

/-- The moves that change x until it is the goal's. -/
def xRun (t goal : TileId) : Option (List Step × TileId) :=
  let a := t.val % 32
  let b := goal.val % 32
  if a ≤ b then straight .e (fun u => ⟨(u.val + 1) % 1024, by omega⟩) t (b - a)
  else straight .w (fun u => ⟨u.val - 1, by omega⟩) t (a - b)

/-- The moves that change y until it is the goal's. -/
def yRun (t goal : TileId) : Option (List Step × TileId) :=
  let a := t.val / 32
  let b := goal.val / 32
  if a ≤ b then straight .s (fun u => ⟨(u.val + 32) % 1024, by omega⟩) t (b - a)
  else straight .n (fun u => ⟨u.val - 32, by omega⟩) t (a - b)

/-- XY (R249). -/
def pathXY (src dst : TileId) : Option (List Step) :=
  (xRun src dst).bind fun r => (yRun r.2 dst).map fun q => r.1 ++ q.1

/-- YX (R249). -/
def pathYX (src dst : TileId) : Option (List Step) :=
  (yRun src dst).bind fun r => (xRun r.2 dst).map fun q => r.1 ++ q.1

/-- The minimal number of links between two tiles. -/
def tileDist (a b : TileId) : Nat :=
  let gap (m n : Nat) : Nat := if m ≤ n then n - m else m - n
  gap (a.val % 32) (b.val % 32) + gap (a.val / 32) (b.val / 32)

/-! ### Slots (R233, R250) -/

/-- Slots that a circuit holds at a SIDCOUNT (R253): a set that has been replaced counts until the last word that left in it
has passed. -/
def Circuit.held (c : Circuit) (sid : Nat) : List Nat :=
  let rec go : List (Nat × List Nat) → List Nat
    | [] => []
    | [x] => x.2
    | x :: y :: l => (if y.1 + c.delay ≤ sid then [] else x.2) ++ go (y :: l)
  go c.sets

/-- The slot set in which words leave at a SIDCOUNT (R253). -/
def Circuit.slotsAt (c : Circuit) (sid : Nat) : List Nat :=
  ((c.sets.filter fun x => x.1 ≤ sid).getLast?).elim [] (·.2)

/-- The slot set that a circuit will have. -/
def Circuit.lastSet (c : Circuit) : List Nat := (c.sets.getLast?).elim [] (·.2)

/-- The links of a route along a path, the output of its last router included, each with its d, and where it ends. What comes in
from a memory or peer port crosses that port's link first (R24, R233, R244). -/
def Route.links (r : Route) (p : List Step) : Option (List Link × TileId × Nat) :=
  (linksFrom r.src r.inp r.lead p).map fun (l, e, i, d) =>
    ((if r.inp = 7 then [{ tile := r.src, out := 0, inp := 7, d := 0 }] else []) ++ l ++ [{ tile := e, out := r.out, inp := i, d := d }], e, d)

/-- The route of a tenant's circuit between two tiles of the package (R248). -/
def tileRoute (src : TileId) : Route := { src := src, inp := 5, lead := 0, out := 5 }

/-- The route of a circuit: one across a peer link leaves or enters by its port's router (R248). -/
def Circuit.route (c : Circuit) : Route :=
  match c.peer with
  | none => tileRoute c.src
  | some (_, true) => { src := c.src, inp := 5, lead := 0, out := 7 }
  | some (p, false) => { src := peerRouter p, inp := 7, lead := c.lead, out := 5 }

/-- Every entry that a circuit's slots take: links of its path and the last router's output. -/
def Circuit.uses (c : Circuit) : List Link := (c.route.links c.path).elim [] (·.1)

/-- Every entry that a standing circuit's slots take. -/
def Standing.uses (y : Standing) : List Link := (y.route.links y.path).elim [] (·.1)

/-- The circuits that hold slots: those open, and those whose slots wait for the end of a drain (R267). -/
def State.holders (s : State) : List Circuit := s.circuits ++ s.domain.frozen.map (·.2)

/-- An entry of a router's output, or of a port's link into it, is held in a slot by links of a slot set. -/
def holdsEntry (w : Nat) (us : List Link) (slots : List Nat) (t : TileId) (out : Fin 8) (slot : Nat) : Bool :=
  us.any fun l => l.tile == t && l.out == out && slots.any fun x => (x + l.d) % w == slot

/-- A circuit other than h holds an entry (R233); memory and event circuits hold theirs beside the tenants' (R272, R422). -/
def State.entryHeld (s : State) (h : BitVec 32) (t : TileId) (out : Fin 8) (slot : Nat) : Bool :=
  (s.holders.any fun c => c.handle != h && holdsEntry s.domain.wheel c.uses (c.held s.domain.sid) t out slot) ||
  s.standing.any fun y => holdsEntry s.domain.wheel y.uses y.slots t out slot

/-- A circuit other than h that leaves a tile holds slot s (R233). -/
def State.sourceHeld (s : State) (h : BitVec 32) (t : TileId) (x : Nat) : Bool :=
  (s.holders.any fun c => c.handle != h && c.src == t && (c.peer.elim true (·.2)) && (c.held s.domain.sid).contains x) ||
  s.standing.any fun y => y.route.inp == 5 && y.route.src == t && y.slots.contains x

/-- Slot x may be granted on a route's path (R233): a router's Local output is no link. -/
def State.slotFree (s : State) (h : BitVec 32) (r : Route) (p : List Step) (x : Nat) : Bool :=
  match r.links p with
  | none => false
  | some (l, _, _) =>
    let w := s.domain.wheel
    decide (1 ≤ x) && decide (x < w) &&
    (l.all fun k => (k.out == 5 || (x + k.d) % w != 0) && !s.entryHeld h k.tile k.out ((x + k.d) % w)) &&
    !(r.inp == 5 && s.sourceHeld h r.src x)

/-- Slots that a partition's tenant circuits other than h hold on a link (R250). -/
def State.linkCount (s : State) (h : BitVec 32) (p : PartId) (k : Link) : Nat :=
  (s.holders.filter fun c => c.handle != h && partOf c.seq == p &&
      c.uses.any fun l => l.tile == k.tile && l.out == k.out).foldl
    (fun a c => a + (c.held s.domain.sid).eraseDups.length) 0

/-- A partition's budget holds n more slots on every link of a path (R250). -/
def State.budgetFor (s : State) (h : BitVec 32) (p : PartId) (r : Route) (path : List Step) (n : Nat) : Bool :=
  match r.links path, s.parts[p] with
  | some (l, _), some x => l.all fun k => k.out == 5 || s.linkCount h p k + n ≤ x.linkbud
  | _, _ => false

/-- The dies that a path enters are in service and its edges are trained (R252). -/
def State.reachable (s : State) (r : Route) (p : List Step) : Bool :=
  match r.links p with
  | none => false
  | some (l, _, _) =>
    (l.all fun k => !s.dies[dieOf k.tile].fenced) &&
    l.all fun k => k.out != 6 || ((nextEdge k.tile).orElse fun _ => prevEdge k.tile).any fun u => s.edgeBetween (dieOf k.tile) (dieOf u)

/-- A die on a path has a transplant under way: its Meridian holds what reaches it until the end (R255). -/
def State.pathHeld (s : State) (r : Route) (p : List Step) : Bool :=
  (r.links p).any fun l => l.1.any fun k => s.dies[dieOf k.tile].transplant.isSome

/-- What a candidate gives (R250, R252). -/
inductive Pick
  | granted (path : List Step) (slots : List Nat)
  | budget
  | noslot
  | unreachable
  deriving DecidableEq, Repr

/-- The first grant, otherwise the failure that R252 names for all candidates together. -/
def Pick.or (a b : Pick) : Pick :=
  match a, b with
  | .granted p l, _ => .granted p l
  | _, .granted p l => .granted p l
  | .budget, _ | _, .budget => .budget
  | .noslot, _ | _, .noslot => .noslot
  | .unreachable, .unreachable => .unreachable

/-- The slots of a mask. -/
def maskSlots (m : Nat) : List Nat := (List.range 64).filter fun i => m / 2 ^ i % 2 == 1

/-- The mask of slots. -/
def slotMask (l : List Nat) : Nat := ((List.range 64).filter l.contains).foldl (fun a i => a + 2 ^ i) 0

/-- A candidate path tried (R250): n slots more, first-fit or those of a mask; `old` are slots already held. A tenant's circuit
counts against its partition's budget. -/
def State.tryPath (s : State) (h : BitVec 32) (budget : Option PartId) (r : Route) (n mask : Nat) (old : List Nat) (p : List Step) :
    Pick :=
  if !s.reachable r p then .unreachable
  else
    let free := (List.range s.domain.wheel).filter fun x => s.slotFree h r p x && !old.contains x
    let want := if mask = 0 then free.take n else maskSlots mask
    if want.length < n || !want.all free.contains then .noslot
    else match budget with
      | none => .granted p want
      | some q => if s.budgetFor h q r p (old.length + n) then .granted p want else .budget

/-- The candidates of n more moves, in ascending order of their codes (R249). -/
def searchPaths (f : List Step → Pick) (dst : TileId) : Nat → TileId → List (TileId × Fin 8) → List Step → Pick
  | 0, t, _, acc => if t = dst then f acc.reverse else .unreachable
  | n + 1, t, used, acc =>
    [Step.n, .e, .s, .w, .x].foldl (fun a m => match a with
      | .granted p l => .granted p l
      | .budget | .noslot | .unreachable => match move t m with
        | none => a
        | some h =>
          if used.contains (t, h.out) || n < tileDist h.goal dst then a
          else a.or (searchPaths f dst n h.goal ((t, h.out) :: used) (m :: acc))) .unreachable

/-- The candidates in the order of R249 when no path is requested. -/
def candidates (f : List Step → Pick) (src dst : TileId) : Pick :=
  let m := tileDist src dst
  let one (p : Option (List Step)) : Pick := match p with
    | some l => if l.length ≤ 16 then f l else .unreachable
    | none => .unreachable
  let lens := (List.range 8).map fun i => m + 2 * (i + 1)
  (lens.filter (· ≤ 16)).foldl (fun a n => match a with
      | .granted p l => .granted p l
      | .budget | .noslot | .unreachable => a.or (searchPaths f dst n src [] []))
    (match one (pathXY src dst) with
     | .granted p l => .granted p l
     | a => a.or (one (pathYX src dst)))

/-! ### Records (R235, R236) -/

/-- A request record. -/
structure CircRec where
  slots : Nat
  dst : TileId
  src : TileId
  mask : Nat
  base : W
  panes : Nat
  dkind : Nat
  barrier : W
  start : Nat
  path : Nat
  /-- A reserved field is set. -/
  reserved : Bool
  deriving DecidableEq, Repr

/-- The record that eight words hold. -/
def circRec (ws : List W) : CircRec :=
  let w (n : Nat) : Nat := (ws.getD n 0).toNat
  { slots := bitsAt (w 0) 32 8, dst := ⟨bitsAt (w 0) 16 10, by unfold bitsAt; omega⟩,
    src := ⟨bitsAt (w 0) 0 10, by unfold bitsAt; omega⟩, mask := w 1, base := ws.getD 2 0, panes := bitsAt (w 3) 8 8,
    dkind := bitsAt (w 3) 0 2, barrier := ws.getD 4 0, start := w 5, path := w 6,
    reserved := bitsAt (w 0) 40 24 != 0 || bitsAt (w 0) 26 6 != 0 || bitsAt (w 0) 10 6 != 0 || bitsAt (w 3) 16 48 != 0 ||
      bitsAt (w 3) 2 6 != 0 || w 7 != 0 }

/-- Check 1 of R248. -/
def CircRec.malformed (r : CircRec) (w : Nat) : Bool :=
  r.reserved || r.slots == 0 || w ≤ r.slots ||
  (r.mask != 0 && (r.mask % 2 == 1 || 2 ^ w ≤ r.mask || (maskSlots r.mask).length != r.slots)) || 1 < r.dkind ||
  (r.dkind == 0 && (r.panes == 0 || 16 < r.panes)) || (r.dkind == 1 && (r.panes != 0 || r.base != 0)) ||
  (movesOf r.path 16).isNone

/-- The words of a reply (R236). -/
def replyWords (h : BitVec 32) (status : Nat) (mask live hops delay path : Nat) : List W :=
  [BitVec.ofNat 64 (h.toNat * 2 ^ 32 + status), BitVec.ofNat 64 mask, BitVec.ofNat 64 live,
   BitVec.ofNat 64 (hops * 2 ^ 16 + delay), BitVec.ofNat 64 path, 0, 0, 0]

/-- A failure's reply (R252). -/
def failWords (status : Nat) : List W := replyWords 0 status 0 0 0 0 0

/-- A circuit's reply. -/
def Circuit.words (c : Circuit) (slots : List Nat) (live : Nat) : List W :=
  replyWords c.handle 0 (slotMask slots) live c.path.length c.delay (pathCode c.path)

/-! ### Landing points (R248, R252) -/

/-- An address's offset in the store of a tile, as TILEBASE lays the windows out; none outside its RAW alias. -/
def State.storeOff (s : State) (q : SeqId) (t : TileId) (va : W) : Option Nat :=
  let base := (s.tilebase q).toNat + t.val * 2 ^ 22
  if base ≤ va.toNat ∧ va.toNat < base + 2 ^ 19 then some (va.toNat - base) else none

/-- The panes of a ring. -/
def ringPanes (first n : Nat) : List (Fin 128) := (List.range n).map fun i => ⟨(first + i) % 128, by omega⟩

/-- The barrier of a record: none where it names none. -/
def State.recordBarrier (s : State) (q : SeqId) (r : CircRec) : Except Unit (Option Nat) :=
  if r.barrier = 0 then .ok none
  else match s.storeOff q r.dst r.barrier with
    | none => .error ()
    | some o =>
      if o % 8 = 0 && (s.tiles[r.dst].panes[paneNo o]).seq == some q then .ok (some o) else .error ()

/-- The landing point of a record (check 4 of R248): its first pane and its barrier; none where R252 gives LANDING. -/
def State.landing (s : State) (q : SeqId) (r : CircRec) : Option (Fin 128 × Option Nat) :=
  match s.recordBarrier q r with
  | .error _ => none
  | .ok bar =>
    if r.dkind = 1 then (if s.tiles[r.dst].matrix.latchBy.isSome then none else some (0, bar))
    else match s.storeOff q r.dst r.base with
      | none => none
      | some o =>
        let free (p : Fin 128) : Bool :=
          let x := s.tiles[r.dst].panes[p]
          !x.engine && x.busy == 0 && x.staged == 0 && !x.ring && x.seq == some q
        if o % 4096 = 0 && o + 4096 * r.panes ≤ 2 ^ 19 && (ringPanes (o / 4096) r.panes).all free then
          some (paneNo o, bar)
        else none

/-- Circuits in a tile's table (R204, R251). -/
def State.tableCount (s : State) (t : TileId) : Nat := (s.circuits.filter fun c => c.src == t || c.dst == t).length

/-! ### Tables (R241, R245, R246) -/

/-- The SIDCOUNT at which a configuration word that leaves now reaches a router (R245). Log 63: DESIGN CHOICE. -/
def State.reachTime (s : State) (t : TileId) : Nat :=
  (s.domain.sid / s.domain.wheel + 1 + Config.treeDepth t.val) * s.domain.wheel

/-- A configuration word put on the tree. -/
def State.configure (s : State) (t : TileId) (b : ConfigBody) : State :=
  { s.bump with config := s.config ++ [{ uid := s.fresh, target := t, levels := Config.treeDepth t.val,
                                         next := (s.domain.sid / s.domain.wheel + 1) * s.domain.wheel, body := b }] }

/-- The slot-table writes of slots of a route's links from a SIDCOUNT (R246, R253); `on` false removes the entries. A port's link
into its router has no table here. -/
def State.writeLinks (s : State) (us : List Link) (slots : List Nat) (from_ : Nat) (on : Bool) : State :=
  (us.filter fun l => l.out != 0).foldl (fun a l => slots.foldl (fun b x =>
    b.configure l.tile (.table { entry := { tile := l.tile, out := l.out,
                                            slot := ⟨(x + l.d) % s.domain.wheel % 64, by omega⟩,
                                            inp := if on then l.inp else 0 }, at_ := from_ + l.d })) a) s

/-- A partition key (R265). -/
def pkeyOf (pkg : Fin 4096) (p : PartId) : BitVec 16 := BitVec.ofNat 16 (pkg.val * 16 + p.val)

/-- The key entries of a peer port written for the slots in which a circuit's words cross its link (R245, R265). -/
def State.writeKeys (s : State) (c : Circuit) (slots : List Nat) (on : Bool) : State :=
  match c.peer, c.uses.getLast? with
  | some (p, true), some l => slots.foldl (fun a x =>
      a.configure l.tile (.peerKey p ⟨(x + l.d) % s.domain.wheel % 64, by omega⟩ (if on then pkeyOf s.domain.own (partOf c.seq) else 0))) s
  | some (_, true), none | some (_, false), _ | none, _ => s

/-- The table writes of a circuit's slots (R246, R253), with the keys of a peer port (R265). -/
def State.writeTables (s : State) (c : Circuit) (slots : List Nat) (from_ : Nat) (on : Bool) : State :=
  (s.writeLinks c.uses slots from_ on).writeKeys c slots on

/-- The first revolution boundary at which the tables of some links have been written (R237, R436), or START. -/
def State.liveFrom (s : State) (us : List Link) (start : Nat) : Nat :=
  let w := s.domain.wheel
  let written := (us.map fun l => s.reachTime l.tile).foldl Nat.max s.domain.sid
  let asked := (start + w - 1) / w * w
  if start ≠ 0 ∧ written ≤ asked then asked else (written / w + 1) * w

/-- The LIVE of a circuit (R237). -/
def State.liveFor (s : State) (c : Circuit) (start : Nat) : Nat := s.liveFrom c.uses start

/-- An entry of a slot table replaced (R241); code 0 removes it. -/
def putEntry (l : List SlotEntry) (e : SlotEntry) : List SlotEntry :=
  let rest := l.filter fun x => x.tile != e.tile || x.out != e.out || x.slot != e.slot
  if e.inp = 0 then rest else rest ++ [e]

/-- The table writes that are under way or wait for their activation. -/
def State.writesDue (s : State) : List TableWrite :=
  s.pending ++ s.config.filterMap fun w => match w.body with
    | .table x => some x
    | .hop .. | .peerKey .. => none

/-- The slot tables as they stand at a SIDCOUNT. -/
def State.tablesAt (s : State) (sid : Nat) : List SlotEntry :=
  (s.writesDue.filter fun w => w.at_ ≤ sid).foldl (fun a w => putEntry a w.entry) s.tables

/-! ### The Meridian's requests -/

/-- What stops a Meridian's access for a request: a fault, or a page, table or line that it waits for (R276). Log 58: DEDUCED. -/
def State.meridianXlate (s : State) (d : DieId) (m : MeridianItem) (acc : Access) (va : W) :
    State × Except EngStop Place :=
  if 2 ^ 56 ≤ va.toNat then (s, .error (.fault .xlateS1 va))
  else if !(s.absent (s.walkSpans m.seq m.tile va)).isEmpty then (s.askLines m.seq (s.walkSpans m.seq m.tile va), .error .wait)
  else match s.walk m.seq m.tile va with
    | .fault c => (s, .error (.fault c va))
    | .poisoned => (s, .error (.fault .poison va))
    | .touch leaf old => (s.touchLeaf m.seq m.tile leaf old, .error .wait)
    | .missing ipa z table =>
      if m.refused.any fun r => inRange ipa r.1 r.2 then (s, .error (.fault .xlateDenied va))
      else ((s.modMeridian d m.uid fun x => { x with parked := true }).pageMiss (s.vfOf m.seq)
          { ipa := ipa, size := z, acc := accessCode acc table, seq := m.seq, tile := m.tile, who := .chan m.tile 0 m.uid },
        .error .wait)
    | .done e => match s.checkEntry m.tile m.seq acc e va with
      | .fault c => (s, .error (.fault c va))
      | .miss => (s, .error .wait)
      | .at_ pl _ => match pl with
        | .hbm _ home =>
          if !s.keyLive m.seq (dieOf home) then (s, .error (.fault .keyVoid va))
          else if (s.absent [(pl, 64)]).isEmpty then (s.useLines [(pl, 64)], .ok pl)
          else (s.askLines m.seq [(pl, 64)], .error .wait)
        | .win u off =>
          if (panesOf off 64).all fun p => s.tiles[u].panes[p].allows m.seq then (s, .ok pl)
          else (s, .error (.fault .permission va))

/-- A request answered: the reply written, the batch member ended, the request gone from the queue (R203, R237). -/
def State.meridianEnd (s : State) (d : DieId) (m : MeridianItem) (pl : Option Place) (fault : Option (Cause × W))
    (ws : List W) : State :=
  let s1 := match pl with
    | some p => s.writePlace (.seq m.seq) p (wordsBytes ws)
    | none => s
  (s1.modDie d fun x => { x with meridian := x.meridian.filter fun y => y.uid != m.uid }).memberEnd m.tile m.owner m.batch
    (fault.map fun f => (m.uid, f.1, f.2))

/-- The place of a request's reply: none where CIRX asked for none; a fault there ends the batch member with it. -/
def State.replyPlace (s : State) (d : DieId) (m : MeridianItem) : State × Except Unit (Option Place × Option (Cause × W)) :=
  match m.reply with
  | none => (s, .ok (none, none))
  | some va => match s.meridianXlate d m .write va with
    | (s1, .ok pl) => (s1, .ok (some pl, none))
    | (s1, .error (.fault c v)) => (s1, .ok (none, some (c, v)))
    | (s1, .error .wait) => (s1, .error ())

/-- The next handle of a die (R251): not that of an open circuit. Log 60: DESIGN CHOICE. -/
def nextHandle (open_ : List Circuit) (d : DieId) (n : Nat) : Nat → BitVec 32 × Nat
  | 0 => (BitVec.ofNat 32 (4 * (n % (2 ^ 30 - 1) + 1) + d.val), n + 1)
  | k + 1 =>
    let h := BitVec.ofNat 32 (4 * (n % (2 ^ 30 - 1) + 1) + d.val)
    if open_.any fun c => c.handle == h then nextHandle open_ d (n + 1) k else (h, n + 1)

/-- A new circuit of a record (R251): its handle, slots and landing point. -/
def Circuit.make (h : BitVec 32) (q : SeqId) (r : CircRec) (path : List Step) (slots : List Nat) (delay : Nat)
    (pane : Fin 128) (bar : Option Nat) : Circuit :=
  { handle := h, seq := q, src := r.src, dst := r.dst, peer := none, remote := none, lead := 0, path := path, sets := [(0, slots)], delay := delay,
    live := 0, latch := r.dkind == 1, ringPane := pane, ringPanes := r.panes, barrier := bar, queue := [], wire := [],
    credits := if r.dkind = 1 then 2 else 128 * r.panes, landed := 0, read := 0, waiters := [], entries := 0, arrived := 0,
    incoming := [], failed := false, closing := false, lastLeft := 0, closeAt := 0, closeReply := none }

/-- A circuit entered in the tables of its ends (R251): the ring's panes become engine-owned and RING, or the latch takes it. -/
def State.openCircuit (s : State) (d : DieId) (c : Circuit) (granted : Nat) : State :=
  let s1 := { s.modDie d fun x => { x with granted := granted } with circuits := s.circuits ++ [c] }
  if c.latch then s1.modMatrix c.dst fun m => { m with latchBy := some c.handle }
  else (ringPanes c.ringPane.val c.ringPanes).foldl
    (fun a p => a.modPane c.dst p fun x => { x with engine := true, ring := true }) s1

/-- A request record judged (R248): the circuit granted with its slots, or the failure's STATUS. -/
def State.judge (s : State) (q : SeqId) (r : CircRec) : Except Nat (List Step × List Nat × Fin 128 × Option Nat) :=
  if r.malformed s.domain.wheel then .error 0x01
  else if !s.inPart (partOf q) r.src || !s.inPart (partOf q) r.dst || r.src == r.dst then .error 0x02
  else
    let path := (movesOf r.path 16).getD []
    if !path.isEmpty && !validPath r.src r.dst path then .error 0x03
    else match s.landing q r with
      | none => .error 0x06
      | some (pane, bar) =>
        if 64 ≤ s.tableCount r.src || 64 ≤ s.tableCount r.dst then .error 0x07
        else
          let try_ := s.tryPath 0 (some (partOf q)) (tileRoute r.src) r.slots r.mask []
          match (if path.isEmpty then candidates try_ r.src r.dst else try_ path) with
          | .granted p l => .ok (p, l, pane, bar)
          | .budget => .error 0x05
          | .noslot => .error 0x04
          | .unreachable => .error 0x09

/-- A record granted: handle, circuit, table writes and reply (R251). -/
def State.grant (s : State) (d : DieId) (m : MeridianItem) (r : CircRec) (pl : Option Place) (fault : Option (Cause × W))
    (path : List Step) (slots : List Nat) (pane : Fin 128) (bar : Option Nat) : State :=
  let h := nextHandle s.circuits d s.dies[d].granted s.circuits.length
  let delay := (pathLinks r.src path).elim 0 (·.2.2.2)
  let c0 := Circuit.make h.1 m.seq r path slots delay pane bar
  let c := { c0 with live := s.liveFor c0 r.start }
  let s1 := (s.openCircuit d c h.2).writeTables c slots c.live true
  s1.meridianEnd d m pl fault (c.words slots c.live)

/-- The first request that can be handled (R237, R247): the operations before it have been performed, it waits for no page, and no
earlier request of its strand is still to be handled (R255). A request reaches the Meridian when what comes before it has been
performed; a Meridian holds requests during a transplant on its die. Log 58: DEDUCED. -/
def State.meridianHead (s : State) (d : DieId) : Option MeridianItem :=
  if s.dies[d].transplant.isSome then none
  else s.dies[d].meridian.find? fun m => !m.parked &&
    (match s.workCtx m.tile m.owner with
     | none => true
     | some c => !c.pends.any fun p => m.after.contains p.uid) &&
    (s.dies[d].meridian.takeWhile fun x => x.uid != m.uid).all fun x => x.owner != m.owner

/-- CIRQ_REQUEST (R248–R252): the Meridian handles a CIRQ that stands first. -/
def execCirqRequest (d : DieId) (s : State) : Out :=
  match s.meridianHead d with
  | none => .next s
  | some m => match m.req with
    | .resize .. | .close _ => .next s
    | .open_ va => match s.meridianXlate d m .read va with
      | (s1, .error .wait) => .next s1
      | (s1, .error (.fault c v)) => .next (s1.meridianEnd d m none (some (c, v)) [])
      | (s1, .ok pl) =>
        if s1.placeBad pl 64 then .next (s1.meridianEnd d m none (some (.poison, va)) [])
        else match s1.replyPlace d m with
          | (s2, .error _) => .next s2
          | (s2, .ok (rp, fault)) =>
            let r := circRec (s2.readWords m.seq pl 8)
            match s2.judge m.seq r with
            | .error st => .next (s2.meridianEnd d m rp fault (failWords st))
            | .ok (p, l, pane, bar) =>
              if s2.pathHeld (tileRoute r.src) p then .next s2 else .next (s2.grant d m r rp fault p l pane bar)

/-- The open circuit with a handle. -/
def State.circuit (s : State) (h : BitVec 32) : Option Circuit := s.circuits.find? fun c => c.handle == h

/-- A resize of an open circuit to n slots (R253): the new set, or the failure's STATUS. -/
def State.resized (s : State) (c : Circuit) (n : Nat) : Except Nat (List Nat) :=
  let old := c.lastSet
  if n = 0 ∨ s.domain.wheel ≤ n then .error 0x01
  else if n ≤ old.length then .ok ((maskSlots (slotMask old)).take n)
  else match s.tryPath c.handle (some (partOf c.seq)) c.route (n - old.length) 0 old c.path with
    | .granted _ l => .ok (maskSlots (slotMask (old ++ l)))
    | .budget => .error 0x05
    | .noslot => .error 0x04
    | .unreachable => .error 0x09

/-- The slot sets that still matter at a SIDCOUNT: one that has been replaced goes once the last word that left in it has passed. -/
def Circuit.recentSets (c : Circuit) (sid : Nat) : List (Nat × List Nat) :=
  let rec go : List (Nat × List Nat) → List (Nat × List Nat)
    | [] => []
    | [x] => [x]
    | x :: y :: l => (if y.1 + c.delay ≤ sid then [] else [x]) ++ go (y :: l)
  go c.sets

/-- A resize granted (R253): from T the source injects in the new set; entries are added and removed at T + d(l). -/
def State.resize (s : State) (c : Circuit) (new : List Nat) (t : Nat) : State :=
  let old := c.lastSet
  let s1 := s.writeTables c (new.filter fun x => !old.contains x) t true
  let s2 := s1.writeTables c (old.filter fun x => !new.contains x) t false
  s2.modCircuit c.handle fun x => { x with sets := x.recentSets s.domain.sid ++ [(t, new)] }

/-- CIRZ_REQUEST (R253): the Meridian handles a CIRZ that stands first. -/
def execCirzRequest (d : DieId) (s : State) : Out :=
  match s.meridianHead d with
  | none => .next s
  | some m => match m.req with
    | .open_ _ | .close _ => .next s
    | .resize h n => match s.replyPlace d m with
      | (s1, .error _) => .next s1
      | (s1, .ok (rp, fault)) => match s1.circuit h with
        | none => .next (s1.meridianEnd d m rp fault (failWords 0x08))
        | some c =>
          if c.closing then .next (s1.meridianEnd d m rp fault (failWords 0x08))
          else if s1.pathHeld c.route c.path then .next s1
          else match s1.resized c n.toNat with
            | .error st => .next (s1.meridianEnd d m rp fault (failWords st))
            | .ok new =>
              let t := s1.liveFor c 0
              let same := decide (new.length = c.lastSet.length)
              let s2 := if same then s1 else s1.resize c new t
              .next (s2.meridianEnd d m rp fault (c.words new t))

/-- CIRX_REQUEST (R254): the Meridian marks a circuit closing; the reply follows the close. -/
def execCirxRequest (d : DieId) (s : State) : Out :=
  match s.meridianHead d with
  | none => .next s
  | some m => match m.req with
    | .open_ _ | .resize .. => .next s
    | .close h => match s.replyPlace d m with
      | (s1, .error _) => .next s1
      | (s1, .ok (rp, fault)) => match s1.circuit h with
        | none => .next (s1.meridianEnd d m rp fault (failWords 0x08))
        | some c =>
          if c.closing then .next (s1.meridianEnd d m rp fault (failWords 0x08))
          else if s1.pathHeld c.route c.path then .next s1
          else
            let r : CloseReply := { tile := m.tile, owner := m.owner, batch := m.batch, uid := m.uid, place := rp,
                                    fault := fault }
            let s2 := s1.modCircuit h fun x => { x with closing := true, closeAt := s.domain.sid, closeReply := some r }
            .next (s2.modDie d fun x => { x with meridian := x.meridian.filter fun y => y.uid != m.uid })

/-! ### Closing (R251, R254, R255) -/

/-- A circuit's outstanding CRECVs find no circuit: CIRCUIT at the next boundary of their work. Log 65: DEDUCED. -/
def State.dropWaiters (s : State) (c : Circuit) : State :=
  c.waiters.foldl (fun a w => a.answer c.dst w.1 w.2.1 0 0 0 (some (.circuit, c.handle.setWidth 64))) s

/-- What an open circuit holds at its ends is given back: RING clears on the landing panes, which stay engine-owned; the
latch becomes free and its entries are discarded (R254, R294). -/
def State.releaseLanding (s : State) (c : Circuit) : State :=
  if c.latch then s.modMatrix c.dst fun m =>
    if m.latchBy = some c.handle then { m with latchBy := none, latch := [] } else m
  else if c.peer.elim false (·.2) then s
  else (ringPanes c.ringPane.val c.ringPanes).foldl (fun a p => a.modPane c.dst p fun x => { x with ring := false }) s

/-- CSENDs whose words have not landed count as performed: nothing more becomes of them. -/
def State.dropSends (s : State) (c : Circuit) : State :=
  ((c.queue.filterMap (·.done)) ++ c.wire.filterMap (·.done)).foldl
    (fun a x => a.answer c.src x.1 x.2 0 0 0 none) s

/-- The entries of slots of some links removed, and what was to be written to them. -/
def State.dropLinks (s : State) (us : List Link) (slots : List Nat) : State :=
  let mine (e : SlotEntry) : Bool := us.any fun l =>
    e.tile == l.tile && e.out == l.out && (e.inp == l.inp || e.inp == 0) && slots.any fun x => (x + l.d) % s.domain.wheel == e.slot.val
  { s with tables := s.tables.filter fun e => !mine e, pending := s.pending.filter fun w => !mine w.entry,
           config := s.config.filter fun w => match w.body with
             | .table x => !mine x.entry
             | .hop .. | .peerKey .. => true }

/-- The keys of a peer port for the slots of a circuit removed, and what was to be written to them (R265). -/
def State.dropKeys (s : State) (c : Circuit) : State :=
  match c.peer, c.uses.getLast? with
  | some (p, true), some l =>
    let mine (n : Fin 64) : Bool := (c.held s.domain.sid).any fun x => (x + l.d) % s.domain.wheel == n.val
    let y := s.ports[p]
    { s with ports := s.ports.set p { y with keys := y.keys.filter fun k => !mine k.1 },
             config := s.config.filter fun w => match w.body with
               | .peerKey r n _ => !(r == p && mine n)
               | .hop .. | .table _ => true }
  | some (_, true), none | some (_, false), _ | none, _ => s

/-- Table entries of the slots that a circuit holds removed (R254). -/
def State.clearTables (s : State) (c : Circuit) : State := (s.dropLinks c.uses (c.held s.domain.sid)).dropKeys c

/-- A circuit gone: its entries, its landing point and its credits (R254). Log 59: DEDUCED. Log 64: DEDUCED. -/
def State.removeCircuit (s : State) (c : Circuit) : State :=
  let s1 := ((s.clearTables c).releaseLanding c)
  let s2 := { s1 with circuits := s1.circuits.filter fun x => x.handle != c.handle }
  (s2.dropWaiters c).dropSends c

/-- The reply of a CIRX written and its batch member ended (R237, R254). -/
def State.closeAnswer (s : State) (c : Circuit) (t : Nat) : State :=
  match c.closeReply with
  | none => s
  | some r =>
    let s1 := match r.place with
      | some pl => s.writePlace (.seq c.seq) pl (wordsBytes (c.words [] t))
      | none => s
    s1.memberEnd r.tile r.owner r.batch (r.fault.map fun f => (r.uid, f.1, f.2))

/-- A circuit closed without waiting for its queue (R255); a CIRX that waits for the close is answered. Log 65: DEDUCED. -/
def State.closeNow (s : State) (c : Circuit) : State := (s.removeCircuit c).closeAnswer c s.domain.sid

/-- The SIDCOUNT moved on to a time. Log 54: DESIGN CHOICE. -/
def State.until (s : State) (t : Nat) : State := { s with domain := { s.domain with sid := Nat.max s.domain.sid t } }

/-- The SIDCOUNT at which a closing circuit's entries are removed (R254). -/
def Circuit.closeTime (c : Circuit) : Nat := Nat.max (c.lastLeft + c.delay + 1) (c.closeAt + 1)

/-- CIRCUIT_CLOSE_END (R254): a closing circuit whose last word has landed; its entries are removed at t + D + 1, and the
reply is written. -/
def execCircuitCloseEnd (h : BitVec 32) (s : State) : Out :=
  match s.circuit h with
  | none => .next s
  | some c =>
    if !c.closing || !c.queue.isEmpty || !c.wire.isEmpty then .next s
    else
      let t := c.closeTime
      .next (((s.until t).removeCircuit c).closeAnswer c t)

/-- A circuit that has failed (R293): closed as by CIRX, and the sequence told. CAUSE: 0 fencing, 1 a lost link, 2 a failed
ring, 3 rebuilt. Log 66: DEDUCED. -/
def State.failCircuit (s : State) (c : Circuit) : State :=
  let s1 := s.modCircuit c.handle fun x => { x with closing := true, closeAt := if x.closing then x.closeAt else s.domain.sid }
  s1.seqEvent (dieOf c.src) c.seq 0x0005 [c.handle.setWidth 64, 2]

/-- A circuit ended from outside: its sequence is told, and it is closed without waiting for its queue (R255, R261, R266). Causes: 0
fencing, 1 a lost link, 2 a failed ring, 3 rebuilt. -/
def State.cutCircuit (s : State) (c : Circuit) (cause : Nat) : State :=
  (s.seqEvent (dieOf c.src) c.seq 0x0005 [c.handle.setWidth 64, BitVec.ofNat 64 cause]).closeNow c

/-- Every circuit that a test picks ended. -/
def State.cutWhere (s : State) (f : Circuit → Bool) (cause : Nat) : State :=
  (s.circuits.filter f).foldl (fun a c => a.cutCircuit c cause) s

/-- The package leaves its slot domain and fences itself (R264): every circuit over its peer links closes. -/
def State.leaveDomain (s : State) : State :=
  let off (a : State) : State := { a with domain := { a.domain with joining := none } }
  if s.domain.member then
    let s1 := off (s.cutWhere (fun c => c.peer.isSome) 0)
    { s1 with domain := { s1.domain with member := false, slewing := false,
                                         fencedPkgs := s1.domain.fencedPkgs.filter (· != s.domain.own) ++ [s.domain.own] } }
  else off s

/-! ### Configuration words (R245, R246) -/

/-- What a configuration agent does with a word addressed to its router. -/
def State.configAct (s : State) (t : TileId) (b : ConfigBody) : State :=
  match b with
  | .table w => { s with pending := s.pending ++ [w] }
  | .hop blk code => s.modTile t fun x => { x with nextHop := x.nextHop.set blk code }
  | .peerKey p slot k =>
    let x := s.ports[p]
    let rest := x.keys.filter fun y => y.1 != slot
    { s with ports := s.ports.set p { x with keys := if k = 0 then rest else (slot, k) :: rest } }

/-- CONFIG_WORD (R245): the n-th word on the tree goes one level further, or is acted on, in slot 0. -/
def execConfigWord (n : Nat) (s : State) : Out :=
  match s.config[n]? with
  | none => .next s
  | some w =>
    let s1 := s.until w.next
    if w.levels = 0 then
      .next ({ s1 with config := s1.config.filter fun x => x.uid != w.uid }.configAct w.target w.body)
    else
      let go (x : ConfigWord) : ConfigWord :=
        if x.uid = w.uid then { x with levels := x.levels - 1, next := x.next + s.domain.wheel } else x
      .next { s1 with config := s1.config.map go }

/-- SLOT_TABLE_ACTIVATION (R246): the writes that share the next activation SIDCOUNT are applied together. -/
def execSlotTableActivation (s : State) : Out :=
  match s.pending with
  | [] => .next s
  | w :: l =>
    let t := l.foldl (fun a x => Nat.min a x.at_) w.at_
    let s1 := s.until t
    .next { s1 with tables := (s1.pending.filter fun x => x.at_ == t).foldl (fun a x => putEntry a x.entry) s1.tables,
                    pending := s1.pending.filter fun x => x.at_ != t }

/-! ### Words on a circuit (R205, R232, R234, R241, R242, R293) -/

/-- The SIDCOUNT at which the first queued word leaves (R232, R237): none within n slots of the first that is allowed. Log 61: DEDUCED. -/
def Circuit.departure (c : Circuit) (w : Nat) (t : Nat) : Nat → Option Nat
  | 0 => none
  | n + 1 => if (c.slotsAt t).contains (t % w) then some t else c.departure w (t + 1) n

/-- The outputs of a router that transmit in a slot what arrives on an input (R241): every one that names it (R242). -/
def outputsFor (l : List SlotEntry) (t : TileId) (slot : Nat) (inp : Fin 8) : List (Fin 8) :=
  (l.filter fun e => e.tile == t && e.slot.val == slot && e.inp == inp).map (·.out)

/-- Where an output of a router leads (R241, R243); none for Local, for a memory or peer port, and where the router lacks the port. -/
def exitOf (t : TileId) (out : Fin 8) : Option Hop :=
  if out = 6 then move t .x else (codeStep out).bind (move t)

/-- What becomes of a word that a router forwards at a SIDCOUNT from an input (R241, R242): the outputs at which it ends, by router,
output and SIDCOUNT, and the routers that discard it because no output names its input. -/
def State.spread (s : State) : Nat → TileId → Fin 8 → Nat → List (TileId × Fin 8 × Nat) × List TileId
  | 0, _, _, _ => ([], [])
  | n + 1, t, inp, at_ =>
    match outputsFor (s.tablesAt at_) t (at_ % s.domain.wheel) inp with
    | [] => ([], [t])
    | l => l.foldl (fun a o =>
        if o = 5 ∨ o = 7 then (a.1 ++ [(t, o, at_)], a.2)
        else match exitOf t o with
          | none => a
          | some h => let r := s.spread n h.goal h.inp (at_ + h.delay); (a.1 ++ r.1, a.2 ++ r.2)) ([], [])

/-- What becomes of a circuit's word that leaves at a SIDCOUNT: whether it reaches the circuit's end, and the routers that discard it. -/
def State.sendAlong (s : State) (c : Circuit) (t : Nat) : Bool × List TileId :=
  let r := s.spread 64 c.route.src c.route.inp (t + c.route.lead)
  (c.uses.getLast?.any fun l => r.1.contains (l.tile, l.out, t + l.d), r.2)

/-- A package is fenced or its keys are revoked: nothing goes its way (R266, R267). -/
def Domain.barred (x : Domain) (pkg : Fin 4096) : Bool := x.fencedPkgs.contains pkg || x.revokedPkgs.contains pkg

/-- A circuit runs through a package: its other end is there, or the package is this one. -/
def Circuit.through (c : Circuit) (own pkg : Fin 4096) : Bool := c.remote == some pkg || (c.peer.isSome && pkg == own)

/-- A circuit that may transmit: injection is not stopped (R285), and neither end of a circuit across packages is fenced (R264, R267). -/
def State.mayInject (s : State) (c : Circuit) : Bool :=
  s.cold.changing.isNone && s.domain.joining.isNone &&
    (c.remote.all fun k => !s.domain.barred k && !s.domain.barred s.domain.own)

/-- The SIDCOUNT at which a circuit's first queued word leaves (R232). -/
def State.departs (s : State) (c : Circuit) : Option Nat :=
  match c.queue with
  | [] => none
  | q :: _ =>
    if !s.mayInject c then none
    else
      let w := s.domain.wheel
      c.departure w (Nat.max s.domain.sid (Nat.max (Nat.max (q.entered + 2) (c.lastLeft + 1)) c.live))
        (2 * w + (c.sets.getLast?).elim 0 (·.1))

/-- Misroute counts of routers raised (R242). -/
def State.misrouted (s : State) (l : List TileId) : State :=
  l.foldl (fun a t => a.modTile t fun x => { x with misroutes := x.misroutes + 1 }) s

/-- CIRCUIT_WORD_INJECT (R232): the first queued word of a circuit leaves in the first owned slot that R232 allows. -/
def execCircuitWordInject (h : BitVec 32) (s : State) : Out :=
  match s.circuit h with
  | none => .next s
  | some c => match c.queue, s.departs c with
    | q :: rest, some t =>
      let s1 := (s.until t).modCounts c.seq fun x => { x with circuitWords := x.circuitWords + 1 }
      let r := s1.sendAlong c t
      .next ((s1.misrouted r.2).modCircuit h fun x =>
        { x with queue := rest, lastLeft := t, wire := if r.1 then x.wire ++ [⟨q.word, t + c.delay, q.done⟩] else x.wire })
    | _, _ => .next s

/-- A CSEND whose last word has landed is performed (R210). -/
def State.sendDone (s : State) (c : Circuit) (done : Option (Nat × Nat)) : State :=
  match done with
  | some (o, u) => s.answer c.src o u 0 0 0 none
  | none => s

/-- The bytes of a circuit word. -/
def wordBytes (x : BitVec 256) : List Byte := leBytes 32 x.toNat

/-- The offset of the n-th word of a landing ring (R234). -/
def Circuit.ringOff (c : Circuit) (n : Nat) : Nat := 4096 * c.ringPane.val + 32 * n % (4096 * c.ringPanes)

/-- Outstanding CRECVs served, oldest first, while their words have landed (R206). -/
def State.serveRecv (s : State) (h : BitVec 32) : Nat → State
  | 0 => s
  | n + 1 => match s.circuit h with
    | none => s
    | some c => match c.waiters with
      | [] => s
      | (o, u, m) :: rest =>
        if c.landed < c.read + m then s
        else
          let offs := (List.range m).map fun i => c.ringOff (c.read + i)
          let va (o : Nat) : W := s.tilebase c.seq + BitVec.ofNat 64 (c.dst.val * 2 ^ 22 + o)
          let bad := offs.find? fun o => s.placeBad (.win c.dst o) 32
          let bs := offs.flatMap fun o => s.readPlace (.seq c.seq) (.win c.dst o) 32
          let s1 := s.modCircuit h fun x => { x with read := x.read + m, waiters := rest }
          let s2 := s1.answer c.dst o u 0 (bytesV bs) 0 (bad.map fun o => (Cause.poison, va o))
          let s3 := if c.peer.isSome then s2 else s2.send c.dst c.src (partOf c.seq) (.creditWords h m) []
          s3.serveRecv h n

/-- The barrier of a landing (R146, R234): the word's bytes, then its arrival; a refusal fails the circuit. Log 66: DEDUCED. -/
def State.landBarrier (s : State) (c : Circuit) : State :=
  match c.barrier with
  | none => s
  | some o => match barLand (s.barrier c.seq c.dst o) 32 with
    | none => s.failCircuit c
    | some b =>
      let s1 := s.setBarrier c.seq c.dst o b
      match barArrive (s1.barrier c.seq c.dst o) with
      | none => s1.failCircuit c
      | some b => s1.setBarrier c.seq c.dst o b

/-- A word lands in a pane ring (R234): written, counted on the barrier, the sequence's events set (R116), and CRECVs
served. -/
def State.landRing (s : State) (c : Circuit) (x : BitVec 256) : State :=
  let s1 := s.writePlace (.seq c.seq) (.win c.dst (c.ringOff c.landed)) (wordBytes x)
  let s2 := (s1.modCircuit c.handle fun y => { y with landed := y.landed + 1 }).landBarrier c
  (s2.wake c.dst (some c.seq)).serveRecv c.handle (c.waiters.length + 1)

/-- The format that a header word names (R293). -/
def headerFmt (x : BitVec 256) : OpFmt :=
  match x.toNat % 4 with
  | 0 => .bf16
  | 1 => .bx8
  | 2 => .bx5
  | _ => .bx3

/-- The words of an entry, its header included (R293). -/
def OpFmt.entryWords (f : OpFmt) : Nat := f.bytes / 32 + 1

/-- A header that R293 refuses: a reserved bit, or an ENTRY that is not the next. -/
def badHeader (x : BitVec 256) (n : BitVec 16) : Bool :=
  x.toNat / 2 ^ 24 != 0 || bitsAt x.toNat 2 6 != 0 || bitsAt x.toNat 8 16 != n.toNat

/-- The entry that received words hold. -/
def entryOf (ws : List (BitVec 256)) : Option Operand :=
  match ws with
  | [] => none
  | x :: l =>
    if l.length + 1 = (headerFmt x).entryWords then
      some { fmt := headerFmt x, bytes := l.flatMap wordBytes, poison := false, pane := none, addr := 0 }
    else none

/-- A word lands for a latch (R184, R293): the header is checked, and the last word of an entry makes it the latch's tail; then the
barrier that the record names counts it (R234). After a header that is refused nothing more is taken. -/
def State.landLatch (s : State) (c : Circuit) (x : BitVec 256) : State :=
  let ws := c.incoming ++ [x]
  if c.failed then s.modCircuit c.handle fun y => { y with landed := y.landed + 1 }
  else if c.incoming.isEmpty && badHeader x c.arrived then
    (s.modCircuit c.handle fun y => { y with landed := y.landed + 1, failed := true }).failCircuit c
  else match entryOf ws with
    | none => (s.modCircuit c.handle fun y => { y with incoming := ws, landed := y.landed + 1 }).landBarrier c
    | some e =>
      ((s.modCircuit c.handle fun y => { y with incoming := [], arrived := y.arrived + 1, landed := y.landed + 1 }).modMatrix
        c.dst fun m => { m with latch := m.latch ++ [e] }).landBarrier c

/-- A port changed. -/
def State.modPort (s : State) (p : Fin 16) (f : PeerPort → PeerPort) : State :=
  { s with ports := s.ports.set p (f s.ports[p]) }

/-- The partition key that a port's table holds for a slot (R265). -/
def State.peerKeyAt (s : State) (p : Fin 16) (slot : Nat) : BitVec 16 :=
  ((s.ports[p].keys.find? fun x => x.1.val == slot).map (·.2)).getD 0

/-- A tag word (R262): PKEY, CTL and CPAY. -/
def tagWord (pkey : BitVec 16) (ctl : Fin 16) (cpay : BitVec 44) : BitVec 64 :=
  BitVec.ofNat 64 (pkey.toNat * 2 ^ 48 + ctl.val * 2 ^ 44 + cpay.toNat)

/-- CTL of a tag word. -/
def tagCtl (x : BitVec 64) : Nat := bitsAt x.toNat 44 4

/-- A slot's tag word changed at a port, where it sends nothing else yet in that slot. -/
def PeerPort.putSlot (y : PeerPort) (sid : Nat) (f : BitVec 64 → BitVec 64) (word : Option (BitVec 32 × BitVec 256)) : PeerPort :=
  if y.sent.any fun x => x.1 == sid then
    { y with sent := y.sent.map fun x => if x.1 = sid then (sid, f x.2.1, word.orElse fun _ => x.2.2) else x }
  else { y with sent := y.sent ++ [(sid, f 0, word)] }

/-- A word sent toward the peer of a port in its slot (R261): the tag word carries the key of the slot's table entry (R262, R265). -/
def State.peerSend (s : State) (p : Fin 16) (sid : Nat) (h : BitVec 32) (x : BitVec 256) : State :=
  let k := s.peerKeyAt p (sid % s.domain.wheel)
  s.modPort p fun y => y.putSlot sid (fun w => (w.toNat % 2 ^ 48 + k.toNat * 2 ^ 48 : Nat)) (some (h, x))

/-- The first word on a circuit's wire lands in the slot of R232; one that leaves the package crosses its peer link in that slot.
Log 61: DEDUCED. -/
def State.landWord (s : State) (c : Circuit) : State :=
  match c.wire with
  | [] => s
  | x :: rest =>
    let s1 := (s.until x.lands).modCircuit c.handle fun y => { y with wire := rest }
    let c1 := { c with wire := rest }
    let s2 := match c.peer with
      | some (p, true) => s1.peerSend p x.lands c.handle x.word
      | some (_, false) | none => if c.latch then s1.landLatch c1 x.word else s1.landRing c1 x.word
    s2.sendDone c x.done

/-- The next word of a latch circuit completes an entry. -/
def Circuit.entryDue (c : Circuit) : Bool :=
  match c.wire with
  | [] => false
  | x :: _ => c.latch && !c.failed && (entryOf (c.incoming ++ [x.word])).isSome

/-- CIRCUIT_WORD_LAND (R234): a circuit's next word lands; the last word of a latch entry is LATCH_ENTRY_LAND's. -/
def execCircuitWordLand (h : BitVec 32) (s : State) : Out :=
  match s.circuit h with
  | none => .next s
  | some c => if c.entryDue then .next s else .next (s.landWord c)

/-- LATCH_ENTRY_LAND (R293): the last word of an entry lands, and the entry joins the latch. -/
def execLatchEntryLand (h : BitVec 32) (s : State) : Out :=
  match s.circuit h with
  | none => .next s
  | some c => if c.entryDue then .next (s.landWord c) else .next s

/-! ### The words -/

/-- CIRCUIT with the handle of a register (R204, R254). -/
def badHandle (g : W) : Verdict := .trap .circuit (g.setWidth 32 |>.setWidth 64)

/-- A request before the Meridian of the tile's die (R203, R237); it joins the open batch (R191). -/
def State.ask (s : State) (r : MeridianReq) (reply : Option W) (after : List Nat) : State :=
  let m : MeridianItem := { uid := s.fresh, req := r, tile := s.cur, seq := s.q, owner := s.strand.owner,
                            batch := s.ctx.batchnow, reply := reply, after := after, parked := false, refused := [] }
  ((s.bump).modCtx Ctx.join).modDie (dieOf s.cur) fun d => { d with meridian := d.meridian ++ [m] }

/-- The strand's memory words that are not performed (R237). -/
def State.askAfter (s : State) : List Nat := (s.ctx.pends.filter (·.mem)).map (·.uid)

/-- The strand's CSENDs whose words have not landed, which a CIRX does not wait for: it closes the circuit once its queue has
drained (R203). -/
def State.sendsOut (s : State) : List Nat :=
  s.circuits.flatMap fun c =>
    ((c.queue.filterMap (·.done)) ++ c.wire.filterMap (·.done)).filterMap fun x =>
      if x.1 = s.strand.owner then some x.2 else none

/-- A circuit that ends on the strand's tile and is its sequence's (R254). -/
def State.endsHere (s : State) (g : W) : Bool :=
  match s.circuit (g.setWidth 32) with
  | some c => c.seq == s.q && (c.src == s.cur || c.dst == s.cur)
  | none => false

/-- MISALIGN where an address is not that of a record (R203). -/
def align64 (va : W) : Verdict := if va.toNat % 64 ≠ 0 then .trap .misalign va else .pass

/-- CIRQ. -/
def execCirq (a b : GReg) (s : State) : Out :=
  s.word ((s.illegalIf s.rewriting.isSome).andThen ((align64 (s.g a)).andThen (align64 (s.g b)))) fun s =>
    s.ask (.open_ (s.g a)) (some (s.g b)) s.askAfter
/-- CIRZ. -/
def execCirz (a h : GReg) (n : BitVec 6) (s : State) : Out :=
  s.word (((s.illegalIf (s.rewriting.isSome || n == 0)).andThen (align64 (s.g a))).andThen
      (if s.endsHere (s.g h) then .pass else badHandle (s.g h))) fun s =>
    s.ask (.resize ((s.g h).setWidth 32) n) (some (s.g a)) s.askAfter
/-- CIRX: with ga = g0 no reply is written. Log 59: DEDUCED. -/
def execCirx (a h : GReg) (s : State) : Out :=
  s.word (((s.illegalIf s.rewriting.isSome).andThen (align64 (s.g a))).andThen
      (if s.endsHere (s.g h) then .pass else badHandle (s.g h))) fun s =>
    s.ask (.close ((s.g h).setWidth 32)) (if a = 0 then none else some (s.g a))
      (s.askAfter.filter fun u => !s.sendsOut.contains u)

/-- The circuit that a CSEND names (R204, R254). -/
def State.sendCircuit (s : State) (g : W) : Option Circuit :=
  match s.circuit (g.setWidth 32) with
  | some c =>
    if c.src = s.cur && c.seq == s.q && !c.latch && !c.closing && c.peer.elim true (·.2) then some c else none
  | none => none

/-- A CSEND waits for room in the queue and for credits, and for the acquires before it (R205, R339). -/
def State.csendCheck (s : State) (g : W) (n : Nat) : Verdict :=
  (s.illegalIf s.rewriting.isSome).andThen (match s.sendCircuit g with
    | none => badHandle g
    | some c => if 16 < c.queue.length + n || c.credits < n then .wait else s.acquireWait)

/-- CSEND. -/
def execCsend (h : GReg) (v : VReg) (m : Fin 4) (s : State) : Out :=
  s.word (s.csendCheck (s.g h) (m.val + 1)) fun s =>
    let n := m.val + 1
    let x := s.v v
    let put (i : Nat) : QueueWord :=
      ⟨x.extractLsb' (256 * i) 256, s.domain.sid, if i + 1 = n then some (s.strand.owner, s.fresh) else none⟩
    ((s.pend (Pend.make s.fresh .none .drop 1 true false s.issue.ba)).bump).modCircuit ((s.g h).setWidth 32) fun c =>
      { c with credits := c.credits - n, queue := c.queue ++ (List.range n).map put }

/-- The circuit that a CRECV names (R204). -/
def State.recvCircuit (s : State) (g : W) : Option Circuit :=
  match s.circuit (g.setWidth 32) with
  | some c => if c.dst = s.cur && c.seq == s.q && !c.latch && c.peer.elim true (fun p => !p.2) then some c else none
  | none => none

/-- CRECV: its destination is marked until the words have landed (R206). -/
def execCrecv (h : GReg) (v : VReg) (m : Fin 4) (s : State) : Out :=
  s.word ((s.illegalIf s.rewriting.isSome).andThen (match s.recvCircuit (s.g h) with
      | none => badHandle (s.g h)
      | some _ => s.acquireWait)) fun s =>
    let hd := (s.g h).setWidth 32
    let s1 := (s.pend (Pend.make s.fresh (.v v) .word 1 true false s.issue.ba)).bump
    let s2 := s1.modCircuit hd fun c => { c with waiters := c.waiters ++ [(s.strand.owner, s.fresh, m.val + 1)] }
    s2.serveRecv hd 1

end Sys2Proof.Machine
end

