-- ==== Sys2Proof/Machine/RelayService.lean ====
section
/-! DEFINITION. Relay messages at their destinations (spec/12 R256–R260, R438): acceptance in order, service at homes, at near
buffers and at tile stores (spec/06 R134–R136, spec/18 R320, R323), nets (spec/22 R354, R355, R359, R368), ordered reduction
(spec/07 R167), and the message words (spec/09 R208–R210; major 0x1C, words 5 to 7). -/

namespace Sys2Proof.Machine

/-! ### Lines at their homes (R134–R136, R276, R278) -/

/-- An earlier request to the same line or pane still waits. -/
def State.behind (s : State) (m : Msg) (r : Req) : Bool :=
  s.relay.any fun x => x.uid != m.uid && !x.served && (match x.arrived, m.arrived with
    | some i, some j => decide (i < j)
    | _, _ => false) && match x.body.req with
    | some q => r.meets q
    | none => false

/-- A counter of the contention predictor changed (R136). -/
def State.predict (s : State) (t : TileId) (line : Nat) (up : Bool) : State :=
  s.modTile t fun x =>
    let i : Fin 256 := ⟨line % 256, by omega⟩
    let c := x.predictor[i].val
    let n : Fin 4 := if up then ⟨if c < 3 then c + 1 else 3, by split <;> omega⟩
      else ⟨c - 1, by have := x.predictor[i].isLt; omega⟩
    { x with predictor := x.predictor.set i n }

/-- A request that reaches its home behind another to the same line raises the sender's counter (R136). -/
def State.noteContention (s : State) (m : Msg) : State :=
  match m.body.req with
  | none => s
  | some r => match r.pl with
    | .win .. => s
    | .hbm pa home => if m.dst = home && s.behind m r then s.predict m.src (pa / 64) true else s

/-- A line used in, or migrated to, a tile's near buffer of 8 lines; one that leaves without being recalled lowers its
counter (R136). Log 53: DESIGN CHOICE. -/
def State.keepNear (s : State) (t : TileId) (line : Nat) : State :=
  let l := line :: s.tiles[t].near.filter (· != line)
  let s1 := s.modTile t fun x => { x with near := l.take 8 }
  (l.drop 8).foldl (fun a x => a.predict t x false) s1

/-- An access of a tile in bypass becomes a BYPASS transfer of its message (R278). -/
def State.bypassAsk (s : State) (m : Msg) (q : SeqId) (pa : Nat) (home : TileId) : State :=
  if s.transfers.any fun x => x.op == .bypass m.uid then s
  else { s.bump with transfers := s.transfers ++
    [{ uid := s.fresh, op := .bypass m.uid, line := pa / 64, home := home, seq := q, queued := false, bad0 := false,
       bad1 := false }] }

/-- Whether a request can be performed now. -/
inductive Serve
  | go (s : State)
  | hold (s : State)
  | refuse (c : Cause)

/-- An atomic is performed in its own tile's near buffer (R136): it was sent to its tile, and where that is the line's home, the
tile's counter is 0 or 1. -/
def State.goesNear (s : State) (m : Msg) (pa : Nat) (home : TileId) : Bool :=
  m.dst != home || decide (s.tiles[home].predictor[(⟨pa / 64 % 256, by omega⟩ : Fin 256)].val < 2) && m.src == home

/-- A request to a line of HBM at its home or at the requester's near buffer (R136, R276, R278); `atomic` migrates the line to
the near buffer where it is served there. An address that holds no memory is delivered as poisoned without a request, and counted
(R268). -/
def State.lineReady (s : State) (m : Msg) (r : Req) (pa : Nat) (home : TileId) (atomic : Bool) : Serve :=
  let line := pa / 64
  if !s.keyLive r.seq (dieOf home) then .refuse .keyVoid
  else if s.moving home then .hold s
  else if !isHbm pa then .go (s.modTile home fun x => { x with syndromes := x.syndromes + 1 })
  else if s.tiles[home].inReset then .hold (s.bypassAsk m r.seq pa home)
  else match s.nearHolder line with
    | some t => if t = m.dst then .go (s.keepNear t line) else .hold (s.recall home t m.part line)
    | none =>
      if (s.bankLine pa home).isNone then .hold (s.fill r.seq pa home)
      else if atomic && s.goesNear m pa home then .go ((s.useLine home line).keepNear m.dst line)
      else .go (s.useLine home line)

/-- A request to another tile's store (R278, R320, R323): while the tile is in reset it waits; on a fenced die it completes with
POISON. -/
def State.windowReady (s : State) (r : Req) (t : TileId) (off : Nat) (store : Bool) : Serve :=
  let ps := panesOf off r.n
  if !s.keyLive r.seq (dieOf t) then .refuse .keyVoid
  else if s.dies[dieOf t].fenced then .refuse .poison
  else if s.still t then .hold s
  else if ps.any fun p => !s.tiles[t].panes[p].allows r.seq then .refuse .permission
  else if ps.any fun p => s.tiles[t].panes[p].engine || (store && s.tiles[t].panes[p].staged != 0) then .hold s
  else .go s

/-- Whether a memory request can be performed where it has arrived. -/
def State.ready (s : State) (m : Msg) (r : Req) (store atomic : Bool) : Serve :=
  if s.behind m r then .hold s
  else match r.pl with
    | .hbm pa home => s.lineReady m r pa home atomic
    | .win t off => s.windowReady r t off store

/-- A request that is held: what it has asked for stands, the message stays. -/
def Serve.run (x : Serve) (go : State → State) (refused : Cause → State) : State × Bool :=
  match x with
  | .go s => (go s, true)
  | .hold s => (s, false)
  | .refuse c => (refused c, true)

/-- A message to the requester. -/
def State.reply (s : State) (m : Msg) (r : Req) (b : Body) : State := s.send m.dst r.tile m.part b []

/-! ### The way of a message (R256–R258) -/

/-- The logical neighbour toward which a port code of a next-hop table leads (R241, R243): N, E, S and W within the die, X across
the die edge that the router lies on, while the link is in service. At the router that lies on both edges X is the next edge, and the
direction that leaves the die over the previous edge names that crossing. Log 111: DESIGN CHOICE. -/
def State.relayStep (s : State) (t : TileId) (code : Fin 8) : Option TileId :=
  let cross (u : Option TileId) : Option TileId := u.filter fun u => s.edgeBetween (dieOf t) (dieOf u)
  if code = 6 then cross ((nextEdge t).orElse fun _ => prevEdge t)
  else match codeStep code with
    | none => none
    | some m => match move t m with
      | some h => some h.goal
      | none => if (nextEdge t).isSome then cross ((prevEdge t).filter fun u => dirTo t u == code) else none

/-- The way from a tile to another along the next-hop tables, all of it in a partition: between blocks by the tables, within the
destination's block by XY (R258). -/
def State.routed (s : State) (p : PartId) (dst : TileId) : Nat → TileId → Bool
  | 0, t => t == dst && s.tiles[t].part == some p
  | n + 1, t =>
    s.tiles[t].part == some p && (t == dst ||
      if blockOf t = blockOf dst then s.routed p dst n (xyNext t dst)
      else match s.relayStep t s.tiles[t].nextHop[(⟨blockOf dst % 64, by omega⟩ : Fin 64)] with
        | some u => s.routed p dst n u
        | none => false)

/-- Next-hop words for a tile are still on the configuration tree (R245, R258). -/
def State.hopsPending (s : State) (t : TileId) : Bool :=
  s.config.any fun w => w.target == t && match w.body with
    | .hop .. => true
    | .table _ | .peerKey .. => false

/-- Whether every interface on a message's way takes it (R257): its KIND is not reserved, it passes its CRC, and its PART is that of
each link. Log 111: DESIGN CHOICE. -/
def State.passes (s : State) (m : Msg) : Bool :=
  decide (m.body.kind.val < 13) && !m.struck && s.routed m.part m.dst 1024 m.src

/-! ### Acceptance (R259, R438) -/

/-- A message that has been performed goes when its ACK has come back; what waited for it is sent. -/
def State.finishMsg (s : State) (uid : Nat) : State :=
  let l := (s.relay.filter fun m => m.uid != uid || !m.acked).map fun m => if m.uid = uid then { m with served := true } else m
  ({ s with relay := l } : State).performed 0 uid

/-- The message has been dropped: it is sent again by the timer, or by a CREDIT. -/
def State.lose (s : State) (m : Msg) : State := s.modMsg m.uid fun x => { x with lost := true, held := false }

/-- A message accepted: the receive count rises, and an ACK returns (R259). Log 9: DESIGN CHOICE. -/
def State.accept (s : State) (m : Msg) : State :=
  let s1 := { s.bump with received := putCount s.received (m.src, m.dst) (s.recvCount m.src m.dst + 1) }
  let s2 := s1.modMsg m.uid fun x => { x with arrived := some s.fresh, held := false }
  (s2.noteContention { m with arrived := some s.fresh }).send m.dst m.src m.part (.ack m.seqno) []

/-- A message refused for want of room (R438): dropped without an ACK; its place among those refused is that of its first
refusal. -/
def State.refuse (s : State) (m : Msg) : State :=
  s.bump.modMsg m.uid fun x =>
    { x with refused := some (x.refused.getD s.fresh), lost := true, held := false, credited := false }

/-- The next message of its pair (R259), on its way. -/
def State.inOrder (s : State) (m : Msg) : Bool :=
  m.launched && m.arrived.isNone && !m.lost && m.seqno == s.recvCount m.src m.dst

/-- Messages that a destination holds ahead of their pair's count (R259). -/
def State.heldAhead (s : State) (m : Msg) : Nat :=
  (s.relay.filter fun x => x.src == m.src && x.dst == m.dst && x.held && x.arrived.isNone).length

/-- A message not accepted yet: it waits for its way to be set up, is dropped where its way does not take it, is held or dropped ahead of its
count, is refused for want of room, or is accepted (R257, R259, R438). -/
def State.arrive (s : State) (m : Msg) (room : State → Msg → Bool) (then_ : State → Msg → State) : State :=
  if !m.launched || m.lost || s.hopsPending m.src then s
  else if !s.passes m then { s.lose m with drops := s.drops + 1 }
  else if m.seqno != s.recvCount m.src m.dst then
    (if m.held then s else if s.heldAhead m < 8 then s.modMsg m.uid fun x => { x with held := true } else s.lose m)
  else if !room s m then s.refuse m
  else then_ (s.accept m) { m with arrived := some s.fresh, held := false }

/-- The n-th message in flight reaches its destination, or is held there and tried again: `is` picks its kind, `room` says
whether the destination takes it, `serve` what it does, with false while it must be held. Log 9: DESIGN CHOICE. -/
def State.deliver (s : State) (n : Nat) (is : Body → Bool) (room : State → Msg → Bool)
    (serve : State → Msg → State × Bool) : State :=
  let run (a : State) (m : Msg) : State :=
    let r := serve a m
    if r.2 then r.1.finishMsg m.uid else r.1
  match s.relay[n]? with
  | none => s
  | some m =>
    if !is m.body || m.served then s
    else if m.arrived.isSome then run s m
    else s.arrive m room run

/-- Every message is taken. -/
def anyRoom (_ : State) (_ : Msg) : Bool := true

/-- What a message does at its destination, at once. -/
def atOnce (f : State → Msg → State) (s : State) (m : Msg) : State × Bool := (f s m, true)

/-! ### Requests performed -/

/-- A read (R126, R127, R304). -/
def State.doRead (s : State) (m : Msg) (r : Req) : State :=
  let bad := if s.placeBad r.pl r.n then some Cause.poison else none
  (s.correct r.pl r.n).reply m r (.readRsp r (s.readThrough (.seq r.seq) r.pl r.n r.fwd) bad)

/-- A write performed; the work that issued it hears of it. -/
def State.doWrite (s : State) (r : Req) (x : W) : State :=
  (s.writeNum (.seq r.seq) r.pl r.n x.toNat).answer r.tile r.owner r.pend 0 0 0 none

/-- A write refused (R320, R428): of a work, its trap; of a commit, a FAULT event. -/
def State.refuseWrite (s : State) (r : Req) (c : Cause) : State :=
  if r.owner = 0 then s.faultEvent r.tile 0 r.seq 1 c.code
  else s.answer r.tile r.owner r.pend 0 0 0 (some (c, r.va))

/-- An atomic (R134). -/
def State.doAmo (s : State) (m : Msg) (r : Req) (op : AmoOp) (x c : W) : State :=
  if s.placeBad r.pl r.n then s.reply m r (.amoRsp r 0 0 (some .poison))
  else
    let old := BitVec.ofNat 64 (s.readNum (.seq r.seq) r.pl r.n)
    let v := amoValue op (r.n == 8) old x c
    let s1 := match v.1 with
      | some y => s.writeNum (.seq r.seq) r.pl r.n y.toNat
      | none => s
    if r.owner = 0 then s1 else s1.reply m r (.amoRsp r old v.2 none)

/-- An atomic refused. -/
def State.refuseAmo (s : State) (m : Msg) (r : Req) (c : Cause) : State :=
  if r.owner = 0 then s.faultEvent r.tile 0 r.seq 1 c.code else s.reply m r (.amoRsp r 0 0 (some c))

/-- A memory request performed, or held: false while it is held. -/
def State.perform (s : State) (m : Msg) : State × Bool :=
  match m.body with
  | .read r => (s.ready m r false false).run (fun a => a.doRead m r) fun c => s.reply m r (.readRsp r [] (some c))
  | .write r x => (s.ready m r true false).run (fun a => a.doWrite r x) fun c => s.refuseWrite r c
  | .amo r op x c => (s.ready m r true true).run (fun a => a.doAmo m r op x c) fun e => s.refuseAmo m r e
  | .readRsp .. | .amoRsp .. | .pair .. | .netop .. | .netrsp .. | .borrow | .msg .. | .creditWords .. | .creditSeq _
  | .ack _ | .recall _ | .slice .. => (s, true)

/-- A memory request delivered: accepted first, then performed or held. -/
def State.deliverReq (s : State) (n : Nat) (is : Body → Bool) : State := s.deliver n is anyRoom State.perform

/-- READREQ (R126, R257). -/
def execReadreq (n : Nat) (s : State) : Out :=
  .next (s.deliverReq n fun
    | .read _ => true
    | .readRsp .. | .write .. | .amo .. | .amoRsp .. | .pair .. | .netop .. | .netrsp .. | .borrow | .msg ..
    | .creditWords .. | .creditSeq _ | .ack _ | .recall _ | .slice .. => false)

/-- WRITE (R257). -/
def execWrite (n : Nat) (s : State) : Out :=
  .next (s.deliverReq n fun
    | .write .. => true
    | .read _ | .readRsp .. | .amo .. | .amoRsp .. | .pair .. | .netop .. | .netrsp .. | .borrow | .msg ..
    | .creditWords .. | .creditSeq _ | .ack _ | .recall _ | .slice .. => false)

/-- AMOREQ (R134, R136). -/
def execAmoreq (n : Nat) (s : State) : Out :=
  .next (s.deliverReq n fun
    | .amo .. => true
    | .read _ | .readRsp .. | .write .. | .amoRsp .. | .pair .. | .netop .. | .netrsp .. | .borrow | .msg ..
    | .creditWords .. | .creditSeq _ | .ack _ | .recall _ | .slice .. => false)

/-- READRSP (R58): the bytes reach the requester's register. -/
def execReadrsp (n : Nat) (s : State) : Out :=
  .next (s.deliver n (fun
    | .readRsp .. => true
    | .read _ | .write .. | .amo .. | .amoRsp .. | .pair .. | .netop .. | .netrsp .. | .borrow | .msg ..
    | .creditWords .. | .creditSeq _ | .ack _ | .recall _ | .slice .. => false) anyRoom (atOnce fun a m =>
    match m.body with
    | .readRsp r data bad => a.answer r.tile r.owner r.pend r.at_ (bytesV data) 0 (bad.map fun c => (c, r.va))
    | .read _ | .write .. | .amo .. | .amoRsp .. | .pair .. | .netop .. | .netrsp .. | .borrow | .msg ..
    | .creditWords .. | .creditSeq _ | .ack _ | .recall _ | .slice .. => a))

/-- AMORSP (R40, R134): the old value and the flags reach the requester. -/
def execAmorsp (n : Nat) (s : State) : Out :=
  .next (s.deliver n (fun
    | .amoRsp .. => true
    | .read _ | .readRsp .. | .write .. | .amo .. | .pair .. | .netop .. | .netrsp .. | .borrow | .msg ..
    | .creditWords .. | .creditSeq _ | .ack _ | .recall _ | .slice .. => false) anyRoom (atOnce fun a m =>
    match m.body with
    | .amoRsp r old f bad => a.answer r.tile r.owner r.pend 0 (old.setWidth 1024) f (bad.map fun c => (c, r.va))
    | .read _ | .readRsp .. | .write .. | .amo .. | .pair .. | .netop .. | .netrsp .. | .borrow | .msg ..
    | .creditWords .. | .creditSeq _ | .ack _ | .recall _ | .slice .. => a))

/-- The next request for a line that has arrived at a tile, in the order of arrival. -/
def State.nextFor (s : State) (t : TileId) (line : Nat) : Option Msg :=
  (s.relay.filter fun x => x.dst == t && !x.served && x.arrived.isSome && match x.body.req with
    | some r => match r.pl with
      | .hbm pa _ => pa / 64 == line
      | .win .. => false
    | none => false).foldl (fun a m => match a with
      | none => some m
      | some x => if m.arrived.getD 0 < x.arrived.getD 0 then some m else some x) none

/-- The requests already queued at a near buffer for its line performed, in the order of their arrival (R136). -/
def State.drainNear (s : State) (t : TileId) (line : Nat) : Nat → State
  | 0 => s
  | n + 1 => match s.nextFor t line with
    | none => s
    | some m => match s.perform m with
      | (a, true) => (a.finishMsg m.uid).drainNear t line n
      | (a, false) => a

/-- A line leaves a near buffer for its home: what is queued for it is performed first, and the tile's counter rises (R136). -/
def State.returnLine (s : State) (t : TileId) (line : Nat) : State :=
  if s.tiles[t].near.contains line then
    ((s.drainNear t line s.relay.length).modTile t fun x => { x with near := x.near.filter (· != line) }).predict t line true
  else s

/-- RECALL (R136). -/
def execRecall (n : Nat) (s : State) : Out :=
  .next (s.deliver n (fun
    | .recall _ => true
    | .read _ | .readRsp .. | .write .. | .amo .. | .amoRsp .. | .pair .. | .netop .. | .netrsp .. | .borrow | .msg ..
    | .creditWords .. | .creditSeq _ | .ack _ | .slice .. => false) anyRoom (atOnce fun a m =>
    match m.body with
    | .recall l => a.returnLine m.dst l
    | .read _ | .readRsp .. | .write .. | .amo .. | .amoRsp .. | .pair .. | .netop .. | .netrsp .. | .borrow | .msg ..
    | .creditWords .. | .creditSeq _ | .ack _ | .slice .. => a))

/-! ### Nets (R354, R355, R359, R368) -/

/-- The home of a wire end, where it is a port. -/
def State.endHome (s : State) (q : SeqId) (t : TileId) (e : WireEnd) : Option TileId :=
  match e with
  | .port l _ => some (s.homeOf q t l)
  | .none | .free _ => Option.none

/-- The dusk list of the home of an end tested (R357). -/
def State.duskEnd (s : State) (q : SeqId) (t : TileId) (e : WireEnd) : State :=
  match s.endHome q t e with
  | some h => s.duskTest q h
  | none => s

/-- RCOUNT of the node of an end. -/
def State.endRcount (s : State) (q : SeqId) (t : TileId) (e : WireEnd) : Nat :=
  match e with
  | .port l _ => hdrRcount (s.nodeWord q t l 0)
  | .none | .free _ => 0

/-- A link of a thread (R212, R217, R355): a home where a Write lowered RCOUNT to 0 tests its dusk list (R357), and the pair
that the link forms goes to its bag. -/
def State.threadLink (s : State) (q : SeqId) (t : TileId) (a b : WireEnd) (pri : Fin 4) : State :=
  let r := s.performLink q t [] a b
  let test (x : State) (e : WireEnd) : State :=
    if s.endRcount q t e != 0 && r.1.endRcount q t e == 0 then x.duskEnd q t e else x
  let s1 := test (test r.1 a) b
  match r.2 with
  | some (x, y) => s1.pushPair t (BagEntry.make q x y pri) []
  | none => s1

/-- A word of a node that NPORT reads (R219). -/
def State.portRead (s : State) (q : SeqId) (t : TileId) (node : W) (p : Fin 4) (hdr : Bool) : W × Option (Cause × W) :=
  let off := if hdr then 0 else 8 + 8 * p.val
  match s.nodePlace q t (lineOf node) with
  | none => (0, some (.xlateS1, node))
  | some pl =>
    if s.placeBad (pl.plus off) 8 then (0, some (.poison, node))
    else (BitVec.ofNat 64 (s.readNum (.seq q) (pl.plus off) 8) &&& nodeField off, none)

/-- An operation on nodes performed at a home (R354); an initialisation answers with its node. Log 33: DEDUCED. -/
def State.doNetop (s : State) (t : TileId) (q : SeqId) (op : NetOp) : State × W × Option (Cause × W) :=
  match op with
  | .link a b pri => (s.threadLink q t a b pri, 0, none)
  | .free node => (s.freeNode q t node, 0, none)
  | .init node h a => (s.initNode q t node h a, node, none)
  | .port node p hdr => let r := s.portRead q t node p hdr; (s, r.1, r.2)

/-- The line of a node, and what the walk to it reads, as the spans of accesses. -/
def State.nodeSpan (s : State) (q : SeqId) (t : TileId) (l : BitVec 50) : List (Place × Nat) :=
  s.walkSpans q t (lineAddr l) ++ (s.nodePlace q t l).toList.map fun pl => (pl, 64)

/-- The lines of the node that an end names and of the nodes on its home's dusk list, which a link may free (R357). -/
def State.endSpans (s : State) (q : SeqId) (t : TileId) (e : WireEnd) : List (Place × Nat) :=
  match e with
  | .port l _ => s.nodeSpan q t l ++ ((s.tiles[s.homeOf q t l].seqOn q).dusk.flatMap fun n => s.nodeSpan q t (lineOf n))
  | .none | .free _ => []

/-- The lines that an operation on nodes reads and writes. -/
def State.netSpans (s : State) (q : SeqId) (t : TileId) (op : NetOp) : List (Place × Nat) :=
  match op with
  | .link a b _ => s.endSpans q t a ++ s.endSpans q t b
  | .free node => s.nodeSpan q t (lineOf node)
  | .init node _ _ => s.nodeSpan q t (lineOf node)
  | .port node _ _ => s.nodeSpan q t (lineOf node)

/-- An agent's access to lines at their homes (R276): it is performed when all of them stand there, and asks for the others. -/
def State.withLines (s : State) (q : SeqId) (l : List (Place × Nat)) (f : State → State) : State × Bool :=
  if (s.absent l).isEmpty then (f (s.useLines l), true) else (s.askLines q l, false)

/-- The address that a fault of an operation on nodes names: its node, or the first end that is a port. -/
def NetOp.addr (op : NetOp) : W :=
  match op with
  | .link (.port l _) _ _ | .link _ (.port l _) _ => lineAddr l
  | .link .. => 0
  | .free node | .init node _ _ | .port node _ _ => node

/-- An operation on nodes of a die on which the sequence's key slot is void completes with KEY_VOID (R227, R428). -/
def State.netVoid (s : State) (m : Msg) (op : NetOp) (q : SeqId) (o u : Nat) : State :=
  if o = 0 then s.faultEvent m.src 0 q 1 Cause.keyVoid.code
  else s.send m.dst m.src m.part (.netrsp o u 0 (some (.keyVoid, op.addr))) []

/-- NETOP (R354). -/
def execNetop (n : Nat) (s : State) : Out :=
  .next (s.deliver n (fun
    | .netop .. => true
    | .read _ | .readRsp .. | .write .. | .amo .. | .amoRsp .. | .pair .. | .netrsp .. | .borrow | .msg ..
    | .creditWords .. | .creditSeq _ | .ack _ | .recall _ | .slice .. => false) anyRoom fun a m =>
    match m.body with
    | .netop op q o u =>
      let spans := a.netSpans q m.dst op
      if spans.any fun x => !a.keyLive q x.1.die then (a.netVoid m op q o u, true)
      else a.withLines q spans fun b =>
        let r := b.doNetop m.dst q op
        r.1.send m.dst m.src m.part (.netrsp o u r.2.1 r.2.2) []
    | .read _ | .readRsp .. | .write .. | .amo .. | .amoRsp .. | .pair .. | .netrsp .. | .borrow | .msg ..
    | .creditWords .. | .creditSeq _ | .ack _ | .recall _ | .slice .. => (a, true))

/-- NETRSP (R354). -/
def execNetrsp (n : Nat) (s : State) : Out :=
  .next (s.deliver n (fun
    | .netrsp .. => true
    | .read _ | .readRsp .. | .write .. | .amo .. | .amoRsp .. | .pair .. | .netop .. | .borrow | .msg ..
    | .creditWords .. | .creditSeq _ | .ack _ | .recall _ | .slice .. => false) anyRoom (atOnce fun a m =>
    match m.body with
    | .netrsp o u x bad => a.answer m.dst o u 0 (x.setWidth 1024) 0 bad
    | .read _ | .readRsp .. | .write .. | .amo .. | .amoRsp .. | .pair .. | .netop .. | .borrow | .msg ..
    | .creditWords .. | .creditSeq _ | .ack _ | .recall _ | .slice .. => a))

/-- A pair that arrives for a tile's bag: one lent runs there as borrowed (R359, R360, R368). -/
def State.takePair (s : State) (t : TileId) (e : BagEntry) (lent : Bool) : Option State :=
  if lent then
    (s.bagPut t { e with borrowed := true }).map fun a =>
      a.modCore t fun c => { c with sched := { c.sched with borrowed := c.sched.borrowed + 1 } }
  else s.bagPut t e

/-- A push of a sequence's pair. -/
def Body.pairOf (q : SeqId) : Body → Bool
  | .pair e _ _ => e.seq == q
  | .read _ | .readRsp .. | .write .. | .amo .. | .amoRsp .. | .netop .. | .netrsp .. | .borrow | .msg ..
  | .creditWords .. | .creditSeq _ | .ack _ | .recall _ | .slice .. => false

/-- The bag takes a pushed pair: it has room beside what the pushes refused before it will take (R360, R438). -/
def State.pairRoom (s : State) (m : Msg) : Bool :=
  match m.body with
  | .pair e _ _ => s.bagRoom m.dst e (s.refusedBefore m.dst m.uid m.refused (Body.pairOf e.seq))
  | .read _ | .readRsp .. | .write .. | .amo .. | .amoRsp .. | .netop .. | .netrsp .. | .borrow | .msg ..
  | .creditWords .. | .creditSeq _ | .ack _ | .recall _ | .slice .. => true

/-- PAIRPUSH (R359, R360). -/
def execPairpush (n : Nat) (s : State) : Out :=
  .next (s.deliver n (fun
    | .pair .. => true
    | .read _ | .readRsp .. | .write .. | .amo .. | .amoRsp .. | .netop .. | .netrsp .. | .borrow | .msg ..
    | .creditWords .. | .creditSeq _ | .ack _ | .recall _ | .slice .. => false) State.pairRoom fun a m =>
    match m.body with
    | .pair e lent d => match a.takePair m.dst e lent with
      | some x => (x.answer m.src d.1 d.2 0 0 0 none, true)
      | none => (a, false)
    | .read _ | .readRsp .. | .write .. | .amo .. | .amoRsp .. | .netop .. | .netrsp .. | .borrow | .msg ..
    | .creditWords .. | .creditSeq _ | .ack _ | .recall _ | .slice .. => (a, true))

/-- A runnable entry that may be lent to a tile (R368). -/
def State.lendable (s : State) (goal : TileId) (e : BagEntry) : Bool :=
  e.park == 0 && e.roam && !e.borrowed &&
  match s.seqs[e.seq] with
  | some x => x.rtiles.contains goal
  | none => false

/-- The entry that R368 lends: the oldest of the highest priority. -/
def State.lendOne (s : State) (t goal : TileId) : Option BagEntry :=
  let l := s.tiles[t].bag.filter (s.lendable goal)
  l.foldl (fun a e => match a with
    | none => some e
    | some x => if x.pri.val < e.pri.val then some e else some x) none

/-- The first entry equal to one removed. -/
def eraseEntry (e : BagEntry) : List BagEntry → List BagEntry
  | [] => []
  | x :: l => if x = e then l else x :: eraseEntry e l

/-- An entry taken from a tile's bag: on-chip entries of its queue are refilled from the oldest spilled, and a push refused for
room is readmitted (R360, R438). -/
def State.bagTake (s : State) (t : TileId) (e : BagEntry) : State :=
  let s1 := s.modTile t fun x =>
    let l := eraseEntry e x.bag
    let room := decide ((l.filter BagEntry.onChip).length < 256)
    let first := l.find? fun y => y.spilled && y.park == 0
    match first with
    | some f => if room then { x with bag := l.map fun y => if y = f then { y with spilled := false } else y }
      else { x with bag := l }
    | none => { x with bag := l }
  s1.readmit t (Body.pairOf e.seq)

/-- BORROW (R368): answered with a pair, or with nothing. -/
def execBorrow (n : Nat) (s : State) : Out :=
  .next (s.deliver n (fun
    | .borrow => true
    | .read _ | .readRsp .. | .write .. | .amo .. | .amoRsp .. | .pair .. | .netop .. | .netrsp .. | .msg ..
    | .creditWords .. | .creditSeq _ | .ack _ | .recall _ | .slice .. => false) anyRoom (atOnce fun a m =>
    match a.lendOne m.dst m.src with
    | some e => (a.bagTake m.dst e).send m.dst m.src m.part (.pair (a.typed m.dst { e with spilled := false }) true (0, 0)) []
    | none => a))

/-! ### Messages between tiles (R208, R209) -/

/-- Messages waiting for a sequence on a tile. -/
def State.waiting (s : State) (t : TileId) (q : SeqId) : Nat := (s.tiles[t].seqOn q).messages.length

/-- What MRECV's header register receives (R209). -/
def msgHeader (src : TileId) (tag : BitVec 16) (len : Nat) : Nat := len * 2 ^ 32 + tag.toNat * 2 ^ 16 + src.val

/-- A message to a sequence's queue. -/
def Body.msgTo (q : SeqId) : Body → Bool
  | .msg z _ _ _ _ _ => z == q
  | .read _ | .readRsp .. | .write .. | .amo .. | .amoRsp .. | .pair .. | .netop .. | .netrsp .. | .borrow
  | .creditWords .. | .creditSeq _ | .ack _ | .recall _ | .slice .. => false

/-- The queue of 32 takes a message: it has room beside what the messages refused before it will take (R208, R438). -/
def State.msgRoom (s : State) (m : Msg) : Bool :=
  match m.body with
  | .msg q _ _ _ _ _ => decide (s.waiting m.dst q + s.refusedBefore m.dst m.uid m.refused (Body.msgTo q) < 32)
  | .read _ | .readRsp .. | .write .. | .amo .. | .amoRsp .. | .pair .. | .netop .. | .netrsp .. | .borrow
  | .creditWords .. | .creditSeq _ | .ack _ | .recall _ | .slice .. => true

/-- The oldest waiting message given to the MRECV that has waited longest; room has come free in the queue (R209, R438). -/
def State.serveMsg (s : State) (t : TileId) (q : SeqId) : State :=
  let x := s.tiles[t].seqOn q
  match x.messages, x.recvs with
  | (src, tag, len, data) :: ms, (o, u) :: rs =>
    let s1 := s.modTileSeq t q fun y => { y with messages := ms, recvs := rs }
    let v : V := BitVec.ofNat 1024 (msgHeader src tag len * 2 ^ 512 + data.toNat % 2 ^ (8 * len))
    (s1.answer t o u 0 v 0 none).readmit t (Body.msgTo q)
  | _, _ => s

/-- MSG (R208): the message joins the queue of 32, the sequence's events on the tile are set, and its sender's MSEND is
performed (R210). -/
def execMsg (n : Nat) (s : State) : Out :=
  .next (s.deliver n (fun
    | .msg .. => true
    | .read _ | .readRsp .. | .write .. | .amo .. | .amoRsp .. | .pair .. | .netop .. | .netrsp .. | .borrow
    | .creditWords .. | .creditSeq _ | .ack _ | .recall _ | .slice .. => false)
    State.msgRoom (atOnce fun a m =>
    match m.body with
    | .msg q o u tag len data =>
      let s1 := a.modTileSeq m.dst q fun y => { y with messages := y.messages ++ [(m.src, tag, len, data)] }
      ((s1.wake m.dst (some q)).serveMsg m.dst q).answer m.src o u 0 0 0 none
    | .read _ | .readRsp .. | .write .. | .amo .. | .amoRsp .. | .pair .. | .netop .. | .netrsp .. | .borrow
    | .creditWords .. | .creditSeq _ | .ack _ | .recall _ | .slice .. => a))

/-- CREDIT (R184, R205, R438): credits for a circuit, or room for a refused message, which is sent again at once. -/
def execCredit (n : Nat) (s : State) : Out :=
  .next (s.deliver n (fun
    | .creditWords .. | .creditSeq _ => true
    | .read _ | .readRsp .. | .write .. | .amo .. | .amoRsp .. | .pair .. | .netop .. | .netrsp .. | .borrow | .msg ..
    | .ack _ | .recall _ | .slice .. => false) anyRoom (atOnce fun a m =>
    match m.body with
    | .creditWords h k => a.modCircuit h fun c => { c with credits := c.credits + k }
    | .creditSeq k =>
      let again (x : Msg) : Msg :=
        if x.src = m.dst ∧ x.dst = m.src ∧ x.seqno = k ∧ x.turnedAway && x.lost then
          { x with lost := false, last := s.domain.sid, struck := false }
        else x
      { a with relay := a.relay.map again }
    | .read _ | .readRsp .. | .write .. | .amo .. | .amoRsp .. | .pair .. | .netop .. | .netrsp .. | .borrow | .msg ..
    | .ack _ | .recall _ | .slice .. => a))

/-! ### ACK and resending (R259) -/

/-- An ACK reaches the sender, which keeps its message no longer and may send another (R259); one that its way does not take is
dropped and counted (R257). -/
def State.ackArrives (s : State) (m : Msg) (k : BitVec 16) : State :=
  let mine (x : Msg) : Bool := x.src == m.dst && x.dst == m.src && x.seqno == k && x.arrived.isSome && !x.body.isAck
  let l := s.relay.filter fun x => x.uid != m.uid
  if s.hopsPending m.src then s
  else if !s.passes m then { s with relay := l, drops := s.drops + 1 }
  else
    ({ s with relay := (l.filter fun x => !(mine x && x.served)).map fun x => if mine x then { x with acked := true } else x } :
      State).pump

/-- ACK. -/
def execAck (n : Nat) (s : State) : Out :=
  match s.relay[n]? with
  | none => .next s
  | some m => match m.body with
    | .ack k => .next (s.ackArrives m k)
    | .read _ | .readRsp .. | .write .. | .amo .. | .amoRsp .. | .pair .. | .netop .. | .netrsp .. | .borrow | .msg ..
    | .creditWords .. | .creditSeq _ | .recall _ | .slice .. => .next s

/-- ACK_FORCED: an ACK that has waited 4,096 slots goes ahead of other messages. -/
def execAckForced (n : Nat) (s : State) : Out :=
  match s.relay[n]? with
  | none => .next s
  | some m => match m.body with
    | .ack k => .next ((s.until (m.last + 4096)).ackArrives m k)
    | .read _ | .readRsp .. | .write .. | .amo .. | .amoRsp .. | .pair .. | .netop .. | .netrsp .. | .borrow | .msg ..
    | .creditWords .. | .creditSeq _ | .recall _ | .slice .. => .next s

/-- RELAY_RESEND: a message that has not been acknowledged 16,384 slots after its last sending is sent again; a duplicate is
dropped and its ACK sent again (R259, R438). -/
def execRelayResend (n : Nat) (s : State) : Out :=
  match s.relay[n]? with
  | none => .next s
  | some m =>
    if m.body.isAck || !m.launched || m.acked then .next s
    else
      let s1 := s.until (m.last + 16384)
      let s2 := s1.modMsg m.uid fun x => { x with lost := false, last := s1.domain.sid, struck := false }
      .next (if m.arrived.isSome then s2.send m.dst m.src m.part (.ack m.seqno) [] else s2)

/-! ### Ordered reduction at the home (R166, R167) -/

/-- The two words of an object's header. -/
def State.reductionHead (s : State) (q : SeqId) (pl : Place) : Nat × Nat :=
  (s.readNum (.seq q) pl 8, s.readNum (.seq q) (pl.plus 8) 8)

/-- A bit of an object's second word set. -/
def State.reductionFlag (s : State) (q : SeqId) (pl : Place) (bits : Nat) : State :=
  s.writeNum (.seq q) (pl.plus 8) 8 ((s.readNum (.seq q) (pl.plus 8) 8).lor bits)

/-- The place of element i of SUM: 16 in each of the object's second and third lines, which may have homes of their own (R166,
R404). -/
def Req.sumAt (r : Req) (i : Nat) : Place := (r.more.getD (i / 16) (r.pl.plus (64 + 64 * (i / 16)))).plus (4 * (i % 16))

/-- The spans of an object: its header's line and the two lines of SUM. -/
def Req.objectSpans (r : Req) : List (Place × Nat) := [(r.pl, 64), (r.sumAt 0, 64), (r.sumAt 16, 64)]

/-- A slice merged (R50, R167): every sum rounded to nearest even, the flags kept, then NEXTSLICE. -/
def State.mergeSlice (s : State) (r : Req) (data : V) : State :=
  let p := Party.seq r.seq
  let one (i : Nat) : Nat × BitVec 6 := addNum Fmt.f32 .rne false
    (unpack Fmt.f32 (s.readNum p (r.sumAt i) 4)) (unpack Fmt.f32 (elem 4 data i))
  let sums := (List.range 32).map one
  let s1 := sums.zipIdx.foldl (fun a x => a.writeNum p (r.sumAt x.2) 4 x.1.1) s
  let s2 := s1.reductionFlag r.seq r.pl ((orAll (sums.map (·.2))).toNat % 32)
  let h := s2.readNum p r.pl 8
  s2.writeNum p r.pl 8 (h / 2 ^ 32 * 2 ^ 32 + (h % 2 ^ 32 + 1) % 2 ^ 32)

/-- The early slices of an object, wherever they are held. -/
def State.heldSlices (s : State) (obj : Nat) : List (Nat × V × K) :=
  (s.reductions.filter fun x => x.obj == obj).flatMap (·.held)

/-- An early slice held. -/
def State.holdSlice (s : State) (q : SeqId) (w : Hold) (obj : Nat) (x : Nat × V × K) : State :=
  let mine (y : Reduction) : Bool := y.hold == w && y.obj == obj
  if s.reductions.any mine then
    { s with reductions := s.reductions.map fun y => if mine y then { y with held := y.held ++ [x] } else y }
  else { s with reductions := s.reductions ++ [{ seq := q, obj := obj, hold := w, held := [x] }] }

/-- An early slice of an object leaves its hold. -/
def State.dropSlice (s : State) (obj idx : Nat) : State :=
  { s with reductions := (s.reductions.map fun (y : Reduction) =>
      if y.obj == obj then { y with held := y.held.filter fun z => z.1 != idx } else y).filter fun y => !y.held.isEmpty }

/-- Early slices held in one place for all objects (R167, R278). -/
def State.holdCount (s : State) (w : Hold) : Nat :=
  ((s.reductions.filter fun x => x.hold == w).map fun x => x.held.length).foldl (· + ·) 0

/-- Whether a message carries a slice. -/
def Body.isSlice : Body → Bool
  | .slice .. => true
  | .read _ | .readRsp .. | .write .. | .amo .. | .amoRsp .. | .pair .. | .netop .. | .netrsp .. | .borrow | .msg ..
  | .creditWords .. | .creditSeq _ | .ack _ | .recall _ => false

/-- Held slices merged while the one at NEXTSLICE is present. -/
def State.mergeHeld (s : State) (r : Req) (obj : Nat) : Nat → State
  | 0 => s
  | n + 1 =>
    let next := s.readNum (.seq r.seq) r.pl 8 % 2 ^ 32
    match (s.heldSlices obj).find? fun x => x.1 == next with
    | none => s
    | some x => (((s.mergeSlice r x.2.1).dropSlice obj next).readmit r.pl.server Body.isSlice).mergeHeld r obj n

/-- The key of an object: its physical address. -/
def Place.key : Place → Nat
  | .hbm pa _ => pa
  | .win t off => storeKey t off

/-- Where a home's early slices are held: at the port while the home is in bypass (R278). -/
def State.holdOf (s : State) (pl : Place) : Hold :=
  match pl with
  | .hbm pa home => if s.tiles[home].inReset then .port (portOf pa) else .bank home
  | .win t _ => .bank t

/-- A slice would have to be held (R167). -/
def State.sliceEarly (s : State) (r : Req) (idx : Nat) : Bool :=
  let h := (s.reductionHead r.seq r.pl).1
  decide (h % 2 ^ 32 < idx) && decide (idx < h / 2 ^ 32) && !((s.heldSlices r.pl.key).any fun x => x.1 == idx)

/-- The hold takes a slice, where it would have to be held, beside `before` slices refused earlier. -/
def State.sliceRoom (s : State) (r : Req) (idx before : Nat) : Bool :=
  !s.sliceEarly r idx || decide (s.holdCount (s.holdOf r.pl) + before < 32)

/-- The hold takes the slice of a message (R167, R438). -/
def State.sliceMsgRoom (s : State) (m : Msg) : Bool :=
  match m.body with
  | .slice r idx _ _ => s.sliceRoom r idx (s.refusedBefore m.dst m.uid m.refused Body.isSlice)
  | .read _ | .readRsp .. | .write .. | .amo .. | .amoRsp .. | .pair .. | .netop .. | .netrsp .. | .borrow | .msg ..
  | .creditWords .. | .creditSeq _ | .ack _ | .recall _ => true

/-- A slice contributed at the object's home (R167). -/
def State.contribute (s : State) (r : Req) (idx : Nat) (data : V) (mask : K) : State :=
  let obj := r.pl.key
  let h := (s.reductionHead r.seq r.pl).1
  if h / 2 ^ 32 ≤ idx then s.reductionFlag r.seq r.pl (2 ^ 7)
  else if idx < h % 2 ^ 32 then s.reductionFlag r.seq r.pl (2 ^ 6)
  else if h % 2 ^ 32 < idx then
    (if (s.heldSlices obj).any fun x => x.1 == idx then s.reductionFlag r.seq r.pl (2 ^ 5)
     else s.holdSlice r.seq (s.holdOf r.pl) obj (idx, data, mask))
  else (s.mergeSlice r data).mergeHeld r obj 65

/-- The contributor of a slice hears of it (R168); one that finds the object poisoned is not contributed (R304). Log 68: DEDUCED. -/
def State.doSlice (s : State) (r : Req) (idx : Nat) (data : V) (mask : K) : State :=
  if r.objectSpans.any fun x => s.placeBad x.1 x.2 then
    (if r.owner = 0 then s.faultEvent r.tile 0 r.seq 1 Cause.poison.code
     else s.answer r.tile r.owner r.pend 0 0 0 (some (.poison, r.va)))
  else (s.contribute r idx data mask).answer r.tile r.owner r.pend 0 0 0 none

/-- SLICE_ARRIVAL (R167): a slice that cannot reach its object's lines yet waits before it is accepted; one that finds the hold
full is refused. -/
def execSliceArrival (n : Nat) (s : State) : Out :=
  match s.relay[n]? with
  | none => .next s
  | some m => match m.body with
    | .slice r idx data mask =>
      if !s.inOrder m then .next (s.deliver n Body.isSlice anyRoom fun a _ => (a, false))
      else match s.ready m r true false with
        | .hold s1 => .next s1
        | .refuse c =>
          .next (s.deliver n Body.isSlice anyRoom (atOnce fun a _ =>
            if r.owner = 0 then a.faultEvent r.tile 0 r.seq 1 c.code
            else a.answer r.tile r.owner r.pend 0 0 0 (some (c, r.va))))
        | .go s1 =>
          let sums := r.objectSpans.drop 1
          if (s1.absent sums).isEmpty then
            .next ((s1.useLines sums).deliver n Body.isSlice State.sliceMsgRoom (atOnce fun a _ => a.doSlice r idx data mask))
          else .next (s1.askLines r.seq sums)
    | .read _ | .readRsp .. | .write .. | .amo .. | .amoRsp .. | .pair .. | .netop .. | .netrsp .. | .borrow | .msg ..
    | .creditWords .. | .creditSeq _ | .ack _ | .recall _ => .next s

/-! ### The words -/

/-- Messages that a tile buffers on their way out (R208). -/
def State.outgoing (s : State) (t : TileId) : Nat :=
  (s.relay.filter fun m => m.src == t && m.arrived.isNone && m.body.isMsend).length

/-- The tile that MSEND's register names. -/
def msgTile (g : W) : TileId := ⟨g.toNat % 1024, by omega⟩

/-- The next-hop table's entry for a tile (R258). -/
def State.hopTo (s : State) (t dst : TileId) : Fin 8 :=
  s.tiles[t].nextHop[(⟨blockOf dst % 64, by omega⟩ : Fin 64)]

/-- The checks of MSEND (R208, R258): the destination lies in the partition; the buffer has room. -/
def State.msendCheck (s : State) (g : W) : Verdict :=
  (if s.inPart (partOf s.q) (msgTile g) && (s.hopsPending s.cur || s.hopTo s.cur (msgTile g) != 0) then Verdict.pass
   else .trap .permission g).andThen
  (if s.rewriting.isNone && (16 ≤ s.outgoing s.cur || s.hopsPending s.cur) then .wait else .pass)

/-- MSEND: a release at domain scope; a commit entry in a rewrite (R189). -/
def execMsend (a : GReg) (v : VReg) (l : Fin 64) (s : State) : Out :=
  s.word (s.msendCheck (s.g a)) fun s =>
    let dst := msgTile (s.g a)
    let tag : BitVec 16 := (s.g a).extractLsb' 16 16
    let len := l.val + 1
    let data : BitVec 512 := BitVec.ofNat 512 ((s.v v).toNat % 2 ^ (8 * len))
    match s.rewriting with
    | some _ => s.commit (.send dst tag len data)
    | none =>
      let after := s.releaseAfter
      ((s.pend (Pend.make s.fresh .none .drop 1 true false s.issue.ba).release).bump).send s.cur dst (partOf s.q)
        (.msg s.q s.strand.owner s.fresh tag len data) after

/-- MRECV: an acquire at domain scope; its destinations are marked until a message has come (R209, R339). -/
def execMrecv (d : GReg) (v : VReg) (s : State) : Out :=
  s.word ((s.illegalIf s.rewriting.isSome).andThen (s.acquireWait.andThen s.releaseWait)) fun s =>
    let p := { Pend.make s.fresh (gDest d) .message 1 true true s.issue.ba with dest2 := .v v }
    let s1 := ((s.pend p).bump).modTileSeq s.cur s.q fun y => { y with recvs := y.recvs ++ [(s.strand.owner, s.fresh)] }
    s1.serveMsg s.cur s.q

/-- MPOLL (R209). -/
def execMpoll (d : GReg) (s : State) : Out :=
  s.word .pass fun s => s.scalar d (BitVec.ofNat 64 (s.waiting s.cur s.q)) 1

end Sys2Proof.Machine
end

