-- ==== Sys2Proof/Machine/Threads.lean ====
section
/-! DEFINITION. The start of threads (spec/23 R379, R380) and spawns (spec/10 R220). -/

namespace Sys2Proof.Machine

/-! ### Entries, frames and strands -/

/-- The lowest-numbered free strand (R379). -/
def Core.freeStrand (c : Core) : Option StrandId :=
  (List.finRange 8).find? fun k => c.strands[k].work == .free && (match c.loading with
    | some (j, _) => j != k
    | none => true)

/-- The lowest-numbered free entry of the thread table. -/
def Core.freeEntry (c : Core) : Option (Fin 32) := (List.finRange 32).find? fun i => c.threads[i].isNone

/-- The entries that a sequence holds on a tile (R379). -/
def Core.held (c : Core) (q : SeqId) : List Thread :=
  (c.threads.toList.filterMap id).filter fun th => th.seq == q

/-- A frame of a sequence on a tile that no thread of it holds. -/
def State.freeFrame (s : State) (t : TileId) (q : SeqId) : Option Page :=
  match s.seqs[q] with
  | none => none
  | some x =>
    let used := (s.tiles[t].core.held q).map (·.frame)
    ((x.frameAt.filter fun f => f.1 == t).map (·.2)).find? fun p => !used.contains p

/-- The context with which a thread starts (R380). -/
def Ctx.start (entry arg : W) : Ctx :=
  let c := Ctx.zero
  { c with pc := entry, regs := { c.regs with g := c.regs.g.set 1 arg } }

/-- A thread of a sequence started on a tile: on the lowest-numbered free strand, SAVED in its frame where there is none
(R380). None where the thread table is full or the sequence holds FRAMES entries there. -/
def State.startThread (s : State) (t : TileId) (q : SeqId) (ix : Nat) (arg : W) (pri : Fin 4) : Option State :=
  let c := s.tiles[t].core
  match s.seqs[q], c.freeEntry, s.freeFrame t q with
  | some x, some i, some f =>
    if x.frames ≤ (c.held q).length then none
    else
      let ctx := Ctx.start (x.image.threads.getD ix 0) arg
      let s1 := s.bump
      let th (st : ThreadState) : Thread :=
        { owner := s.fresh, seq := q, entryIx := ix, state := st, pri := pri, ready := 0, saved := ctx, frame := f,
          mapped := false, accs := false }
      match c.freeStrand with
      | some k =>
        let strand : Strand := { Strand.zero with work := .thread i, owner := s.fresh, seq := q, ctx := ctx, pri := pri }
        some ((s1.modStrandAt t k fun _ => strand).modCore t fun y =>
          { y with threads := y.threads.set i (some (th (.resident k))) })
      | none =>
        some ((s1.modCore t fun y => { y with threads := y.threads.set i (some (th .saved)) }).writeFrame t (th .saved) ctx)
  | _, _, _ => none

/-- A spawn on a tile (R220, R380): started at once, or held behind those held before it and while there is no room or spawns
are stopped (R393). Log 38: DEDUCED. -/
def State.spawnAt (s : State) (t : TileId) (q : SeqId) (ix : Nat) (arg : W) (pri : Fin 4) : State :=
  let x := s.tiles[t].core.sched
  let hold := s.modCore t fun c =>
    { c with sched := { c.sched with held := c.sched.held ++ [{ seq := q, entry := ix, arg := arg, pri := pri }] } }
  if x.stopped || !x.held.isEmpty then hold else (s.startThread t q ix arg pri).getD hold

/-- HELD_SPAWN_START: the oldest held spawn starts where there is room for it (R380). -/
def execHeldSpawnStart (t : TileId) (s : State) : Out :=
  let x := s.tiles[t].core.sched
  match x.held with
  | [] => .next s
  | h :: rest =>
    if x.stopped then .next s
    else .next (((s.modCore t fun c => { c with sched := { c.sched with held := rest } }).startThread t h.seq h.entry h.arg
      h.pri).getD s)

end Sys2Proof.Machine
end

