-- ==== Sys2Proof/Machine/NetWords.lean ====
section
/-! DEFINITION. The net words and the end of a rewrite by commit (spec/10 R211–R223, spec/22 R355, R366, R367; major 0x1D). -/

namespace Sys2Proof.Machine

/-! ### Checks (R213) -/

/-- An address lies in a tile window, as the load/store TLB maps it. -/
def State.inWindow (s : State) (va : W) : Bool :=
  match s.tile.tlbLoad.find? fun e => e.covers s.q va with
  | some e => e.window.isSome
  | none => false

/-- What a rewrite has allocated at an address: the header and the payload address. -/
def Rewrite.allocated (r : Rewrite) (va : W) : Option (W × W) := (r.allocs.find? fun x => x.1 == va).map (·.2)

/-- A rewrite names only the nodes that it claims or has allocated. -/
def State.ownNode (s : State) (va : W) : Verdict :=
  match s.rewriting with
  | none => .pass
  | some r => if va = r.node1 ∨ va = r.node2 ∨ (r.allocated va).isSome then .pass else .trap .permission va

/-- The rows of R213's table before the arity, for every node operand of a word: a row is checked for all of them before the next. -/
def State.nodesCheck (s : State) (l : List W) : Verdict :=
  let row (f : W → Verdict) : Verdict := l.foldl (fun a va => a.andThen (f va)) .pass
  ((row fun va => if va.toNat % 64 ≠ 0 then .trap .misalign va else .pass).andThen
    (row fun va => if s.inWindow va then .trap .permission va else .pass)).andThen
    ((row fun va => s.accessCheck .read 64 va 64).andThen (row s.ownNode))

/-- The checks of a node operand (R213, R99). -/
def State.nodeCheck (s : State) (va : W) : Verdict := s.nodesCheck [va]

/-- A node's header as R213 reads it. -/
def State.headerOf (s : State) (va : W) : W :=
  match s.rewriting.bind fun r => r.allocated va with
  | some x => x.1
  | none => s.nodeWord s.q s.cur (lineOf va) 0

/-- A node's header granule carries poison: the check of the arity consumes it (R304). -/
def State.headerBad (s : State) (va : W) : Bool :=
  match s.rewriting.bind fun r => r.allocated va with
  | some _ => false
  | none => match s.nodePlace s.q s.cur (lineOf va) with
    | some pl => s.placeBad pl 8
    | none => false

/-- A port index above the node's arity (R213). -/
def State.arityCheck (s : State) (va : W) (p : Fin 4) : Verdict :=
  if s.headerBad va then .trap .poison va
  else if hdrArity (s.headerOf va) < p.val then .trap .permission va
  else .pass

/-- A word only of rewrites (R212). -/
def State.inRewrite (s : State) : Verdict := s.illegalIf s.rewriting.isNone

/-! ### Acts of threads (R212) -/

/-- An operation of a thread at a home: at once on its own tile when no earlier operation holds it back and its lines stand there, as a
message otherwise; a release at domain scope and a memory word (R132, R212). `d` receives what it answers, where that is a result.
Log 33: DEDUCED. -/
def State.netAct (s : State) (home : TileId) (op : NetOp) (d : Dest) : State :=
  let after := s.releaseAfter
  let spans := s.netSpans s.q s.cur op
  if home = s.cur ∧ after = [] ∧ s.absent spans = [] then
    let r := (s.useLines spans).doNetop s.cur s.q op
    if d = .none then r.1 else r.1.later d (r.2.1.setWidth 1024) 1
  else
    let p := (Pend.make s.fresh d (if d = .none then .drop else .word) 1 true false s.issue.ba).release
    ((s.pend p).bump).send s.cur home (partOf s.q) (.netop op s.q s.strand.owner s.fresh) after

/-- A push of a thread (R218). -/
def State.pushAct (s : State) (e : BagEntry) : State :=
  let after := s.releaseAfter
  let home := s.homeOf e.seq s.cur e.lineA
  if home = s.cur ∧ after = [] then s.pushPair s.cur e []
  else
    let p := (Pend.make s.fresh .none .drop 1 true false s.issue.ba).release
    ((s.pend p).bump).send s.cur home (partOf s.q) (.pair (s.typed s.cur e) false (s.strand.owner, s.fresh)) after

/-! ### NALLOC (R215, R358) -/

/-- The sequence's node budget gives no further page (R215, R357). Log 37: DEDUCED. -/
def State.budgetSpent (s : State) : Bool :=
  match s.seqs[s.q] with
  | some x => decide (x.nodesLeft < 64)
  | none => true

/-- A thread waits on an empty pool until the refill; once the budget is exhausted it goes on with gd := 0. -/
def State.allocCheck (s : State) (template : W) : Verdict :=
  if s.rewriting.isNone && (s.takeNode s.q s.cur template).isNone && !s.budgetSpent then .wait else .pass

/-- A rewrite finds the pool empty: it is discarded, and its pair parked until the refill; the VF hears of an exhausted
budget (R215, R305). -/
def State.poolEmpty (s : State) (r : Rewrite) : State :=
  let s1 := if s.budgetSpent then s.seqEvent (dieOf s.cur) s.q 0x0002 [BitVec.ofNat 64 s.cur.val] else s
  ((s1.discard s.cur s.curK r (.park 2)).switchEvent s.cur).atEnd

/-- NALLOC's effect (R215): in a thread the node is initialised at its home before gd receives its address. -/
def State.alloc (s : State) (d : GReg) (template : W) : State :=
  let header := hdrInit template
  match s.takeNode s.q s.cur template, s.rewriting with
  | none, none => s.later (gDest d) 0 1
  | none, some r => s.poolEmpty r
  | some (s1, node, addr), none =>
    (s1.netAct s.cur (.init node header addr) (gDest d)).modCounts s.q fun c => { c with allocs := c.allocs + 1 }
  | some (s1, node, addr), some _ =>
    ((s1.modRewrite fun r => { r with allocs := r.allocs ++ [(node, header, addr)] }).later (gDest d)
      (node.setWidth 1024) 1).commit (.init node header addr)

/-- NALLOC. -/
def execNalloc (d h : GReg) (s : State) : Out :=
  s.word ((s.allocCheck (s.g h)).andThen s.acquireWait) fun s => s.alloc d (s.g h)

/-! ### NFREE, NLINK, NPUSH, NPORT, SPAWN -/

/-- NFREE (R216). -/
def execNfree (n : GReg) (s : State) : Out :=
  s.word ((s.nodeCheck (s.g n)).andThen s.acquireWait) fun s =>
    match s.rewriting with
    | some _ => (s.touch (s.g n)).commit (.free (s.g n))
    | none => (s.touch (s.g n)).netAct (s.homeOf s.q s.cur (lineOf (s.g n))) (.free (s.g n)) .none

/-- The second end of NLINK: a free variable where its gb field is 0 (R353). -/
def State.linkEnd (s : State) (m : GReg) (q : Fin 4) : WireEnd :=
  if m = 0 then .free q else .port (lineOf (s.g m)) q

/-- The checks of NLINK (R213). -/
def State.linkCheck (s : State) (n m : GReg) (q p : Fin 4) : Verdict :=
  let a := s.g n
  let b := s.g m
  let other := m != 0
  (s.nodesCheck (if other then [a, b] else [a])).andThen <|
    ((s.arityCheck a p).andThen (if other then s.arityCheck b q else .pass)).andThen <|
      (if other && a == b && p == q then Verdict.trap .permission a else .pass).andThen s.acquireWait

/-- NLINK (R217, R353). -/
def execNlink (n m : GReg) (r q p : Fin 4) (s : State) : Out :=
  s.word (s.linkCheck n m q p) fun s =>
    let a := WireEnd.port (lineOf (s.g n)) p
    let b := s.linkEnd m q
    let s1 := s.touch (s.g n)
    match s.rewriting with
    | some _ => s1.commit (.link a b r)
    | none =>
      let low := if m ≠ 0 ∧ (lineOf (s.g m)).toNat < (lineOf (s.g n)).toNat then lineOf (s.g m) else lineOf (s.g n)
      s1.netAct (s.homeOf s.q s.cur low) (.link a b r) .none

/-- NPUSH (R218). -/
def execNpush (n m : GReg) (r : Fin 4) (s : State) : Out :=
  s.word ((s.nodesCheck [s.g n, s.g m]).andThen s.acquireWait) fun s =>
    match s.rewriting with
    | some _ => s.commit (.push (s.g n) (s.g m) r)
    | none => s.pushAct (BagEntry.make s.q (lineOf (s.g n)) (lineOf (s.g m)) r)

/-- NPORT's read (R219): of an allocated node through its buffered initialisation; at once where the node is homed on the
tile; otherwise by a message to its home. -/
def State.portWordTo (s : State) (d : GReg) (va : W) (p : Fin 4) (hdr : Bool) : State :=
  match s.rewriting.bind fun r => r.allocated va with
  | some x => s.later (gDest d) ((if hdr then x.1 else 0).setWidth 1024) 1
  | none =>
    let home := s.homeOf s.q s.cur (lineOf va)
    if home = s.cur && (s.absent (s.nodeSpan s.q s.cur (lineOf va))).isEmpty then
      let s1 := s.useLines (s.nodeSpan s.q s.cur (lineOf va))
      let r := s1.portRead s.q s.cur va p hdr
      match r.2 with
      | some (_, a) => s1.fly fun m ba => { Landing.of (gDest d) 0 (m + 1) ba with fault := some a }
      | none => s1.later (gDest d) (r.1.setWidth 1024) 1
    else
      let x := Pend.make s.fresh (gDest d) .word 1 true false s.issue.ba
      ((s.pend x).bump).send s.cur home (partOf s.q) (.netop (.port va p hdr) s.q s.strand.owner s.fresh) s.acquires

/-- NPORT. -/
def execNport (d n : GReg) (h : Bool) (p : Fin 4) (s : State) : Out :=
  s.word (((s.nodeCheck (s.g n)).andThen (s.arityCheck (s.g n) p)).andThen s.acquireWait) fun s =>
    (s.touch (s.g n)).portWordTo d (s.g n) p h

/-- SPAWN's entry lies in the image's thread table (R220); a thread's spawn, a release, waits for its earlier memory words.
Log 38: DEDUCED. -/
def State.spawnCheck (s : State) (ix : W) : Verdict :=
  let n := match s.seqs[s.q] with
    | some x => x.image.threads.length
    | none => 0
  (s.illegalIf (decide (n ≤ ix.toNat))).andThen
    (if s.rewriting.isNone && !s.releaseAfter.isEmpty then .wait else .pass)

/-- SPAWN (R220, R380). -/
def execSpawn (i x : GReg) (s : State) : Out :=
  s.word (s.spawnCheck (s.g i)) fun s =>
    match s.rewriting with
    | some _ => s.commit (.spawn (s.g i).toNat (s.g x))
    | none => s.spawnAt s.cur s.q (s.g i).toNat (s.g x) s.strand.pri

/-! ### RCOMMIT (R221, R366, R367) -/

/-- A request of a commit: it belongs to no work (number 0). -/
def commitReq (q : SeqId) (t : TileId) (pl : Place) (n : Nat) (va : W) : Req :=
  { pl := pl, n := n, seq := q, tile := t, owner := 0, pend := 0, at_ := 0, va := va, fwd := [], more := [] }

/-- The request of a commit's slice, with the lines of its object. -/
def sliceReq (q : SeqId) (t : TileId) (va : W) (pl : Place) (more : List Place) : Req :=
  { commitReq q t pl 192 va with more := more }

/-- Whether an entry's access can be performed now. -/
def State.commitServe (s : State) (r : Req) : Serve :=
  match r.pl with
  | .hbm _ home => if s.keyLive r.seq (dieOf home) then .go s else .refuse .keyVoid
  | .win u off => s.windowReady r u off true

/-- The requests of an entry. -/
def Commit.reqs (e : Commit) (q : SeqId) (t : TileId) : List Req :=
  match e with
  | .stores cells => cells.map fun c => commitReq q t c.1 c.2.2.1 c.2.1
  | .amos _ wide cells => cells.map fun c => commitReq q t c.1 (if wide then 8 else 4) c.2.1
  | .slice va pl more _ _ _ => [sliceReq q t va pl more]
  | .init .. | .link .. | .free _ | .push .. | .spawn .. | .send .. => []

/-- The lines that an entry reads and writes at their homes (R276), those of the nodes at the far ends of its links and cuts
included. -/
def State.entrySpans (s : State) (q : SeqId) (t : TileId) (mine : List (BitVec 50)) (e : Commit) : List (Place × Nat) :=
  let both (x : WireEnd) : List (Place × Nat) := s.endSpans q t x ++ s.endSpans q t (s.far q t mine x)
  match e with
  | .stores _ | .amos .. => (e.reqs q t).map fun r => (r.pl, r.n)
  | .slice .. => (e.reqs q t).flatMap Req.objectSpans
  | .init n _ _ => s.nodeSpan q t (lineOf n)
  | .link a b _ => both a ++ both b
  | .free n => s.nodeSpan q t (lineOf n) ++
      (List.finRange 4).flatMap fun p => s.endSpans q t (wordEnd (s.nodeWord q t (lineOf n) (8 + 8 * p.val)))
  | .push .. | .spawn .. | .send .. => []

/-- The lines that a rewrite's commit reads and writes. -/
def State.commitSpans (s : State) (q : SeqId) (t : TileId) (r : Rewrite) : List (Place × Nat) :=
  let mine := [lineOf r.node1, lineOf r.node2]
  mine.flatMap (s.nodeSpan q t) ++ r.buf.flatMap (s.entrySpans q t mine)

/-- An entry must wait: a pane is in engine use (R323). -/
def State.entryWaits (s : State) (q : SeqId) (t : TileId) (e : Commit) : Bool :=
  (e.reqs q t).any fun r => match s.commitServe r with
    | .hold _ => true
    | .go _ | .refuse _ => false

/-- A work holds a tile's matrix unit (R172). -/
def State.heldBy (s : State) (t : TileId) (owner : Nat) : Bool :=
  match s.tiles[t].matrix.holder with
  | some (o, _) => o == owner
  | none => false

/-- A commit can be performed: the rewrite's words of the matrix unit have been performed, no entry waits (R221), and the lines that it
uses stand at their homes (R276). Log 34: DESIGN CHOICE. -/
def State.commitReady (s : State) (t : TileId) (k : StrandId) (r : Rewrite) : Bool :=
  let x := s.strandAt t k
  !(s.heldBy t x.owner && !s.tiles[t].matrix.queue.isEmpty) && !r.buf.any (s.entryWaits x.seq t) &&
    (s.absent (s.commitSpans x.seq t r)).isEmpty

/-- An access of a commit performed, or refused with a FAULT event (R320, R428). -/
def State.commitAccess (s : State) (r : Req) (act : State → State) : State :=
  match s.commitServe r with
  | .go s1 => act s1
  | .hold s1 => s1
  | .refuse c => s.faultEvent r.tile 0 r.seq 1 c.code

/-- An atomic of a commit (R134). -/
def State.commitAmo (s : State) (r : Req) (op : AmoOp) (wide : Bool) (x c : W) : State :=
  if s.placeBad r.pl r.n then s.faultEvent r.tile 0 r.seq 1 Cause.poison.code
  else match (amoValue op wide (BitVec.ofNat 64 (s.readNum (.seq r.seq) r.pl r.n)) x c).1 with
    | some y => s.writeNum (.seq r.seq) r.pl r.n y.toNat
    | none => s

/-- One entry performed, and what it leaves for the time after the claim's release (R221, R366). A slice that finds the hold full is
resent by the tile until it is accepted (R167). Log 34: DESIGN CHOICE. -/
def State.performEntry (q : SeqId) (t : TileId) (mine : List (BitVec 50)) (a : State × List Commit) (e : Commit) :
    State × List Commit :=
  let s := a.1
  match e with
  | .stores cells =>
    (cells.foldl (fun b c => b.commitAccess (commitReq q t c.1 c.2.2.1 c.2.1) fun x =>
      x.writeNum (.seq q) c.1 c.2.2.1 c.2.2.2.toNat) s, a.2)
  | .amos op wide cells =>
    (cells.foldl (fun b c =>
      let r := commitReq q t c.1 (if wide then 8 else 4) c.2.1
      b.commitAccess r fun x => x.commitAmo r op wide c.2.2.1 c.2.2.2) s, a.2)
  | .init n h p => ((s.initNode q t n h p).modCounts q fun c => { c with allocs := c.allocs + 1 }, a.2)
  | .link x y pri =>
    let r := s.performLink q t mine x y
    (r.1, match r.2 with
      | some (l, m) => a.2 ++ [.push (lineAddr l) (lineAddr m) pri]
      | none => a.2)
  | .free n => (s.freeNode q t n, a.2)
  | .slice va pl more idx data mask =>
    let r := sliceReq q t va pl more
    (s.commitAccess r fun x =>
      if x.sliceRoom r idx (x.refusedBefore pl.server 0 none Body.isSlice) then x.doSlice r idx data mask
      else x.send t pl.server (partOf q) (.slice r idx data mask) [], a.2)
  | .push .. | .spawn .. | .send .. => (s, a.2 ++ [e])

/-- The nodes that a commit frees. Log 35: DEDUCED. -/
def freedBy (buf : List Commit) : List W :=
  buf.filterMap fun
    | .free n => some n
    | .stores _ | .amos .. | .init .. | .link .. | .slice .. | .push .. | .spawn .. | .send .. => none

/-- The ports of a freed node that are not EMPTY cut (R367). Log 35: DEDUCED. -/
def State.cutNode (s : State) (q : SeqId) (t : TileId) (mine : List (BitVec 50)) (n : W) : State :=
  (List.finRange 4).foldl (fun a p =>
    if field (a.nodeWord q t (lineOf n) (8 + 8 * p.val)) 60 4 = 0 then a
    else (a.performLink q t mine (.port (lineOf n) p) .none).1) s

/-- The ends that a commit's links name. -/
def linkEnds (buf : List Commit) : List WireEnd :=
  buf.flatMap fun
    | .link a b _ => [a, b]
    | .stores _ | .amos .. | .init .. | .free _ | .slice .. | .push .. | .spawn .. | .send .. => []

/-- What follows the release of the claim (R221). -/
def State.afterRelease (q : SeqId) (t : TileId) (pri : Fin 4) (s : State) (e : Commit) : State :=
  match e with
  | .push a b p => s.pushPair t (BagEntry.make q (lineOf a) (lineOf b) p) []
  | .spawn ix arg => s.spawnAt t q ix arg pri
  | .send dst tag len data => s.send t dst (partOf q) (.msg q 0 0 tag len data) []
  | .stores _ | .amos .. | .init .. | .link .. | .free _ | .slice .. => s

/-- The rewrite on a strand ended by its commit (R221). The dusk lists of the homes that it has acted on are tested (R357). -/
def State.endCommit (s : State) (t : TileId) (k : StrandId) (r : Rewrite) : State :=
  let x := s.strandAt t k
  let q := x.seq
  let mine := [lineOf r.node1, lineOf r.node2]
  let freed := freedBy r.buf
  let ends := linkEnds r.buf
  let homes := ((mine ++ freed.map lineOf).map (s.homeOf q t) ++ ends.filterMap (s.endHome q t) ++
    (ends.map (s.far q t mine)).filterMap (s.endHome q t)).eraseDups
  let a := r.buf.foldl (State.performEntry q t mine) (s.useLines (s.commitSpans q t r), [])
  let s1 := freed.foldl (fun b n => b.cutNode q t (mine ++ freed.map lineOf) n) a.1
  let s2 := [r.node1, r.node2].foldl (fun b n => if freed.contains n then b else b.unclaim q t n) s1
  let s3 := homes.foldl (fun b h => b.duskTest q h) s2
  let s4 := a.2.foldl (State.afterRelease q t r.pair.pri) s3
  let s5 := r.staged.foldl (fun b p => b.unstage t (some p)) s4
  let s6 := if s5.heldBy t x.owner then s5.releaseUnit t else s5
  let s7 := s6.modCounts q fun c => { c with rewrites := c.rewrites + 1 }
  let s8 := if r.pair.borrowed then
      s7.modCore t fun c => { c with sched := { c.sched with borrowed := c.sched.borrowed - 1 } } else s7
  (((s8.active t q).dropWaits t x.owner).freeStrand t k).switchEvent t

/-- A rewrite that has issued RCOMMIT: it ends, or waits and asks for the lines that it lacks (R221, R276). -/
def State.tryCommit (s : State) (t : TileId) (k : StrandId) (r : Rewrite) : State :=
  if s.commitReady t k r then s.endCommit t k r
  else
    (s.askLines (s.strandAt t k).seq (s.commitSpans (s.strandAt t k).seq t r)).modStrandAt t k fun x =>
      { x with work := .rewrite { r with committing := true } }

/-- RCOMMIT. -/
def execRcommit (s : State) : Out :=
  s.word s.inRewrite fun s =>
    match s.rewriting with
    | some r => (s.tryCommit s.cur s.curK r).atEnd
    | none => s

/-- RABORT (R222). -/
def execRabort (x : Bool) (s : State) : Out :=
  s.word s.inRewrite fun s =>
    match s.rewriting with
    | some r => ((s.discard s.cur s.curK r (if x then .drop else .again)).switchEvent s.cur).atEnd
    | none => s

end Sys2Proof.Machine
end

