-- ==== Sys2Proof/Machine/SystemWords.lean ====
section
/-! DEFINITION. The words that only firmware may execute, and the same operations at the die controller: TLBI (spec/10 R225,
R226, spec/25 R409–R411), KEYOP (R227, R228) and FAULTINJ (R229–R231); major 0x09, codes 0x18 to 0x1A. -/

namespace Sys2Proof.Machine

/-- The checks of a Monitor word: its own ILLEGAL_OP first, then PRIV (R72, R99). -/
def State.monitorWord (s : State) (reserved : Bool) : Verdict :=
  (s.illegalIf reserved).andThen (if s.mon? then .pass else s.badWord .priv)

/-! ### TLBI -/

/-- What a TLBI invalidates (R225). -/
inductive Inval
  | slot (k : Fin 512)
  | page (q : SeqId) (size : Fin 4) (va : Nat)
  | seq (q : SeqId)
  | stage2 (p : PartId) (size : Fin 4) (ipa : Nat)
  | part (p : PartId)
  | all
  deriving DecidableEq, Repr

/-- Two spans of 2^a and 2^b bytes share a byte. -/
def pagesMeet (x a y b : Nat) : Bool := if a ≤ b then x / 2 ^ b == y / 2 ^ b else x / 2 ^ a == y / 2 ^ a

/-- The entries that a TLBI names. -/
def Inval.hits (i : Inval) (e : TlbEntry) : Bool :=
  match i with
  | .slot k => e.slot == k
  | .page q z va => e.seq == q && pagesMeet (e.page * 2 ^ pageBits e.size) (pageBits e.size) va (pageBits z)
  | .seq q => e.seq == q
  | .stage2 p z ipa => partOf e.seq == p && e.window.isNone && pagesMeet e.ipa (pageBits e.size) ipa (pageBits z)
  | .part p => partOf e.seq == p
  | .all => true

/-- An access under way may have been translated through an entry that a TLBI names. -/
def State.mayUse (s : State) (i : Inval) (r : Req) : Bool :=
  match i with
  | .slot k => s.slotOn r.seq (dieOf r.tile) == k
  | .page q z va => r.seq == q && pagesMeet r.va.toNat 0 va (pageBits z)
  | .seq q => r.seq == q
  | .stage2 p _ _ | .part p => partOf r.seq == p
  | .all => true

/-- The regions of the page that a TLBI names (R409, R410): a page of 1 GiB has 512. -/
def Inval.covers (i : Inval) (r : Region) : Bool :=
  let within (base : Nat) (z : Fin 4) (n : Nat) : Bool :=
    decide (base / 2 ^ 21 ≤ n) && decide (n ≤ (base + 2 ^ pageBits z - 1) / 2 ^ 21)
  match i, r with
  | .page q z va, .stage1 p n => q == p && within va z n
  | .stage2 q z ipa, .stage2 p n => q == p && within ipa z n
  | _, _ => false

/-- The dies that the directory records for the regions of that page (R409, R410). -/
def State.recorded (s : State) (i : Inval) : BitVec 4 :=
  s.dies.toList.foldl (fun a d => (d.directory.filter fun x => i.covers x.1).foldl (fun b x => b ||| x.2) a) 0

/-- The tiles that a SCOPE reaches (R225, R410). -/
def State.scopeTiles (s : State) (t : TileId) (scope : Nat) (i : Inval) : TileId → Bool :=
  let own (u : TileId) : Bool := dieOf u == dieOf t
  match scope, i with
  | 0, _ => fun u => u == t
  | 1, .slot _ => own
  | 1, .page .. | 1, .stage2 .. =>
    let mask := s.recorded i
    fun u => own u || mask.getLsbD (dieOf u).val
  | _, _ => fun _ => true

/-- A sequence's accesses may have been translated through an entry that a TLBI names. -/
def State.mayUseSeq (s : State) (i : Inval) (q : SeqId) (t : TileId) : Bool :=
  match i with
  | .slot k => s.slotOn q (dieOf t) == k
  | .page p .. | .seq p => p == q
  | .stage2 p .. | .part p => partOf q == p
  | .all => true

/-- A tile holds accesses that are translated and not performed: the commit buffer of a rewrite, and M words that write a pane (R182,
R183, R221). -/
def State.heldAccess (s : State) (i : Inval) (t : TileId) : Bool :=
  let x := s.tiles[t]
  let held : Commit → Bool := fun
    | .stores _ | .amos .. | .slice .. => true
    | .init .. | .link .. | .free _ | .push .. | .spawn .. | .send .. => false
  (x.matrix.queue.any fun w => s.mayUseSeq i w.seq t && w.kind.dest.isSome) ||
  (List.finRange 8).any fun k => match x.core.strands[k].work with
    | .rewrite r => s.mayUseSeq i r.pair.seq t && r.buf.any held
    | .free | .thread _ | .firmware => false

/-- Accesses that were translated through an entry to be dropped and have not been performed (R226). Log 39: DESIGN CHOICE. -/
def State.invalWaits (s : State) (t : TileId) (scope : Nat) (i : Inval) : Bool :=
  (s.relay.any fun m => !m.served && match m.body.req with
    | some r => s.scopeTiles t scope i r.tile && s.mayUse i r
    | none => false) ||
  (List.finRange 1024).any fun u => s.scopeTiles t scope i u && s.heldAccess i u

/-- PENDINV cleared, and a VOID slot emptied (R227). Log 42: DEDUCED. -/
def KeySlot.invalidated (k : KeySlot) : KeySlot :=
  { k with pendinv := false, state := if k.state = .void then .empty else k.state }

/-- A TLBI performed: entries dropped, the region's bits cleared, and PENDINV with KIND 0 at SCOPE 2. A walk in flight reads
the tables when its own step comes, so none that began earlier installs anything (R226, R411). Log 39: DESIGN CHOICE. Log 42: DEDUCED. -/
def State.invalidate (s : State) (t : TileId) (scope : Nat) (tlbs : BitVec 4) (i : Inval) : State :=
  let which : BitVec 4 := if tlbs = 0 then 15 else tlbs
  let s1 := s.dropEntries (s.scopeTiles t scope i) which i.hits
  let clear (d : Die) : Die := { d with directory := d.directory.filter fun x => !i.covers x.1 }
  let s2 := if scope = 1 ∧ which = 15 then { s1 with dies := s1.dies.map clear } else s1
  match scope, i with
  | 2, .slot k => s2.modDie (dieOf t) fun d => { d with keys := d.keys.set k d.keys[k].invalidated }
  | _, _ => s2

/-- The selector of ga and gb (R225). -/
def invalOf (a b : W) : Inval :=
  let n (lo k : Nat) : Nat := field a lo k
  let part : PartId := ⟨n 23 4, by simp only [n, field, bitsAt]; omega⟩
  let q := seqOf part ⟨n 27 4, by simp only [n, field, bitsAt]; omega⟩
  let z : Fin 4 := ⟨n 14 2, by simp only [n, field, bitsAt]; omega⟩
  let at_ := b.toNat - b.toNat % 2 ^ pageBits z
  match n 0 3 with
  | 0 => .slot ⟨n 31 9, by simp only [n, field, bitsAt]; omega⟩
  | 1 => .page q z at_
  | 2 => .seq q
  | 3 => .stage2 part z at_
  | 4 => .part part
  | _ => .all

/-- The checks of TLBI (R225, R226): it holds the strand until it is complete. -/
def State.tlbiCheck (s : State) (a b : W) : Verdict :=
  (s.monitorWord (decide (5 < field a 0 3) || field a 4 2 == 3)).andThen
    (if s.invalWaits s.cur (field a 4 2) (invalOf a b) then .wait else .pass)

/-- TLBI. -/
def execTlbi (a b : GReg) (s : State) : Out :=
  s.word (s.tlbiCheck (s.g a) (s.g b)) fun s =>
    s.invalidate s.cur (field (s.g a) 4 2) (BitVec.ofNat 4 (field (s.g a) 8 4)) (invalOf (s.g a) (s.g b))

/-- A TLBI of firmware's, as an event: it changes nothing while it must wait. -/
def State.firmwareTlbi (s : State) (t : TileId) (scope : Fin 3) (tlbs : BitVec 4) (i : Inval) : Out :=
  if s.invalWaits t scope.val i then .next s else .next (s.invalidate t scope.val tlbs i)

/-- TLBI_KEY_SLOT. -/
def execTlbiKeySlot (t : TileId) (scope : Fin 3) (tlbs : BitVec 4) (k : Fin 512) (s : State) : Out :=
  s.firmwareTlbi t scope tlbs (.slot k)
/-- TLBI_PAGE. -/
def execTlbiPage (t : TileId) (scope : Fin 3) (tlbs : BitVec 4) (p : PartId) (q : Fin 16) (z : Fin 4) (va : W) (s : State) :
    Out :=
  s.firmwareTlbi t scope tlbs (.page (seqOf p q) z (va.toNat - va.toNat % 2 ^ pageBits z))
/-- TLBI_SEQUENCE. -/
def execTlbiSequence (t : TileId) (scope : Fin 3) (tlbs : BitVec 4) (p : PartId) (q : Fin 16) (s : State) : Out :=
  s.firmwareTlbi t scope tlbs (.seq (seqOf p q))
/-- TLBI_STAGE2_PAGE. -/
def execTlbiStage2Page (t : TileId) (scope : Fin 3) (tlbs : BitVec 4) (p : PartId) (z : Fin 4) (ipa : W) (s : State) : Out :=
  s.firmwareTlbi t scope tlbs (.stage2 p z (ipa.toNat - ipa.toNat % 2 ^ pageBits z))
/-- TLBI_PARTITION. -/
def execTlbiPartition (t : TileId) (scope : Fin 3) (tlbs : BitVec 4) (p : PartId) (s : State) : Out :=
  s.firmwareTlbi t scope tlbs (.part p)
/-- TLBI_ALL. -/
def execTlbiAll (t : TileId) (scope : Fin 3) (tlbs : BitVec 4) (s : State) : Out := s.firmwareTlbi t scope tlbs .all

/-! ### KEYOP -/

/-- The number of a key slot's state (R228). -/
def KeyState.code : KeyState → Nat
  | .empty => 0
  | .live => 1
  | .void => 2

/-- The status of a slot after an operation, refused with a code or not (R228). -/
def KeySlot.status (k : KeySlot) (err : Option Nat) : W :=
  let e := match err with
    | some c => 2 ^ 63 + c * 2 ^ 60
    | none => 0
  BitVec.ofNat 64 (e + k.seq.val * 2 ^ 20 + k.part.val * 2 ^ 16 + boolNat k.pendinv * 2 ^ 7 + boolNat k.rotating * 2 ^ 6 +
    boolNat k.gen * 2 ^ 5 + k.state.code)

/-- The key operations (R227). -/
inductive KeyOp
  | gen (part : PartId) (seq : Fin 16)
  | zero
  | rotate
  | retire
  | stat
  deriving DecidableEq, Repr

/-- Why an operation is refused, if it is (R227, R228); `healthy` is the answer of the DRBG's health test. Log 40: DEDUCED. -/
def KeySlot.refuses (k : KeySlot) (op : KeyOp) (healthy : Bool) : Option Nat :=
  match op with
  | .gen .. => if k.pendinv then some 4 else if k.state ≠ .empty then some 1 else if healthy then none else some 2
  | .zero | .stat => none
  | .rotate => if k.state ≠ .live ∨ k.rotating then some 1 else if healthy then none else some 2
  | .retire => if !k.rotating then some 1 else if k.swept then none else some 3

/-- The slot after an operation; `key` is the number of the key drawn. -/
def KeySlot.after (k : KeySlot) (op : KeyOp) (key : Nat) : KeySlot :=
  match op with
  | .gen p q => { k with state := .live, gen := false, rotating := false, swept := false, part := p, seq := q, key0 := key, key1 := 0 }
  | .zero => { k with state := .void, pendinv := true, rotating := false, swept := false, key0 := 0, key1 := 0 }
  | .rotate =>
    if k.gen then { k with rotating := true, swept := false, key0 := key }
    else { k with rotating := true, swept := false, key1 := key }
  | .retire =>
    if k.gen then { k with rotating := false, swept := false, gen := false, key1 := 0 }
    else { k with rotating := false, swept := false, gen := true, key0 := 0 }
  | .stat => k

/-- A key operation on a die (R227): the state after it and the status. Log 40: DEDUCED. -/
def State.keyop (s : State) (d : DieId) (slot : Fin 512) (op : KeyOp) : State × W :=
  let k := s.dies[d].keys[slot]
  let err := k.refuses op (Config.drbgHealthy s.free)
  let k1 := if err.isNone then k.after op s.fresh else k
  let st := k1.status err
  (({ s with fresh := s.fresh + 1, free := s.free + 1 }).modDie d fun x => { x with keys := x.keys.set slot k1, keyStatus := st },
   st)

/-- The operation that ga and gb name; none for a reserved OP. -/
def keyOpOf (a b : W) : Option KeyOp :=
  match field a 0 4 with
  | 0 => some (.gen ⟨field b 16 4, by unfold field bitsAt; omega⟩ ⟨field b 20 4, by unfold field bitsAt; omega⟩)
  | 1 => some .zero
  | 2 => some .rotate
  | 3 => some .retire
  | 4 => some .stat
  | _ => none

/-- KEYOP: the status reaches gd. -/
def execKeyop (d a b : GReg) (s : State) : Out :=
  s.word (s.monitorWord (keyOpOf (s.g a) (s.g b)).isNone) fun s =>
    match keyOpOf (s.g a) (s.g b) with
    | none => s
    | some op =>
      let r := s.keyop (dieOf s.cur) ⟨field (s.g b) 0 9, by unfold field bitsAt; omega⟩ op
      r.1.later (gDest d) (r.2.setWidth 1024) 1

/-- KEYOP_GEN. -/
def execKeyopGen (d : DieId) (slot : Fin 512) (p : PartId) (q : Fin 16) (s : State) : Out :=
  .next (s.keyop d slot (.gen p q)).1
/-- KEYOP_ZERO. -/
def execKeyopZero (d : DieId) (slot : Fin 512) (s : State) : Out := .next (s.keyop d slot .zero).1
/-- KEYOP_ROTATE. -/
def execKeyopRotate (d : DieId) (slot : Fin 512) (s : State) : Out := .next (s.keyop d slot .rotate).1
/-- KEYOP_RETIRE. -/
def execKeyopRetire (d : DieId) (slot : Fin 512) (s : State) : Out := .next (s.keyop d slot .retire).1
/-- KEYOP_STAT. -/
def execKeyopStat (d : DieId) (slot : Fin 512) (s : State) : Out := .next (s.keyop d slot .stat).1

/-! ### FAULTINJ -/

/-- Bits of a site (R230). -/
def siteBits (site : Nat) : Nat :=
  match site with
  | 0 => 64
  | 1 => 32
  | _ => 256

/-- A site word that is refused (R229). -/
def siteReserved (a : W) : Bool :=
  let site := field a 0 4
  let two := field a 36 2 == 2
  let n := siteBits site
  decide (3 < site) || (field a 36 2 != 1 && !two) || decide (n ≤ field a 20 8) || decide (n ≤ field a 28 8) ||
    (two && field a 28 8 == field a 20 8)

/-- Bits of one granule flipped in its ciphertext (R230, R303): two in one granule cannot be corrected, and one that meets
another still uncorrected bit makes two. Log 41: DESIGN CHOICE. -/
def State.flipBits (s : State) (g : Nat) (bits : List Nat) (mark : State → State) : State :=
  let old := (s.flips.filter fun f => f.1 == g).map (·.2)
  let now := bits.foldl (fun l b => if l.contains b then l.filter (· != b) else b :: l) old
  let rest := s.flips.filter fun f => f.1 != g
  if now.length ≤ 1 then { s with flips := now.map (fun b => (g, b)) ++ rest }
  else mark { s with flips := rest }

/-- The bits that a site word names. Log 106: DESIGN CHOICE. -/
def siteFlips (a : W) : List Nat := if field a 36 2 = 2 then [field a 20 8, field a 28 8] else [field a 20 8]

/-- The bank in which a line is resident. -/
def State.residence (s : State) (pa : Nat) : Option TileId :=
  (List.finRange 1024).find? fun t => (s.bankLine pa t).isSome

/-- An injection armed on a tile, or applied at once (R229–R231). Log 106: DESIGN CHOICE. -/
def State.inject (s : State) (t : TileId) (a b : W) : State :=
  let arm (x : State) (fired : Bool) : State := x.modCore t fun c =>
    { c with injSite := BitVec.ofNat 39 a.toNat, injArmed := !fired, injFired := c.injFired || fired }
  match field a 0 4 with
  | 0 | 1 => arm s false
  | 2 =>
    let off := field b 5 14 * 32
    arm (s.flipBits (storeKey t off / 32) (siteFlips a) fun x => x.markStore t [off / 32] true) true
  | _ =>
    let pa := field b 6 50 * 64
    if isHbm pa then
      let spare (x : State) : State :=
        if (x.residence pa).isSome then x
        else { x with hbmStacks := x.hbmStacks.set (stackOf pa) (x.hbmStacks[stackOf pa].startCopy (pseudoOf pa)) }
      arm (s.flipBits (pa / 32) (siteFlips a) fun x => spare (x.markHbm ((x.residence pa).getD t) (pa / 32) true)) true
    else arm s true

/-- FAULTINJ. -/
def execFaultinj (a b : GReg) (s : State) : Out :=
  s.word (s.monitorWord (siteReserved (s.g a))) fun s => s.inject s.cur (s.g a) (s.g b)

end Sys2Proof.Machine
end

