-- ==== Sys2Proof/Machine/Uses.lean ====
section
/-! DEFINITION. The registers that a word names (spec/03 R53, R58, R59; spec/04 R81): its destinations and its sources. -/

namespace Sys2Proof.Machine

/-- The registers of a word: destination fields and sources. -/
structure Uses where
  dests : List Dest
  reads : List Dest
  deriving DecidableEq, Repr

/-- A scalar register; g0 is no register that holds anything (R65). -/
def uG (r : GReg) : List Dest := if r = 0 then [] else [.g r]

/-- A mask register; k0 holds nothing (R67). -/
def uK (r : KReg) : List Dest := if r = 0 then [] else [.k r]

/-- What a word names. Events name nothing. -/
def usesOf (i : Instr) : Uses :=
  match i with
  | .add d a b | .sub d a b | .and d a b | .or d a b | .xor d a b | .andn d a b | .orn d a b | .shl d a b
  | .shr d a b | .sha d a b | .rol d a b | .slt d a b | .sltn d a b | .seq d a b | .sne d a b | .min d a b
  | .max d a b | .minn d a b | .maxn d a b | .extr d a b | .lea d a b | .mul d a b | .mulh d a b
  | .mulhn d a b | .div d a b | .divn d a b | .rem d a b | .remn d a b | .keyop d a b | .amoaddI64 d a b _
  | .amoand d a b _ | .amoor d a b _ | .amoxor d a b _ | .amomin d a b _ | .amomax d a b _ | .amominn d a b _
  | .amomaxn d a b _ | .amoswapI64 d a b _ | .amoaddI32 d a b _ | .amoswapI32 d a b _ | .amofadd d a b _
  | .btry d a b =>
    ⟨uG d, uG a ++ uG b⟩
  | .csel d a b | .insr d a b | .casI64 d a b _ | .casI32 d a b _ =>
    ⟨uG d, uG d ++ uG a ++ uG b⟩
  | .clz d a | .ctz d a | .popc d a | .brev d a | .addi d a _ | .andi d a _ | .ori d a _ | .xori d a _
  | .shli d a _ | .shri d a _ | .shai d a _ | .slti d a _ | .sltni d a _ | .seqi d a _ | .callr d a
  | .crx d a _ | .ld d a _ _ | .lda d a _ | .pstat d a | .barrive d a | .mchk a d _ =>
    ⟨uG d, uG a⟩
  | .limm d _ =>
    ⟨uG d, uG d⟩
  | .addpc d _ | .crr d _ | .mstat d | .cseal d | .cstat d _ _ | .mpoll d =>
    ⟨uG d, []⟩
  | .beq a b _ | .bne a b _ | .blt a b _ | .bge a b _ | .bltn a b _ | .bgen a b _ | .tlbi a b | .faultinj a b
  | .binit a b | .bexpect a b | .bwait a b | .mma a b _ _ | .mmat a b _ _ | .mfix a b _ | .cpy a b _ _
  | .cirq a b =>
    ⟨[], uG a ++ uG b⟩
  | .bz a _ | .bnz a _ | .jr a | .loop _ a | .crw a _ | .pref a | .pgive a | .ptake a | .mmaRing a _ _
  | .mmatRing a _ _ | .mldacc a _ | .mstacc a _ | .chain a _ =>
    ⟨[], uG a⟩
  | .jmp _ | .call _ | .nop | .loopi _ _ | .trap _ | .eret | .wfe | .yield | .safe | .halt | .bkpt | .fence _
  | .fenceI | .mclaim | .mrel | .mzero _ | .mswap _ | .mringPop | .mwait | .cwait _ | .ccancel _ | .rcommit
  | .rabort _ =>
    ⟨[], []⟩
  | .st s a _ _ =>
    ⟨[], uG s ++ uG a⟩
  | .str a s _ =>
    ⟨[], uG a ++ uG s⟩
  | .vld v a k _ | .vldb v a k _ =>
    ⟨[.v v], uG a ++ uK k⟩
  | .vst v a k _ =>
    ⟨[], [.v v] ++ uG a ++ uK k⟩
  | .vldm v a =>
    ⟨uK v, uG a⟩
  | .vstm v a =>
    ⟨[], uK v ++ uG a⟩
  | .vlds v a b k _ =>
    ⟨[.v v], uG a ++ uG b ++ uK k⟩
  | .vsts v a b k _ =>
    ⟨[], [.v v] ++ uG a ++ uG b ++ uK k⟩
  | .vgath v a x k _ =>
    ⟨[.v v], uG a ++ [.v x] ++ uK k⟩
  | .vscat v a x k _ | .vamo v a x k _ =>
    ⟨[], [.v v] ++ uG a ++ [.v x] ++ uK k⟩
  | .vadd d a b k _ | .vsub d a b k _ | .vmul d a b k _ | .vmulh d a b k _ | .vmin d a b k _ | .vmax d a b k _
  | .vminn d a b k _ | .vmaxn d a b k _ | .vshl d a b k _ | .vshr d a b k _ | .vsha d a b k _
  | .vsat d a b k _ | .vand d a b k _ | .vor d a b k _ | .vxor d a b k _ | .vandn d a b k _ | .vfadd d a b k _
  | .vfsub d a b k _ | .vfmul d a b k _ | .vfmin d a b k _ | .vfmax d a b k _ | .vperm d a b k _
  | .vtrn d a b k _ | .vsel d a b k _ =>
    ⟨[.v d], [.v a] ++ [.v b] ++ uK k⟩
  | .vabs d a k _ | .vneg d a k _ | .vclz d a k _ | .vpopc d a k _ | .vfabs d a k _ | .vfneg d a k _
  | .vfrnd d a k _ | .vfclass d a k _ | .vfrcp d a k | .vfrsq d a k | .vfexp2 d a k | .vflog2 d a k
  | .vcvt d a _ k _ | .vunpk d a _ k | .vnarrow d a _ k | .vwiden d a _ k | .vcompr d a k _ | .vexpd d a k _
  | .vredInt d a _ k _ | .vredFp d a _ k _ | .vscanInt d a _ k _ | .vscanFp d a _ k _ =>
    ⟨[.v d], [.v a] ++ uK k⟩
  | .vfma d a b k _ | .vfms d a b k _ | .vfnma d a b k _ =>
    ⟨[.v d], [.v d] ++ [.v a] ++ [.v b] ++ uK k⟩
  | .vpack d a _ _ =>
    ⟨[.v d], [.v a]⟩
  | .vslide d a g k _ =>
    ⟨[.v d], [.v a] ++ uG g.toGReg ++ uK k⟩
  | .vrord s g h k =>
    ⟨[], [.v s] ++ uG g.toGReg ++ uG h.toGReg ++ uK k⟩
  | .kand d a b | .kor d a b | .kxor d a b =>
    ⟨uK d, uK a ++ uK b⟩
  | .knot d a | .kmov d a =>
    ⟨uK d, uK a⟩
  | .kpopc d a | .kfirst d a =>
    ⟨uG d.toGReg, uK a⟩
  | .kset d a =>
    ⟨uK d, uG a.toGReg⟩
  | .vbcast d g k _ =>
    ⟨[.v d], uG g.toGReg ++ uK k⟩
  | .vext g a h _ =>
    ⟨uG g.toGReg, [.v a] ++ uG h.toGReg⟩
  | .vins d g h _ =>
    ⟨[.v d], [.v d] ++ uG g.toGReg ++ uG h.toGReg⟩
  | .vcmp d a b k _ _ | .vfcmp d a b k _ _ =>
    ⟨uK d, [.v a] ++ [.v b] ++ uK k⟩
  | .mringSend a h | .mringSendPop a h | .cirz a h _ | .cirx a h =>
    ⟨[], uG a ++ uG h⟩
  | .mringLatch h | .mringLatchPop h =>
    ⟨[], uG h⟩
  | .cpys a b _ _ =>
    ⟨[], uG a ++ uG b ++ uG (gAfter b 1)⟩
  | .cgath a b _ | .cscat a b _ =>
    ⟨[], uG a ++ uG b ++ uG (gAfter b 1) ++ uG (gAfter b 2)⟩
  | .csend h v _ =>
    ⟨[], uG h ++ [.v v]⟩
  | .crecv h v _ =>
    ⟨[.v v], uG h⟩
  | .msend a v _ =>
    ⟨[], uG a ++ [.v v]⟩
  | .mrecv d v =>
    ⟨uG d ++ [.v v], []⟩
  | .nalloc d h =>
    ⟨uG d, uG h⟩
  | .nfree n =>
    ⟨[], uG n⟩
  | .nlink n m _ _ _ | .npush n m _ =>
    ⟨[], uG n ++ uG m⟩
  | .nport d n _ _ =>
    ⟨uG d, uG n⟩
  | .spawn i x =>
    ⟨[], uG i ++ uG x⟩
  | .lfsrseedWrite .. | .trapvecWrite .. | .placemaskWrite .. | .faultinjDisarm .. | .controlRegisterWrite ..
  | .keyopGen .. | .keyopZero .. | .keyopRotate .. | .keyopRetire .. | .keyopStat .. | .tlbiKeySlot ..
  | .tlbiPage .. | .tlbiSequence .. | .tlbiStage2Page .. | .tlbiPartition .. | .tlbiAll .. | .parallaxRetry ..
  | .divideComplete .. | .matrixWordComplete .. | .matrixClearEnd .. | .transferRecord .. | .chainOwnPoll ..
  | .cirqRequest .. | .cirzRequest .. | .cirxRequest .. | .circuitCloseEnd .. | .configWord ..
  | .slotTableActivation | .circuitWordInject .. | .circuitWordLand .. | .latchEntryLand .. | .readreq ..
  | .readrsp .. | .write .. | .amoreq .. | .amorsp .. | .pairpush .. | .netop .. | .netrsp .. | .borrow ..
  | .msg .. | .credit .. | .ack .. | .recall .. | .relayResend .. | .ackForced .. | .sliceArrival ..
  | .memoryRead .. | .memoryWrite .. | .portService .. | .rdata .. | .wack .. | .nack .. | .bypass ..
  | .translationWalk .. | .scoreboardSwitch .. | .quantumExpiry .. | .aging .. | .preemptLimit ..
  | .threadRestoreEnd .. | .runaway .. | .borrowStart .. | .poolRefill .. | .heldSpawnStart .. | .quietSweep
  | .eventSend .. | .createPartition .. | .destroyPartition .. | .resetVf .. | .resetPartition ..
  | .resetDie .. | .dieResetEnd .. | .dieResetTimeout .. | .resetPackage .. | .s2Write .. | .cool ..
  | .warmup .. | .faultinjCommand .. | .peerCircuit .. | .occult .. | .resend .. | .startSequence ..
  | .endSequence .. | .replay .. | .tlbInval .. | .unpark .. | .keyRotate .. | .transitSweepUnit ..
  | .attest .. | .readCounters .. | .counterWindow | .setDumparea .. | .pageReply .. | .hostRead ..
  | .hostWrite .. | .syncPeriod .. | .sync .. | .dreq .. | .dresp .. | .lsuDown .. | .lsuUp .. | .revoke ..
  | .drain .. | .drainRoundEnd .. | .peerWordIngress .. | .peerLinkTrain .. | .peerLinkWander ..
  | .sensorRead .. | .nightfallSettled | .slotClockChange | .hbmRetrainEnd .. | .supplyLoss | .supplyReturn
  | .patrolScrub .. | .pseudoChannelCopyEnd .. | .laneRepair .. | .tileTransplant .. | .dieLinkDown ..
  | .dieSplit .. | .illegalOp .. | .fetchFault .. | .peerLinkFailure .. | .dieLinkHeal ..
  | .slotDomainFormation .. | .tileTransplantEnd .. =>
    ⟨[], []⟩

/-- Registers that a word writes without naming them: CALL's link (R111). -/
def implicitDests (i : Instr) : List Dest := if (i matches .call _) then [.g 63] else []

end Sys2Proof.Machine
end

