-- ==== Sys2Proof/Machine/Bundle.lean ====
section
/-! DEFINITION. Bundles (spec/03 R52–R60, spec/04 R98, R99, R435): the rules that a fetched bundle must satisfy, the scoreboard,
early reads, and the verdict on a bundle. -/

namespace Sys2Proof.Machine

/-! ### The words of a bundle -/

/-- A fetched word: its position, its bits, and what it decodes to. -/
structure Slot where
  pos : Nat
  raw : Nat
  word : Option Word
  deriving DecidableEq, Repr

/-- MAJ (R51). -/
def Slot.maj (x : Slot) : Nat := bitsAt x.raw 24 5

/-- Issue classes (R52). -/
inductive IssueClass | s | v | m | c
  deriving DecidableEq, Repr

/-- The class that a MAJ fixes; none where the word is refused. -/
def classOf (maj : Nat) : Option IssueClass :=
  if 0x01 ≤ maj ∧ maj ≤ 0x0F then some .s
  else if 0x10 ≤ maj ∧ maj ≤ 0x18 then some .v
  else if maj = 0x19 ∨ maj = 0x1A then some .m
  else if 0x1B ≤ maj ∧ maj ≤ 0x1D then some .c
  else none

/-- A control word (R53). -/
def Slot.control (x : Slot) : Bool := 0x07 ≤ x.maj && x.maj ≤ 0x09

/-- A word at its position, decoded. -/
def slotOf (w i : Nat) : Slot :=
  { pos := i, raw := w, word := match decodeWord w with
    | .ok x => some x
    | .error _ => none }

/-- Words with their positions, decoded. -/
def slotsOf (l : List Nat) : List Slot := l.zipIdx.map fun (w, i) => slotOf w i

/-- The registers that a slot names. -/
def Slot.uses (x : Slot) : Uses :=
  match x.word with
  | some w => usesOf w.i
  | none => ⟨[], []⟩

/-- A word exceeds a limit of R53, given those before it. -/
def Slot.exceeds (x : Slot) (before : List Slot) : Bool :=
  let l := before ++ [x]
  let n (k : IssueClass) : Nat := (l.filter fun y => classOf y.maj == some k).length
  decide (2 < n .s) || decide (1 < n .v) || decide (1 < n .m) || decide (1 < n .c) ||
    decide (1 < (l.filter Slot.control).length)

/-- A word names a destination that an earlier one names (R53). -/
def Slot.repeats (x : Slot) (before : List Slot) : Bool :=
  before.any fun y => y.uses.dests.any fun d => x.uses.dests.contains d

/-- The first word that breaks a rule against those before it. Log 56: DEDUCED. -/
def firstBreak (bad : Slot → List Slot → Bool) (l : List Slot) : Option Slot := l.find? fun x => bad x (l.take x.pos)

/-- TRAPVAL of a refused bundle (R98, R435), where it is refused; `crossed` says that loop bodies cross (R113). Log 56: DEDUCED. -/
def bundleFault (l : List Slot) (crossed : Bool) : Option W :=
  let undecoded := l.find? fun x => x.word.isNone
  let long := l.all fun x => bitsAt x.raw 31 1 == 0
  let limit := firstBreak Slot.exceeds l
  let twice := firstBreak Slot.repeats l
  let rule := long || limit.isSome || twice.isSome || crossed
  let who := ((undecoded.or (if long then l.getLast? else none)).or (limit.or twice)).or (if crossed then l.head? else none)
  who.map fun x => BitVec.ofNat 64 (x.raw + x.pos * 2 ^ 32 + boolNat rule * 2 ^ 34)

/-- The end bundle of the outer loop while an inner loop whose end differs is active (R113). -/
def Ctx.crossed (c : Ctx) (ba : W) : Bool :=
  match c.loops with
  | [inner, outer] => outer.stop == ba && inner.stop != ba
  | _ => false

/-! ### The issue of a bundle -/

/-- The W field of a slot's word (R55). -/
def Slot.w (x : Slot) : Nat :=
  match x.word with
  | some w => w.w.val
  | none => 0

/-- The issue of a bundle of words at an address, nothing checked yet: its W is the largest of its words' (R55). -/
def issueOf (ba : W) (l : List Slot) : Issue :=
  let w := (l.map Slot.w).foldl (fun a b => if a < b then b else a) 0
  { Issue.zero with ba := ba, bw := l.length, w := w }

/-- The word at hand. -/
def Issue.at_ (i : Issue) (x : Slot) : Issue := { i with pos := x.pos, word := BitVec.ofNat 32 x.raw }

/-- The verdict of a word's own check. -/
def State.verdictOf (ex : Instr → State → Out) (s : State) (x : Slot) : Verdict :=
  match x.word with
  | none => .pass
  | some w => match ex w.i { s with issue := { s.issue.at_ x with probe := true } } with
    | .next s1 => s1.issue.verdict
    | .fault _ | .refused _ => .pass

/-- A verdict that refuses the bundle or needs a walk comes first, in word order; then a wait of the core, then of the strand
(R54, R58, R60). -/
def Verdict.combine : List Verdict → Verdict
  | [] => .pass
  | v :: l =>
    let r := Verdict.combine l
    match v, r with
    | .trap c x, _ => .trap c x
    | .miss a x t, _ => .miss a x t
    | _, .trap c x => .trap c x
    | _, .miss a x t => .miss a x t
    | .stall, _ => .stall
    | _, .stall => .stall
    | .wait, _ => .wait
    | .pass, r => r

/-- A register carries a scoreboard mark (R58). -/
def Ctx.marked (c : Ctx) (d : Dest) : Bool := c.pends.any fun p => p.dest == d || p.dest2 == d

/-- A word must wait for a mark (R58). -/
def Ctx.blocks (c : Ctx) (x : Slot) : Bool :=
  let implicit := match x.word with
    | some w => implicitDests w.i
    | none => []
  (x.uses.reads ++ x.uses.dests ++ implicit).any c.marked

/-- The first register that a bundle reads early (R59). Log 57: DEDUCED. -/
def Ctx.early (c : Ctx) (l : List Slot) : Option Dest :=
  (l.flatMap fun x => x.uses.reads).find? fun d => c.inflight.any fun y => y.dest == d

/-- The words of the strand's next bundle, or what stops its fetch. -/
def State.nextBundle (s : State) : Bundle := s.fetchBundle s.ctx.pc 4

/-! ### Words that wait behind others of their bundle (R130, R132, R135, R139, R143) -/

/-- The words of a tail. -/
def Tail.slots (x : Tail) : List Slot := x.words.map fun (i, w) => slotOf w i

/-- Words that wait behind one under way: the issue and the registers at issue stay with them. -/
def State.holdTail (s : State) (l : List Slot) : State :=
  s.modCtx fun c => { c with tail := some { issue := s.issue, regs := c.regs, words := l.map fun x => (x.pos, x.raw) } }

/-- A tile's foreground strand back in the bundle of its tail, its registers as they stand now. -/
def State.atTail (s : State) (t : TileId) (x : Tail) : State :=
  ({ s with cur := t, issue := x.issue }).modCtx fun c => { c with tail := none }

/-- The verdict on the first word of a tail: the checks of the bundle have passed, and only a wait or a walk is left. -/
def State.tailVerdict (ex : Instr → State → Out) (s : State) (t : TileId) (x : Tail) : Verdict :=
  match x.slots with
  | [] => .pass
  | y :: _ => ((s.atTail t x).modCtx fun c => { c with regs := x.regs }).verdictOf ex y

/-- The words of a bundle that are still to be performed (R301). -/
def State.unreleased (s : State) (l : List Slot) : List Slot := l.filter fun x => !s.tile.core.released.contains x.pos

/-- The verdict on the strand's next bundle: its rules (R53), its scoreboard marks (R58), its words' own checks (R54), and
CHECK_STALL when every one has passed (R59, R99). Log 57: DEDUCED. -/
def State.bundleVerdict (ex : Instr → State → Out) (s : State) (l : List Slot) : Verdict :=
  let c := s.ctx
  let todo := s.unreleased l
  match bundleFault l (c.crossed c.pc) with
  | some v => .trap .illegalOp v
  | none =>
    if todo.any c.blocks then .wait
    else
      let s1 := { s with issue := issueOf c.pc l }
      match Verdict.combine (todo.map (s1.verdictOf ex)) with
      | .pass => match c.early l with
        | some d => if c.chkTrap && s.tile.core.retry == 0 then .trap .checkStall d.code else .pass
        | none => .pass
      | v => v

/-- The verdict on the strand's next step, with the bundle that it would issue. -/
def State.nextVerdict (ex : Instr → State → Out) (s : State) : Verdict × List Slot :=
  match s.nextBundle with
  | .stop f => (f.verdict, [])
  | .words l => (s.bundleVerdict ex (slotsOf l), slotsOf l)

/-! ### Refusals as events of their own -/

/-- A tile's core runs: the package is in COLD or TWILIGHT with its supply (R283), and neither the tile nor its die is fenced or
in reset (R277, R306, R312). -/
def State.running (s : State) (t : TileId) : Bool :=
  let d := s.dies[dieOf t]
  (s.cold.state == ColdState.cold || s.cold.state == ColdState.twilight) && s.cold.supply &&
    !s.tiles[t].core.fenced && !s.tiles[t].inReset && !d.fenced && !d.inReset

/-- A tile's core is at the boundary of a bundle of its foreground strand. -/
def State.atBundle (s : State) (t : TileId) : Bool :=
  let c := s.tiles[t].core
  s.running t && !c.hold && !c.resched && c.loading.isNone &&
  match c.fg with
  | none => false
  | some k =>
    let x := (s.strandAt t k).ctx
    !x.halting && !x.parked && !x.sleeping && x.tail.isNone && x.due.isEmpty && (x.inflight.all fun l => x.clock < l.due) &&
    (match x.replay with
     | some r => !r.running
     | none => true)

/-- The foreground strand of a tile, with the address of its next bundle under issue. -/
def State.focus (s : State) (t : TileId) : State :=
  let s1 := { s with cur := t }
  { s1 with issue := { Issue.zero with ba := s1.ctx.pc } }

/-- ILLEGAL_OP: a fetched bundle that fails decoding or breaks a rule issues no word (R53, R80). -/
def execIllegalOp (t : TileId) (s : State) : Out :=
  if !s.atBundle t then .next s
  else
    let s1 := s.focus t
    match s1.nextBundle with
    | .stop _ => .next s
    | .words l => match bundleFault (slotsOf l) (s1.ctx.crossed s1.ctx.pc) with
      | none => .next s
      | some v => .next (s1.stopBy (.trap .illegalOp v))

/-- FETCH_FAULT: the fetch of a bundle's words faults, or needs a walk, which parks the thread where it meets a stage-2 miss
(R53, R392, R416). -/
def execFetchFault (t : TileId) (s : State) : Out :=
  if !s.atBundle t then .next s
  else
    let s1 := s.focus t
    match s1.nextBundle with
    | .words _ => .next s
    | .stop f => .next (s1.stopBy f.verdict)

end Sys2Proof.Machine
end

