-- ==== Sys2Proof/Machine/Sched.lean ====
section
/-! DEFINITION. The tile scheduler (spec/23 R379–R386, R391–R393, spec/22 R365, R368, R370, spec/10 R214): cycles that pass,
saves that are due, the choice of the foreground strand, the pop of a pair, and the events of the scheduler. A function `ex`
is the meaning of the instructions, by which the readiness of a strand is known. -/

namespace Sys2Proof.Machine

/-! ### Readiness -/

/-- A strand of a tile looked at as its foreground strand, with the address of its next bundle under issue. -/
def State.focusOn (s : State) (t : TileId) (k : StrandId) : State :=
  let s1 := ({ s with cur := t }).modCore t fun c => { c with fg := some k }
  { s1 with issue := { Issue.zero with ba := s1.ctx.pc } }

/-- What the next element of an element-addressed word waits for. -/
def State.elemVerdict (s : State) (r : Replay) : Verdict :=
  match elemForm r.word with
  | none => .pass
  | some f => match r.next (128 / f.w) with
    | none => .pass
    | some i =>
      let va := r.addr f i
      let acc := f.op.access
      (s.accessCheck acc f.w va f.w).andThen
        (match s.locate acc va with
         | none => .pass
         | some pl => if f.op != .load && s.rewriting.isSome then .pass else s.elemServer acc pl f.w va)

/-- The operation of a work that a message carries, where it carries one. -/
def Body.pendOf : Body → Option (Nat × Nat)
  | .read r | .write r _ | .amo r _ _ _ | .slice r _ _ _ => some (r.owner, r.pend)
  | .netop _ _ o p | .msg _ o p _ _ _ => some (o, p)
  | .pair _ _ d => some d
  | .readRsp .. | .amoRsp .. | .netrsp .. | .borrow | .creditWords .. | .creditSeq _ | .ack _ | .recall _ => none

/-- A HALT waits no longer (R118): every result has landed, everything the strand issued has left the core, and the words of
the unit that it holds have been performed. -/
def State.haltReady (s : State) (t : TileId) (k : StrandId) : Bool :=
  let x := s.strandAt t k
  let kept (p : Pend) : Bool := p.fmt != PendFmt.drop ||
    s.relay.any fun m => !m.after.isEmpty && m.body.pendOf == some (x.owner, p.uid)
  x.ctx.inflight.isEmpty && !x.ctx.pends.any kept && !(s.heldBy t x.owner && !s.tiles[t].matrix.queue.isEmpty)

/-- A walk for a work is under way (R408). -/
def State.walking (s : State) (t : TileId) (owner : Nat) : Bool :=
  s.tiles[t].walks.any fun w => w.who.contains (.thread t owner)

/-- What a verdict says of readiness. -/
def State.verdictReady (s : State) (t : TileId) (owner : Nat) (v : Verdict) : Bool :=
  match v with
  | .pass | .trap .. | .stall => true
  | .wait => false
  | .miss .. => !s.walking t owner

/-- The rewrite of a strand that has issued RCOMMIT and waits. -/
def Strand.committing (x : Strand) : Option Rewrite :=
  match x.work with
  | .rewrite r => if r.committing then some r else none
  | .free | .thread _ | .firmware => none

/-- The element-addressed word that is being performed. -/
def Ctx.running (c : Ctx) : Option Replay := c.replay.filter fun r => r.running

/-- A sequence is quiesced for a transplant on some die (R307): its threads stand at bundle boundaries and none of its pairs is
popped. -/
def State.quiesced (s : State) (q : SeqId) : Bool := s.dies.toList.any fun d => d.quieted.contains q

/-- A strand's thread stands at a bundle boundary: for a transplant, or because it is about to be saved (R385). -/
def State.stands (s : State) (t : TileId) (k : StrandId) : Bool :=
  let x := s.strandAt t k
  x.leaving || s.quiesced x.seq && x.ctx.running.isNone && x.ctx.tail.isNone && (s.tiles[t].core.retry == 0 || s.tiles[t].core.fg != some k) && match x.work with
    | .thread _ => true
    | .free | .rewrite _ | .firmware => false

/-- No wait holds a strand (R379). -/
def State.strandReady (ex : Instr → State → Out) (s : State) (t : TileId) (k : StrandId) : Bool :=
  let x := s.strandAt t k
  let c := x.ctx
  if x.work == Work.free || c.parked || s.stands t k then false
  else if c.sleeping then c.event
  else match x.committing with
    | some r => s.commitReady t k r
    | none =>
      if !c.due.isEmpty then true
      else if c.halting then s.haltReady t k
      else match c.running with
        | some r => s.verdictReady t x.owner ((s.focusOn t k).elemVerdict r)
        | none => match c.tail with
          | some y => s.verdictReady t x.owner ((s.focusOn t k).tailVerdict ex t y)
          | none => s.verdictReady t x.owner ((s.focusOn t k).nextVerdict ex).1

/-! ### Time -/

/-- Cycles pass for a strand (R382–R384): the foreground strand's quantum runs, another waits, ready or not. -/
def Strand.pass (x : Strand) (n : Nat) (fg counts ready : Bool) : Strand :=
  match x.work with
  | .free => x
  | .thread _ | .rewrite _ | .firmware =>
    if fg then { x with ready := 0, unready := 0, quantum := if counts then x.quantum + n else x.quantum }
    else if ready then { x with ready := x.ready + n, unready := 0 }
    else { x with unready := x.unready + n }

/-- Cycles pass for a thread that waits in its frame. -/
def Thread.pass (n : Nat) (th : Thread) : Thread :=
  match th.state with
  | .saved => { th with ready := th.ready + n }
  | .resident _ | .parked | .sleep => th

/-- Cycles pass on a tile (R119, R368, R382–R384). `counts` says that they count for the quantum, `idle` that no strand was
ready. Log 71: DESIGN CHOICE. -/
def State.elapse (ex : Instr → State → Out) (s : State) (t : TileId) (n : Nat) (counts idle : Bool) : State :=
  let strands : Vector Strand 8 := Vector.ofFn fun k =>
    (s.strandAt t k).pass n (s.tiles[t].core.fg == some k) counts (s.strandReady ex t k)
  let quiet := idle && !s.tiles[t].bag.any fun e => e.park == 0
  let s1 := s.modCore t fun c =>
    { c with cycle := c.cycle + n, strands := strands, threads := c.threads.map (·.map (Thread.pass n)),
             sched := { c.sched with idle := if quiet then c.sched.idle + n else 0 } }
  s1.modTile t fun x => { x with bag := x.bag.map fun e => if e.park = 0 then { e with waited := e.waited + n } else e }

/-! ### Saves that are due -/

/-- A resident thread on a strand is to be saved (R385, R392): it is parked, or a pre-emption of it is pending and it is not
the foreground strand, or is that at a switch event. A HALT under way is not pre-empted, and a thread below a Monitor handler keeps
its strand. -/
def State.saveDue (s : State) (t : TileId) (k : StrandId) : Bool :=
  let x := s.strandAt t k
  let c := s.tiles[t].core
  (match x.work with
   | .thread _ => true
   | .free | .rewrite _ | .firmware => false) &&
  x.under.isNone && (x.leaving || x.ctx.parked || (x.preempt.isSome && !x.ctx.halting && (c.fg != some k || c.resched)))

/-- A thread saved, by the live map of the SAFE bundle at which its pre-emption is taken (R117, R385). -/
def State.saveNow (s : State) (t : TileId) (k : StrandId) : State :=
  let x := s.strandAt t k
  s.saveThread t k x.ctx.saveState (match x.safeAt with
    | some ba => s.liveMap x.seq ba
    | none => none)

/-- A save that is due: taken where the thread can be saved, and where its divide or its M words are still to be performed the
thread issues nothing more until then (R117, R384, R385). -/
def State.settleOne (s : State) (t : TileId) (k : StrandId) : State :=
  if !s.saveDue t k then s
  else if s.saveable t k then s.saveNow t k
  else s.modStrandAt t k fun x => { x with leaving := true }

/-- The saves that are due on a tile. -/
def State.settle (s : State) (t : TileId) : State := (List.finRange 8).foldl (fun a k => a.settleOne t k) s

/-! ### Candidates -/

/-- What the scheduler can choose (R382). -/
inductive Choice
  | resident (i : Fin 32) (k : StrandId)
  | saved (i : Fin 32)
  | strand (k : StrandId)
  | newPair
  deriving DecidableEq, Repr

/-- A candidate: its effective priority, and whether it stands for the foreground strand's own work. -/
structure Cand where
  pick : Choice
  pri : Fin 4
  deriving DecidableEq, Repr

/-- The candidate that a strand is, where it is ready. -/
def State.strandCand (ex : Instr → State → Out) (s : State) (t : TileId) (k : StrandId) : Option Cand :=
  let x := s.strandAt t k
  let some_ (p : Choice) (base : Fin 4) : Option Cand :=
    if s.strandReady ex t k then some { pick := p, pri := effPri base x.ready } else none
  match x.work with
  | .free => none
  | .thread i => some_ (.resident i k) x.pri
  | .rewrite r => some_ (.strand k) r.pair.pri
  | .firmware => some_ (.strand k) x.pri

/-- The ready strands of a tile. Log 71: DESIGN CHOICE. -/
def State.strandCands (ex : Instr → State → Out) (s : State) (t : TileId) : List Cand :=
  (List.finRange 8).filterMap (s.strandCand ex t)

/-- The matrix unit is free and cleared, as MCLAIM finds it (R173). -/
def Matrix.free (m : Matrix) : Bool := m.holder.isNone && !m.clearing && m.queue.isEmpty

/-- The SAVED threads of a tile (R382); one whose saved claim waits for the unit is not ready (R173, R297). Log 112: DEDUCED. -/
def State.savedCands (s : State) (t : TileId) : List Cand :=
  let c := s.tiles[t].core
  (List.finRange 32).filterMap fun i => match c.threads[i] with
    | none => none
    | some th => match th.state with
      | .saved =>
        if (match c.loading with
            | some (_, j) => j == i
            | none => false) || s.quiesced th.seq || (th.accs && !s.tiles[t].matrix.free) then none
        else some { pick := .saved i, pri := effPri th.pri th.ready }
      | .resident _ | .parked | .sleep => none

/-- The effective priority of a bag entry (R382). -/
def BagEntry.eff (e : BagEntry) : Fin 4 := effPri e.pri e.waited

/-- An entry is popped before another of its sequence: higher effective priority first, and at one level an aged entry ahead of
those pushed at it (R365, R382). -/
def BagEntry.ahead (a b : BagEntry) : Bool :=
  decide (b.eff.val < a.eff.val) || (a.eff == b.eff && decide (a.pri.val < a.eff.val) && b.pri == b.eff)

/-- The runnable entries of a tile whose sequences have it as a rewrite tile (R382). -/
def State.runnable (s : State) (t : TileId) : List BagEntry :=
  s.tiles[t].bag.filter fun e => e.park == 0 && !s.quiesced e.seq && match s.seqs[e.seq] with
    | some x => x.rtiles.contains t
    | none => false

/-- The sequence whose turn it is among those with runnable entries: round-robin after the last popped (R365). -/
def nextSeq (last : Option SeqId) (l : List SeqId) : Option SeqId :=
  let from_ : Nat := match last with
    | some q => q.val + 1
    | none => 0
  ((List.range 256).map fun i => (i + from_) % 256).findSome? fun n => l.find? fun q => q.val == n

/-- The pair that R365 pops next. -/
def State.nextPair (s : State) (t : TileId) : Option BagEntry :=
  let l := s.runnable t
  match nextSeq s.tiles[t].core.sched.lastSeq (l.map (·.seq)) with
  | none => none
  | some q => (l.filter fun e => e.seq == q).foldl (fun a e => match a with
    | none => some e
    | some x => if e.ahead x then some e else some x) none

/-- The thread that gives its strand to a choice of a priority (R384): one not ready for 4,096 cycles, the longest first;
otherwise the ready one of the lowest effective priority below the choice's. A thread below a Monitor handler keeps its strand. -/
def State.victim (ex : Instr → State → Out) (s : State) (t : TileId) (p : Fin 4) : Option StrandId :=
  let threads := (List.finRange 8).filter fun k =>
    let x := s.strandAt t k
    x.under.isNone && match x.work with
      | .thread _ => true
      | .free | .rewrite _ | .firmware => false
  let stuck := (threads.filter fun k => 4096 ≤ (s.strandAt t k).unready && !s.strandReady ex t k).foldl
    (fun (a : Option StrandId) k => match a with
      | none => some k
      | some j => if (s.strandAt t j).unready < (s.strandAt t k).unready then some k else some j) none
  let low := (threads.filterMap (s.strandCand ex t)).foldl (fun (a : Option Cand) x => match a with
      | none => some x
      | some y => if x.pri.val < y.pri.val then some x else some y) none
  match stuck, low with
  | some k, _ => some k
  | none, some { pick := .resident _ k, pri := q } => if q.val < p.val then some k else none
  | none, _ => none

/-- A choice that needs a strand can have one (R382, R384). -/
def State.roomFor (ex : Instr → State → Out) (s : State) (t : TileId) (p : Fin 4) : Bool :=
  s.tiles[t].core.freeStrand.isSome || (s.victim ex t p).isSome

/-- The candidates of R382; on a tile whose work is stopped, the strands only (R393). -/
def State.cands (ex : Instr → State → Out) (s : State) (t : TileId) : List Cand :=
  let pair : List Cand := match s.nextPair t with
    | some e => [{ pick := .newPair, pri := e.eff }]
    | none => []
  s.strandCands ex t ++ (if s.tiles[t].core.sched.stopped then [] else s.savedCands t ++ pair).filter fun x =>
    s.roomFor ex t x.pri

/-! ### The choice -/

/-- The thread-table entry of a candidate of the thread class. -/
def Choice.entry : Choice → Option Nat
  | .resident i _ | .saved i => some i.val
  | .strand _ | .newPair => none

/-- The place of a candidate of the rewrite class: its strand, or 8 for NEWPAIR (R382). -/
def Choice.place : Choice → Option Nat
  | .strand k => some k.val
  | .newPair => some 8
  | .resident .. | .saved _ => none

/-- The first of n places after the last, wrapping, at which a candidate stands. -/
def firstAfter (n : Nat) (last : Option Nat) (l : List (Nat × Choice)) : Option Choice :=
  let from_ : Nat := match last with
    | some i => i + 1
    | none => 0
  ((List.range n).map fun i => (i + from_) % n).findSome? fun i => (l.find? fun x => x.1 == i).map (·.2)

/-- Select (R382): the choice, with its priority. -/
def choose (x : Sched) (l : List Cand) : Option (Choice × Fin 4) :=
  match l with
  | [] => none
  | y :: ys =>
    let p := ys.foldl (fun (a : Fin 4) (z : Cand) => if a.val < z.pri.val then z.pri else a) y.pri
    let at_ := l.filter fun z => z.pri == p
    let threads := at_.filterMap fun z => z.pick.entry.map fun i => (i, z.pick)
    let rewrites := at_.filterMap fun z => z.pick.place.map fun i => (i, z.pick)
    let thread := if threads.isEmpty then false else if rewrites.isEmpty then true else !x.lastThread[p]
    (if thread then firstAfter 32 (x.lastT[p].map (·.val)) threads
     else firstAfter 9 (x.lastR[p].map (·.val)) rewrites).map fun c => (c, p)

/-- The choice recorded (R382). -/
def Sched.record (x : Sched) (c : Choice) (p : Fin 4) : Sched :=
  match c with
  | .resident i _ | .saved i => { x with lastThread := x.lastThread.set p true, lastT := x.lastT.set p (some i) }
  | .strand k => { x with lastThread := x.lastThread.set p false,
                          lastR := x.lastR.set p (some ⟨k.val, by omega⟩) }
  | .newPair => { x with lastThread := x.lastThread.set p false, lastR := x.lastR.set p (some 8) }

/-- The choice recorded in a tile. -/
def State.record (s : State) (t : TileId) (c : Choice) (p : Fin 4) : State :=
  s.modCore t fun y => { y with sched := y.sched.record c p }

/-- A strand becomes foreground: its wait and its quantum restart (R382, R383). -/
def State.foreground (s : State) (t : TileId) (k : StrandId) : State :=
  (s.modCore t fun c => { c with fg := some k, resched := false }).modStrandAt t k fun x =>
    { x with waited := 0, ready := 0, unready := 0, quantum := 0 }

/-! ### A new pair (R214, R364, R365, R370) -/

/-- A pair taken out of the bag ends without a rewrite. -/
def State.unborrow (s : State) (t : TileId) (e : BagEntry) : State :=
  if e.borrowed then s.modCore t fun c => { c with sched := { c.sched with borrowed := c.sched.borrowed - 1 } } else s

/-- The two nodes of a pair are live, unclaimed, and name each other's port 0 (R365). Log 72: DEDUCED. -/
def State.claimable (s : State) (t : TileId) (e : BagEntry) : Bool :=
  let hd (l : BitVec 50) := s.nodeWord e.seq t l 0
  let names (l m : BitVec 50) : Bool :=
    let w := s.nodeWord e.seq t l 8
    !isRedirect w && wordEnd w == .port m 0
  hdrLive (hd e.lineA) && !hdrClaimed (hd e.lineA) && hdrLive (hd e.lineB) && !hdrClaimed (hd e.lineB) &&
    names e.lineA e.lineB && names e.lineB e.lineA

/-- The first of a pair's node lines that carries a poison mark. -/
def State.badNode (s : State) (t : TileId) (e : BagEntry) : Option W :=
  ([e.lineA, e.lineB].find? fun l => match s.nodePlace e.seq t l with
    | some pl => s.placeBad pl 64
    | none => false).map lineAddr

/-- A claim that consumes poison (R304, R305): the pair runs again once and is then parked. -/
def State.poisonedPair (s : State) (t : TileId) (e : BagEntry) (va : W) : State :=
  let e1 := { e with borrowed := false, spilled := false, poisons := e.poisons + 1 }
  if e.poisons = 0 then (s.dropCleanLine t e.seq va).pushPair t e1 []
  else (s.pushPair t { e1 with park := 3 } []).seqEvent (dieOf t) e.seq 0x0003
    [lineAddr e.lineA >>> 6, lineAddr e.lineB >>> 6, 3]

/-- A pair without a rule is parked (R364). -/
def State.unruled (s : State) (t : TileId) (e : BagEntry) : State :=
  let ty (l : BitVec 50) : W := BitVec.ofNat 64 (hdrType (s.nodeWord e.seq t l 0))
  let s1 := (s.modCounts e.seq fun c => { c with rulemiss := c.rulemiss + 1 }).seqEvent (dieOf t) e.seq 0x0004
    [ty e.lineA, ty e.lineB]
  s1.pushPair t { e with borrowed := false, spilled := false, park := 5 } []

/-- The state of LFSRSEED at handler entry (R214). -/
def pairSeed (a b : BitVec 50) : BitVec 32 :=
  let x := a.setWidth 32 ^^^ (b.extractLsb' 0 16 ++ b.extractLsb' 16 16 : BitVec 32)
  if x = 0 then 1 else x

/-- The context with which a handler starts (R214). -/
def handlerCtx (r : Rule) (e : BagEntry) (n1 n2 : BitVec 50) (rwchk rwfp : W) : Ctx :=
  let flags := boolNat r.roam + 2 * boolNat r.swap + 4 * boolNat r.prim + 8 * boolNat r.quiet + 256 * e.pri.val +
    65536 * boolNat e.borrowed
  let g := ((Vector.replicate 64 (0 : W)).set 1 (lineAddr n1)).set 2 (lineAddr n2)
  let c := Ctx.zero
  { c with pc := r.handler, chkctl := rwchk &&& 3, fpctl := rwfp &&& 0x1F07, lfsr := pairSeed n1 n2,
           regs := { c.regs with g := g.set 3 (BitVec.ofNat 64 flags) } }

/-- A claimed node marked in its header (R365). -/
def State.setClaim (s : State) (t : TileId) (k : StrandId) (q : SeqId) (l : BitVec 50) : State :=
  s.setNodeWord q t l 0 (hdrClaim (s.nodeWord q t l 0) (some (t, k)))

/-- One node's operand pre-staged for the rewrite on the current strand, where it is a tile agent of types 0xF000 to 0xF003 and
its ADDR passes R178's checks of an operand (R370); its walk comes before the handler starts. -/
def State.prestage (s : State) (l : BitVec 50) : State :=
  let q := s.q
  let ty := hdrType (s.nodeWord q s.cur l 0)
  if ty < 0xF000 ∨ 0xF003 < ty then s
  else
    let va := s.nodeWord q s.cur l 40
    let s1 := match s.ownWindow .read va with
      | .error (.miss ..) => match s.walk q s.cur va with
        | .done e => s.install s.cur 1 0 e
        | .touch .. | .fault _ | .poisoned | .missing .. => s
      | .ok _ | .error _ => s
    match (interleave (s1.operandChecks va) []), s1.operandAt va with
    | .pass, some o => match o.pane with
      | some p => (s1.stage s1.cur (some p)).modRewrite fun r => { r with staged := r.staged ++ [p] }
      | none => s1
    | _, _ => s1

/-- A claimed pair's rewrite started on a strand (R214, R221, R365, R370). -/
def State.startRewrite (s : State) (t : TileId) (k : StrandId) (e : BagEntry) (r : Rule) : State :=
  let same := hdrType (s.nodeWord e.seq t e.lineA 0) == hdrType (s.nodeWord e.seq t e.lineB 0)
  let first := same || hdrType (s.nodeWord e.seq t e.lineA 0) == r.typeA.toNat
  let straight := first != r.swap
  let n1 := if straight then e.lineA else e.lineB
  let n2 := if straight then e.lineB else e.lineA
  let defaults : W × W := match s.seqs[e.seq] with
    | some x => (x.image.rwchk, x.image.rwfp)
    | none => (0, 0)
  let rw : Rewrite := { pair := e, node1 := lineAddr n1, node2 := lineAddr n2, buf := [], bundles := 0, allocs := [],
                        staged := [], wrote := [], committing := false }
  let strand : Strand := { Strand.zero with work := .rewrite rw, owner := s.fresh, seq := e.seq, pri := e.pri,
                                            ctx := handlerCtx r e n1 n2 defaults.1 defaults.2 }
  let s1 := ((((s.setClaim t k e.seq e.lineA).setClaim t k e.seq e.lineB).bump).modStrandAt t k fun _ => strand).foreground t k
  if r.prim then ({ s1 with cur := t }.prestage n1).prestage n2 else s1

/-- The pop of R365 onto a strand: stale entries are dropped and counted, and so on until a pair is claimed; where none is, the
scheduler chooses again. Log 72: DEDUCED. -/
def State.pop (s : State) (t : TileId) (k : StrandId) : Nat → State
  | 0 => s.switchEvent t
  | n + 1 =>
    match s.nextPair t with
    | none => s.switchEvent t
    | some e =>
      let s1 := (s.bagTake t e).modCore t fun c => { c with sched := { c.sched with lastSeq := some e.seq } }
      match s1.badNode t e with
      | some va => ((s1.poisonedPair t e va).unborrow t e).pop t k n
      | none =>
        if s1.claimable t e then
          let (r, s2) := s1.rule e.seq t (hdrType (s1.nodeWord e.seq t e.lineA 0)) (hdrType (s1.nodeWord e.seq t e.lineB 0))
          if r.found then (s2.startRewrite t k e r).active t e.seq
          else ((s2.unruled t e).unborrow t e).pop t k n
        else
          (((s1.modCounts e.seq fun c => { c with stale := c.stale + 1 }).active t e.seq).unborrow t e).pop t k n

/-! ### Select -/

/-- 64 mismatches within 2^30 cycles (R300). -/
def Core.tooMany (c : Core) : Bool := 64 ≤ (c.mismatches.filter fun m => c.cycle < m + 2 ^ 30).length

/-- A rewrite is under way on a tile. -/
def Core.rewriting (c : Core) : Bool :=
  c.strands.toList.any fun x => match x.work with
    | .rewrite _ => true
    | .free | .thread _ | .firmware => false

/-- A choice that needs a strand takes the lowest-numbered free one, or the one that R384 frees: that thread is saved at once
where it can be, and the choice waits for the save otherwise. -/
def State.onStrand (ex : Instr → State → Out) (s : State) (t : TileId) (p : Fin 4) (go : State → StrandId → State) : State :=
  match s.tiles[t].core.freeStrand with
  | some k => go s k
  | none => match s.victim ex t p with
    | none => s
    | some v =>
      if s.saveable t v then go (s.saveThread t v (s.strandAt t v).ctx.saveState none) v
      else s.modStrandAt t v fun x => { x with preempt := x.preempt.or (some 0) }

/-- The scheduler chooses (R381, R382): a resident strand issues from the next cycle, a saved thread's context is loaded, a new
pair is popped; with no candidate the core idles. A tile whose mismatches are too many is fenced at a rewrite boundary. -/
def State.select (ex : Instr → State → Out) (s : State) (t : TileId) : State :=
  let s0 := s.modCore t fun c => { c with fg := none, resched := false }
  let c := s0.tiles[t].core
  match choose c.sched (s0.cands ex t) with
  | none => if c.tooMany && !c.rewriting then s0.fenceTile t else s0.elapse ex t 1 false true
  | some (x, p) =>
    let s1 := s0.elapse ex t 1 false false
    if c.tooMany && (x == Choice.newPair || !c.rewriting) then s0.fenceTile t
    else match x with
      | .resident _ k | .strand k => (s1.record t x p).foreground t k
      | .saved i => s1.onStrand ex t p fun a k =>
          (a.record t x p).modCore t fun y => { y with loading := some (k, i) }
      | .newPair => s1.onStrand ex t p fun a k =>
          (a.record t x p).pop t k (a.tiles[t].bag.length + 1)

/-! ### The events of the scheduler -/

/-- SCOREBOARD_SWITCH: a wait of the foreground strand reaches its 9th cycle (R58, R381). -/
def State.scoreboardSwitch (ex : Instr → State → Out) (s : State) (t : TileId) : State :=
  match s.tiles[t].core.fg with
  | none => s
  | some k =>
    let n := (s.strandAt t k).waited
    if n = 0 then s
    else ((s.elapse ex t (9 - n) true false).modStrandAt t k fun x => { x with waited := 9 }).switchEvent t

/-- Another candidate stands at or above the foreground strand's effective priority (R383). -/
def State.rival (ex : Instr → State → Out) (s : State) (t : TileId) (k : StrandId) : Bool :=
  let x := s.strandAt t k
  let own := match x.work with
    | .rewrite r => r.pair.pri
    | .free | .thread _ | .firmware => x.pri
  (s.cands ex t).any fun y => decide (own.val ≤ y.pri.val) && match y.pick with
    | .resident _ j | .strand j => j != k
    | .saved _ | .newPair => true

/-- QUANTUM_EXPIRY (R383): a switch event where another candidate stands at or above the strand's priority; the quantum
restarts otherwise. -/
def State.quantumExpiry (ex : Instr → State → Out) (s : State) (t : TileId) : State :=
  match s.tiles[t].core.fg with
  | none => s
  | some k =>
    if (s.strandAt t k).quantum < 4096 then s
    else if s.rival ex t k then s.switchEvent t
    else s.modStrandAt t k fun x => { x with quantum := 0 }

/-- The cycles until a wait reaches its next full 65,536. -/
def toAge (n : Nat) : Nat := 65536 - n % 65536

/-- AGING (R382): cycles pass until a waiting candidate has waited a further full 65,536 of them. -/
def State.aging (ex : Instr → State → Out) (s : State) (t : TileId) : State :=
  let x := s.tiles[t]
  let strands := (List.finRange 8).filterMap fun k =>
    if x.core.fg == some k || !s.strandReady ex t k then none else some (toAge (s.strandAt t k).ready)
  let saved := x.core.threads.toList.filterMap fun th => match th with
    | some th => (match th.state with
      | .saved => some (toAge th.ready)
      | .resident _ | .parked | .sleep => none)
    | none => none
  let bag := x.bag.filterMap fun e => if e.park = 0 then some (toAge e.waited) else none
  match strands ++ saved ++ bag with
  | [] => s
  | n :: l => s.elapse ex t (l.foldl (fun a b => if b < a then b else a) n) false false

/-- PREEMPT_LIMIT (R385): the foreground thread has issued 256 bundles since the request; the pre-emption is taken. -/
def State.preemptLimit (s : State) (t : TileId) : State :=
  match s.tiles[t].core.fg with
  | none => s
  | some k => match (s.strandAt t k).preempt with
    | some n => if n < 256 then s else (s.switchEvent t).settle t
    | none => s

/-- RUNAWAY (R214): a rewrite's 4,097th bundle. -/
def State.runaway (s : State) (t : TileId) : State :=
  match s.tiles[t].core.fg with
  | none => s
  | some k =>
    let x := s.strandAt t k
    match x.work with
    | .rewrite r => if r.bundles < 4096 then s else s.takeTrap t k .runaway 4096 (some 0) x.ctx.pc
    | .free | .thread _ | .firmware => s

/-- A saved claim of the matrix unit restored (R297): it waits until the unit is free. -/
def State.restoreUnit (s : State) (t : TileId) (k : StrandId) (th : Thread) : Option State :=
  if !th.accs then some s
  else
    if !s.tiles[t].matrix.free then none
    else some (s.modMatrix t fun x => { x with holder := some (th.owner, k),
                                               accs := s.readAccs th.seq (framePlace t th.frame) })

/-- THREAD_RESTORE_END (R391): the context load ends, and the thread resumes as the foreground strand. A load that finds the unit of its
saved claim held ends in a switch event, as a wait of MCLAIM does (R173, R297): the thread stays SAVED; one that finds it still clearing
waits. Log 112: DEDUCED. -/
def State.restoreEnd (s : State) (t : TileId) (k : StrandId) : State :=
  match s.tiles[t].core.loading with
  | none => s
  | some (j, i) =>
    if j ≠ k then s
    else match s.tiles[t].core.threads[i] with
      | none => s.modCore t fun c => { c with loading := none, resched := true }
      | some th => match s.restoreUnit t k th with
        | none => if s.tiles[t].matrix.holder.isSome then s.modCore t fun c => { c with loading := none, resched := true } else s
        | some s1 =>
          let strand : Strand := { Strand.zero with work := .thread i, owner := th.owner, seq := th.seq, pri := th.pri,
                                                    ctx := s.readFrame t th th.saved }
          let th1 := { th with state := .resident k, ready := 0, accs := false, mapped := false }
          let s2 := (s1.modStrandAt t k fun _ => strand).modThread t i fun _ => th1
          (s2.modCore t fun c => { c with loading := none }).foreground t k

/-- The relay neighbours of a tile, in direction order N, E, S, W. Log 107: DEDUCED. -/
def neighbour (t : TileId) (d : Fin 4) : Option TileId :=
  let x := t.val % 32
  let y := t.val / 32
  match d with
  | 0 => if y = 0 then none else some ⟨t.val - 32, by omega⟩
  | 1 => if x = 31 then none else some ⟨(t.val + 1) % 1024, by omega⟩
  | 2 => if h : t.val + 32 < 1024 then some ⟨t.val + 32, h⟩ else none
  | 3 => if x = 0 then none else some ⟨t.val - 1, by omega⟩

/-- The next relay neighbour in the tile's partition, round-robin after the last asked (R368). Log 107: DEDUCED. -/
def State.askNext (s : State) (t : TileId) : Option (Fin 4 × TileId) :=
  let last := s.tiles[t].core.sched.lastAsked
  [last + 1, last + 2, last + 3, last].findSome? fun d => match neighbour t d with
    | some u => if s.tiles[u].part == s.tiles[t].part then some (d, u) else none
    | none => none

/-- BORROW_START (R368). -/
def State.borrowStart (s : State) (t : TileId) : State :=
  let x := s.tiles[t].core.sched
  if x.idle < 256 ∨ 16 ≤ x.borrowed ∨ x.stopped then s
  else match s.tiles[t].part, s.askNext t with
    | some p, some (d, u) =>
      (s.modCore t fun c => { c with sched := { c.sched with idle := 0, lastAsked := d } }).send t u p .borrow []
    | _, _ => s

/-- The chained free nodes of a pool page (R357): each with POOL = 1 and the next one's address at offset 40. -/
def State.chainNodes (s : State) (q : SeqId) (t : TileId) (va : W) (last : W) : Nat → State
  | 0 => s
  | n + 1 =>
    let node := va + BitVec.ofNat 64 (64 * n)
    let next := if n = 63 then last else node + 64
    let clear := (List.range 8).foldl (fun a i => a.setNodeWord q t (lineOf node) (8 * i) 0) s
    ((clear.setNodeWord q t (lineOf node) 0 (putField 0 25 1 1)).setNodeWord q t (lineOf node) 40 next).chainNodes q t va last n

/-- The pairs of a sequence that a tile parked on its empty pool are runnable (R361). Log 73: DEDUCED. -/
def State.poolRefilled (s : State) (q : SeqId) : State :=
  (List.finRange 1024).foldl (fun a t =>
    (a.tiles[t].bag.filter fun e => e.seq == q && e.park == 2).foldl (fun b e => b.repark t q e.lineA e.lineB 2 0) a) s

/-- POOL_REFILL (R357): the partition manager gives an empty pool a page that is pinned to the tile, from the sequence's node
budget, and the pairs parked on a pool of the sequence go on. Log 37: DEDUCED. -/
def State.poolRefill (s : State) (t : TileId) (q : SeqId) (page : Page) : State :=
  match s.seqs[q] with
  | none => s
  | some x =>
    if (s.tiles[t].seqOn q).head ≠ 0 ∨ x.nodesLeft < 64 ∨ s.nodePlace q t (lineOf page.va) ≠ some (.hbm page.pa t) ∨
        page.va.toNat % 4096 ≠ 0 then s
    else
      let s1 := s.chainNodes q t page.va 0 64
      let s2 := s1.modTileSeq t q fun y => { y with head := page.va }
      (s2.modSeq q fun y => { y with nodesLeft := y.nodesLeft - 64 }).poolRefilled q

/-- PARALLAX_RETRY (R300): the hold of 12 cycles ends, and the bundle issues again. -/
def State.parallaxRetry (ex : Instr → State → Out) (s : State) (t : TileId) : State :=
  if s.tiles[t].core.hold then (s.elapse ex t 12 false false).modCore t fun c => { c with hold := false } else s

end Sys2Proof.Machine
end

