-- ==== Sys2Proof/Machine/MemService.lean ====
section
/-! DEFINITION. Memory service (spec/13 R270–R278): requests of the home banks before the memory ports, the ports' replies, and the
accesses of tiles in bypass. -/

namespace Sys2Proof.Machine

/-- The first byte of a request's line. -/
def MemReq.pa (m : MemReq) : Nat := 64 * m.line

/-- Two requests stand in one queue of a port (R270): the partition's, for one pseudo-channel. -/
def MemReq.sameQueue (a b : MemReq) : Bool :=
  partOf a.seq == partOf b.seq && stackOf a.pa == stackOf b.pa && pseudoOf a.pa == pseudoOf b.pa

/-- The request changed in place. -/
def State.modReq (s : State) (uid : Nat) (f : MemReq → MemReq) : State :=
  { s with transfers := s.transfers.map fun m => if m.uid = uid then f m else m }

/-- The request has ended. -/
def State.dropReq (s : State) (uid : Nat) : State := { s with transfers := s.transfers.filter fun m => m.uid != uid }

/-! ### Header words (R272, R273) -/

/-- OP of a header. -/
def MemOp.code : MemOp → Nat
  | .read => 0
  | .write => 1
  | .rdata => 2
  | .wack => 3
  | .nack => 4
  | .bypass _ => 5

/-- BYOP of a relay access (R278): load, store, atomic, reduction slice; 4 is reserved, for what is no access. -/
def Body.byop : Body → Nat
  | .read _ => 0
  | .write .. => 1
  | .amo .. => 2
  | .slice .. => 3
  | .readRsp .. | .amoRsp .. | .pair .. | .netop .. | .netrsp .. | .borrow | .msg .. | .creditWords .. | .creditSeq _ | .ack _
  | .recall _ => 4

/-- BYOP of a request: that of the message whose access it is. -/
def State.byopOf (s : State) (m : MemReq) : Nat :=
  match m.op with
  | .bypass uid => ((s.relay.find? fun x => x.uid == uid).map fun x => x.body.byop).getD 4
  | .read | .write | .rdata | .wack | .nack => 0

/-- The key-generation tag of a line's bytes (R273, R425): 1 where they were last written under key 1 of their sequence's slot. -/
def State.lineGen (s : State) (m : MemReq) : Bool :=
  match s.seqs[m.seq].bind fun x => x.slots[dieOf m.home] with
  | none => false
  | some k =>
    let key1 := s.dies[dieOf m.home].keys[k].key1
    key1 != 0 && getAt 0 s.keyed m.pa == key1

/-- The header word of a transfer (R273); TAG is the request's number. Log 62: DESIGN CHOICE. -/
def State.header (s : State) (m : MemReq) : BitVec 256 :=
  BitVec.ofNat 256 (m.op.code * 2 ^ 121 + m.line % 2 ^ 50 * 2 ^ 71 + m.uid % 2 ^ 16 * 2 ^ 55 + m.home.val * 2 ^ 45 +
    (partOf m.seq).val * 2 ^ 41 + boolNat (s.lineGen m) * 2 ^ 40 + boolNat (m.bad0 || m.bad1) * 2 ^ 39 + s.byopOf m % 2 ^ 7 * 2 ^ 32)

/-- OP, PART and BYOP of a header word. -/
def headerOp (x : BitVec 256) : Nat := bitsAt x.toNat 121 3
/-- PART. -/
def headerPart (x : BitVec 256) : Nat := bitsAt x.toNat 41 4
/-- BYOP. -/
def headerByop (x : BitVec 256) : Nat := bitsAt x.toNat 32 7

/-- A partition's memory circuit at a port (R272): its request circuit, or its reply circuit. -/
def State.memCircuit (s : State) (p : PartId) (port : Fin 96) (reply : Bool) : Option Standing :=
  s.standing.find? fun y => y.part == some p && y.port == some (port, reply)

/-- A header reaches its port's queue of 32 entries, behind those there, over its partition's request circuit from the anchor
(R270, R272, R274); one of another partition or with a reserved OP is discarded and counted, and a reserved BYOP is answered with
NACK (R273, R278). -/
def State.reachPort (s : State) (n : Nat) (is : MemOp → Bool) : State :=
  match s.transfers[n]? with
  | none => s
  | some m =>
    if !is m.op || m.queued then s
    else match s.memCircuit (partOf m.seq) (portOf m.pa) false with
      | none => s
      | some y =>
        let h := s.header m
        let rest := s.transfers.eraseIdx n
        if y.part.map (·.val) != some (headerPart h) || 6 ≤ headerOp h then
          ({ s with transfers := rest }).modTile (memoryRouter (portOf m.pa)) fun x => { x with syndromes := x.syndromes + 1 }
        else if headerOp h = 5 ∧ 4 ≤ headerByop h then { s with transfers := rest ++ [{ m with op := .nack }] }
        else if 32 ≤ (s.transfers.filter fun x => x.queued && x.sameQueue m).length then s
        else { s with transfers := rest ++ [{ m with queued := true }] }

/-- MEMORY_READ (R273, R276). -/
def execMemoryRead (n : Nat) (s : State) : Out := .next (s.reachPort n (· == .read))
/-- MEMORY_WRITE (R273, R276). -/
def execMemoryWrite (n : Nat) (s : State) : Out := .next (s.reachPort n (· == .write))

/-- A stack changed. -/
def State.modStack (s : State) (k : StackId) (f : Stack → Stack) : State := { s with hbmStacks := s.hbmStacks.set k (f s.hbmStacks[k]) }

/-- The poison mark of a granule in HBM itself. -/
def State.markStack (s : State) (pa : Nat) (bad : Bool) : State :=
  s.modStack (stackOf pa) fun k =>
    let n := pa % 2 ^ 36 / 32
    { k with bad := if bad then n :: k.bad.filter (· != n) else k.bad.filter (· != n) }

/-- The port serves a request (R273, R274, R309): a fenced pseudo-channel refuses it; a read finds the line's marks, a write
leaves the line's. Log 74: DESIGN CHOICE. -/
def State.servePort (s : State) (m : MemReq) : State :=
  let k := s.hbmStacks[stackOf m.pa]
  if k.fenced.contains (pseudoOf m.pa) then s.modReq m.uid fun x => { x with op := .nack, queued := false }
  else if m.op = .read then
    let bad (g : Nat) : Bool := k.bad.contains ((m.pa + 32 * g) % 2 ^ 36 / 32)
    (s.modReq m.uid fun x => { x with op := .rdata, queued := false, bad0 := bad 0, bad1 := bad 1 }).modCounts m.seq fun c =>
      { c with linesRead := c.linesRead + 1 }
  else
    (((s.modReq m.uid fun x => { x with op := .wack, queued := false }).markStack m.pa m.bad0).markStack (m.pa + 32)
      m.bad1).modCounts m.seq fun c => { c with linesWritten := c.linesWritten + 1 }

/-- The requests that stand in a port's queues before one and must be served before it: of its own queue, and of every partition for
its line (R274, R275). -/
def State.servedBefore (s : State) (m : MemReq) : Bool :=
  (s.transfers.takeWhile fun x => x.uid != m.uid).any fun x => x.queued && (x.sameQueue m || x.line == m.line)

/-- A port serves a request now (R275, R281): nothing before it waits, and its stack is up and does not retrain. -/
def State.servable (s : State) (m : MemReq) : Bool :=
  let k := s.hbmStacks[stackOf m.pa]
  m.queued && k.up && !k.retraining && !s.servedBefore m

/-- PORT_SERVICE (R274, R275): the oldest request of a partition's queue; a stack that retrains holds its queues (R281). A bypass
access is BYPASS's. -/
def execPortService (port : Fin 96) (part : PartId) (chan : Fin 48) (s : State) : Out :=
  match s.transfers.find? fun m => m.queued && partOf m.seq == part && portOf m.pa == port && chanOf m.pa == chan with
  | none => .next s
  | some m => match m.op with
    | .bypass _ => .next s
    | .read | .write | .rdata | .wack | .nack => if s.servable m then .next (s.servePort m) else .next s

/-- The lines of a bank in the set of a line, most recently used first. -/
def Tile.setLines (x : Tile) (line : Nat) : List BankLine := x.bank.filter fun l => sameSet l.line line

/-- A dirty line written back (R276): its WRITE takes the data as they stand, and it is kept until the WACK. -/
def State.writeBackLine (s : State) (home : TileId) (l : BankLine) : State :=
  if s.transfers.any fun m => m.home == home && m.line == l.line then s
  else
    let m : MemReq := { uid := s.fresh, op := .write, line := l.line, home := home, seq := l.seq, queued := false,
                        bad0 := l.bad0, bad1 := l.bad1 }
    let s1 := { s.bump with transfers := s.transfers ++ [m] }
    s1.modBankLine (64 * l.line) home fun x => { x with dirty := false }

/-- A line that arrives is installed in its home's bank (R276): where the set is full, the least recently used line goes, once it has come
back from a near buffer (R136), is clean, and no transfer of it is under way. A home in reset keeps nothing. Log 74: DESIGN CHOICE. -/
def State.installLine (s : State) (m : MemReq) (bad0 bad1 : Bool) : State :=
  let x := s.tiles[m.home]
  let line : BankLine := { line := m.line, seq := m.seq, dirty := false, bad0 := bad0, bad1 := bad1 }
  let put (drop : Nat → Bool) : State :=
    (s.dropReq m.uid).modTile m.home fun y => { y with bank := line :: y.bank.filter fun l => !drop l.line }
  if x.inReset then s.dropReq m.uid
  else if (x.setLines m.line).length < 16 then put fun l => l == m.line
  else match (x.setLines m.line).getLast? with
    | none => s
    | some v => match s.nearHolder v.line with
      | some t => s.recall m.home t (partOf v.seq) v.line
      | none =>
        if v.dirty then s.writeBackLine m.home v
        else if s.transfers.any fun y => y.home == m.home && y.line == v.line then s
        else put fun l => l == m.line || l == v.line

/-- RDATA (R276): the line is installed with its poison marks. -/
def execRdata (n : Nat) (s : State) : Out :=
  match s.transfers[n]? with
  | none => .next s
  | some m => if m.op = .rdata then .next (s.installLine m m.bad0 m.bad1) else .next s

/-- WACK (R276): a written-back line is released, unless a store has come to it or a near buffer has taken it since. -/
def execWack (n : Nat) (s : State) : Out :=
  match s.transfers[n]? with
  | none => .next s
  | some m =>
    if m.op ≠ .wack then .next s
    else .next ((s.dropReq m.uid).modTile m.home fun x =>
      { x with bank := x.bank.filter fun l => l.line != m.line || l.dirty || (s.nearHolder l.line).isSome })

/-- NACK (R273): the home treats it as POISON. A line that could not be written is lost. -/
def execNack (n : Nat) (s : State) : Out :=
  match s.transfers[n]? with
  | none => .next s
  | some m =>
    if m.op ≠ .nack then .next s
    else match s.bankLine m.pa m.home with
      | none => .next (s.installLine m true true)
      | some _ => .next ((s.dropReq m.uid).modBankLine m.pa m.home fun l => { l with bad0 := true, bad1 := true })

/-- A request performed where it stands, without its home's bank. -/
def State.carryOut (s : State) (m : Msg) : State :=
  match m.body with
  | .read r => s.doRead m r
  | .write r x => s.doWrite r x
  | .amo r op x c => s.doAmo m r op x c
  | .readRsp .. | .amoRsp .. | .pair .. | .netop .. | .netrsp .. | .borrow | .msg .. | .creditWords .. | .creditSeq _
  | .ack _ | .recall _ | .slice .. => s

/-- The message of a bypass access performed on HBM (R278): BYOP 0, 1 and 2 as the request that it is; BYOP 3 a slice, which is
accepted where the port's hold has room. On a fenced pseudo-channel it finds poison (R273). -/
def State.bypassServe (s : State) (m : MemReq) (uid : Nat) : State :=
  let k := s.hbmStacks[stackOf m.pa]
  let s1 := if k.fenced.contains (pseudoOf m.pa) then (s.markStack m.pa true).markStack (m.pa + 32) true else s
  match s1.relay.findIdx? fun x => x.uid == uid with
  | none => s1
  | some n => match s1.relay[n]? with
    | none => s1
    | some x => match x.body with
      | .slice r idx data mask =>
        s1.deliver n Body.isSlice State.sliceMsgRoom (atOnce fun a _ => a.doSlice r idx data mask)
      | .read _ | .readRsp .. | .write .. | .amo .. | .amoRsp .. | .pair .. | .netop .. | .netrsp .. | .borrow
      | .msg .. | .creditWords .. | .creditSeq _ | .ack _ | .recall _ =>
        if x.arrived.isSome && !x.served then (s1.carryOut x).finishMsg uid else s1

/-- BYPASS (R278): an access to a line whose home is in bypass reaches its port's queue, and is performed there in the order of
arrival (R270, R275). -/
def execBypass (n : Nat) (s : State) : Out :=
  match s.transfers[n]? with
  | none => .next s
  | some m => match m.op with
    | .bypass uid =>
      if !m.queued then
        .next (s.reachPort n fun
          | .bypass _ => true
          | .read | .write | .rdata | .wack | .nack => false)
      else if s.servable m then .next ((s.bypassServe m uid).dropReq m.uid) else .next s
    | .read | .write | .rdata | .wack | .nack => .next s

end Sys2Proof.Machine
end

