-- ==== Sys2Proof/Machine/Standing.lean ====
section
/-! DEFINITION. What stands in the fabric beside tenants' circuits: the memory circuits of partitions (spec/13 R272), the event circuits
of dies (spec/26 R422), and the next-hop tables of the relay plane (spec/12 R245, R258). -/

namespace Sys2Proof.Machine

/-! ### Standing circuits (R233, R272, R422) -/

/-- A standing circuit that is wanted: it has no path and no slots yet; where it ends, and how many slots it holds. -/
structure StandWish where
  circuit : Standing
  goal : TileId
  slots : Nat
  deriving DecidableEq, Repr

/-- The circuits of a partition's memory port: a request circuit from its anchor, and a reply circuit back (R272). -/
def memoryWishes (p : PartId) (mslots : Nat) (port : Fin 96) (anchor : TileId) : List StandWish :=
  let y (reply : Bool) (r : Route) : Standing :=
    { part := some p, port := some (port, reply), die := ⟨port.val / 24, by omega⟩, route := r, path := [], slots := [], delay := 0 }
  [⟨y false { src := anchor, inp := 5, lead := 0, out := 7 }, memoryRouter port, mslots⟩,
   ⟨y true { src := memoryRouter port, inp := 7, lead := 1, out := 5 }, anchor, mslots⟩]

/-- The memory circuits of a partition. -/
def Partition.wishes (x : Partition) (p : PartId) : List StandWish := x.anchors.flatMap fun a => memoryWishes p x.mslots a.1 a.2

/-- The event circuits of dies 1 to 3: slot 1, or the first that R233 allows (R422). -/
def eventWishes : List StandWish :=
  [1, 2, 3].map fun (d : DieId) =>
    ⟨{ part := none, port := none, die := d, route := tileRoute (controllerRouter d), path := [], slots := [], delay := 0 },
     controllerRouter 0, 1⟩

/-- A wanted circuit with the path and the slots that the Meridian grants it (R233, R250): no budget of R250 counts. -/
def State.granted (s : State) (x : StandWish) : Option Standing :=
  match candidates (s.tryPath 0 none x.circuit.route x.slots 0 []) x.circuit.route.src x.goal with
  | .granted p l => some { x.circuit with path := p, slots := l, delay := (x.circuit.route.links p).elim 0 (·.2.2) }
  | .budget | .noslot | .unreachable => none

/-- Wanted circuits granted one after another; none where one of them cannot be. -/
def State.grantAll (s : State) : List StandWish → Option (List Standing)
  | [] => some []
  | x :: l => (s.granted x).bind fun y => (({ s with standing := s.standing ++ [y] } : State).grantAll l).map (y :: ·)

/-- A standing circuit opened: its table entries are written (R245, R246). -/
def State.stand (s : State) (y : Standing) : State :=
  ({ s with standing := s.standing ++ [y] } : State).writeLinks y.uses y.slots (s.liveFrom y.uses 0) true

/-- Standing circuits that a test picks closed: their entries go. -/
def State.unstand (s : State) (f : Standing → Bool) : State :=
  let s1 := (s.standing.filter f).foldl (fun a y => a.dropLinks y.uses y.slots) s
  { s1 with standing := s1.standing.filter fun y => !f y }

/-- Two standing circuits serve one purpose. -/
def Standing.same (a b : Standing) : Bool := a.part == b.part && a.port == b.port && a.die == b.die

/-- Every standing circuit that partitions and dies should have. -/
def State.allWishes (s : State) : List StandWish :=
  eventWishes ++ (List.finRange 16).flatMap fun p => (s.parts[p]).elim [] fun x => x.wishes p

/-- Those that are missing opened, where the Meridian can grant them (R272, R422, R423). -/
def State.completeStanding (s : State) : State :=
  s.allWishes.foldl (fun a x =>
    if a.standing.any x.circuit.same then a
    else match a.granted x with
      | some y => a.stand y
      | none => a) s

/-! ### Next-hop tables (R256, R258) -/

/-- The die of a block. -/
def blockDie (b : Fin 64) : DieId :=
  let right := 4 ≤ b.val % 8
  let low := 4 ≤ b.val / 8
  if right then (if low then 2 else 1) else if low then 3 else 0

/-- Neighbouring blocks share an edge (R27, R258): block b stands at column b mod 8 and row b div 8. -/
def blocksTouch (a b : Fin 64) : Bool :=
  (a.val / 8 == b.val / 8 && (a.val + 1 == b.val || b.val + 1 == a.val)) || a.val + 8 == b.val || b.val + 8 == a.val

/-- A message can go from a block to a neighbouring one: across a die edge, over a link in service. -/
def State.blockLink (s : State) (a b : Fin 64) : Bool := blocksTouch a b && s.edgeBetween (blockDie a) (blockDie b)

/-- The blocks of a mask. -/
def blockList (m : BitVec 64) : List (Fin 64) := (List.finRange 64).filter fun b => m.getLsbD b.val

/-- The blocks of a list by their distance in block hops from a block: `front` are those at the distance reached. -/
def State.blockRings (s : State) (blocks : List (Fin 64)) (front : List (Fin 64)) : Nat → List (List (Fin 64))
  | 0 => [front]
  | n + 1 =>
    let rest := blocks.filter fun b => !front.contains b
    let next := rest.filter fun b => front.any fun a => s.blockLink a b
    if next.isEmpty then [front] else front :: s.blockRings rest next n

/-- The blocks that come next on a shortest way from a block to another. -/
def State.blocksToward (s : State) (blocks : List (Fin 64)) (from_ goal : Fin 64) : List (Fin 64) :=
  let rings := s.blockRings blocks [goal] 64
  match rings.findIdx? fun l => l.contains from_ with
  | some (n + 1) => (rings.getD n []).filter fun b => s.blockLink b from_
  | some 0 | none => []

/-- The port code toward a neighbouring block: 6 where the X port crosses the die edge there (R241, R243, R258). Log 111: DESIGN CHOICE. -/
def portToward (t : TileId) (b : Fin 64) : Fin 8 :=
  let a := blockOf t
  let u : TileId := if b.val + 8 = a then ⟨t.val - 32, by omega⟩ else if a + 8 = b.val then ⟨(t.val + 32) % 1024, by omega⟩
    else if b.val < a then ⟨t.val - 1, by omega⟩ else ⟨(t.val + 1) % 1024, by omega⟩
  if dieOf u ≠ dieOf t ∧ (move t .x).map (·.goal) = some u then 6 else dirTo t u

/-- A next-hop entry (R258): 0 for a block outside the partition or out of reach, 5 for the tile's own, otherwise the port toward the next
block of a way that is minimal in block hops; which of several the manager takes is not architectural. -/
def State.hopChoice (s : State) (n : Nat) (t : TileId) (blocks : BitVec 64) (b : Fin 64) : Fin 8 :=
  if !blocks.getLsbD b.val then 0
  else if blockOf t = b.val then 5
  else
    let l := s.blocksToward (blockList blocks) ⟨blockOf t % 64, by omega⟩ b
    match l[(Config.nextHop n t.val b.val).val % l.length]? with
    | some c => portToward t c
    | none => 0

/-- The next-hop words of a partition's tiles put on the configuration tree, where an entry changes (R245, R258, R420): the n-th
writing. -/
def State.writeHops (s : State) (blocks : BitVec 64) : State :=
  (tilesOf blocks).foldl (fun a t => (List.finRange 64).foldl (fun b i =>
    let code := s.hopChoice s.fresh t blocks i
    if !s.hopsPending t && s.tiles[t].nextHop[i] == code then b else b.configure t (.hop i code)) a) s.bump

end Sys2Proof.Machine
end

