-- ==== Sys2Proof/Machine/Eclipse.lean ====
section
/-! DEFINITION. The end of a sequence (spec/26 R427, R428, spec/18 R330, spec/16 R294), the resets of VFs, partitions, dies and
the package (spec/26 R423, spec/13 R277, spec/23 R393), and the making and unmaking of partitions (spec/26 R419, R420, spec/13
R271, R272). -/

namespace Sys2Proof.Machine

/-! ### Eclipse -/

/-- The sequence that a relay message belongs to. -/
def Body.seq? : Body → Option SeqId
  | .read r => some r.seq
  | .readRsp r _ _ => some r.seq
  | .write r _ => some r.seq
  | .amo r _ _ _ => some r.seq
  | .amoRsp r _ _ _ => some r.seq
  | .slice r _ _ _ => some r.seq
  | .pair e _ _ => some e.seq
  | .netop _ q _ _ => some q
  | .msg q _ _ _ _ _ => some q
  | .netrsp .. | .borrow | .creditWords .. | .creditSeq _ | .ack _ | .recall _ => none

/-- A message of a sequence that ends: what it asks for is answered with KEY_VOID to nobody (R330, R428). It keeps its number
in its pair's order (R259), and does nothing; number 0 is no circuit's handle. -/
def Msg.empty (m : Msg) : Msg := { m with body := .creditWords 0 0, after := [] }

/-- A message belongs to a sequence. -/
def Msg.of (m : Msg) (q : SeqId) : Bool := m.body.seq? == some q

/-- A requester of a page belongs to a sequence. -/
def State.waiterOf (s : State) (q : SeqId) (w : Waiter) : Bool :=
  match w with
  | .pair _ p _ _ => p == q
  | .thread t owner =>
    let c := s.tiles[t].core
    ((List.finRange 32).any fun i => match c.threads[i] with
      | some th => th.owner == owner && th.seq == q
      | none => false) ||
    (List.finRange 8).any fun k => c.strands[k].owner == owner && c.strands[k].seq == q && c.strands[k].work != .free
  | .chan t c uid =>
    ((s.tiles[t].chans[c].queue.any fun m => m.uid == uid && m.seq == q)) ||
    (s.dies[dieOf t].meridian.any fun m => m.uid == uid && m.seq == q)

/-- A sequence's requesters wait no longer: a tag that nobody waits on is retired (R415, R427). -/
def State.retireTags (s : State) (q : SeqId) : State :=
  let drop (t : PageTag) : PageTag :=
    let l := t.waiters.filter fun w => !s.waiterOf q w
    { t with waiters := l, retired := t.retired || l.isEmpty }
  s.modStream (vfFn (s.vfOf q)) fun x =>
    { x with tags := x.tags.map drop, misses := x.misses.filter fun m => !s.waiterOf q m.who }

/-- The hold of a Parallax retry ends with the strand that it holds. -/
def State.unhold (s : State) (t : TileId) (k : StrandId) : State :=
  s.modCore t fun c => if c.fg = some k then { c with hold := false, retry := 0, released := [], retryRegs := none } else c

/-- A strand's work ended by an Eclipse (R427): a rewrite that has issued RCOMMIT completes, another is discarded, and a thread
ends where it stands. Log 77: DESIGN CHOICE. -/
def State.endStrand (s : State) (t : TileId) (q : SeqId) (k : StrandId) : State :=
  let x := s.strandAt t k
  if x.seq ≠ q then s
  else match x.work with
    | .free => s
    | .rewrite r => if r.committing then (s.unhold t k).endCommit t k r else (s.unhold t k).discard t k r .again
    | .thread _ | .firmware => (((s.unhold t k).orphanMatrix t x.owner false).dropWaits t x.owner).freeStrand t k

/-- The thread table without a sequence's entries. -/
def Core.dropThreads (c : Core) (q : SeqId) : Core :=
  let keep (x : Option Thread) : Option Thread := x.filter fun y => y.seq != q
  let loading := c.loading.filter fun l => ((c.threads[l.2]).map (·.seq)) != some q
  { c with threads := c.threads.map keep, loading := loading,
           icache := c.icache.filter fun l => l.seq != q, almanac := c.almanac.filter fun r => r.seq != q }

/-- What a channel tells of a sequence forgotten. -/
def Chan.dropSeq (x : Chan) (q : SeqId) : Chan :=
  { x with lastRec := x.lastRec.filter fun y => y.1 != q, lastCause := x.lastCause.filter fun y => y.1 != q }

/-- The commands of a sequence on a tile cancelled and ended (R200, R202, R330). -/
def State.endChans (s : State) (q : SeqId) (t : TileId) : State :=
  (List.finRange 4).foldl (fun a c =>
    if a.tiles[t].chans[c].queue.any fun m => m.seq == q then
      (a.cancelChan t c q).endCancelled t c q 3
    else a) s

/-- The work of a sequence that still runs on a tile's panes ended (R330): its M words drain. -/
def State.drainTile (s : State) (q : SeqId) (t : TileId) : State := s.drainUnit t q s.tiles[t].matrix.queue.length

/-- What a tile keeps for a sequence dropped: its threads and held spawns, bag, walks, TLB and Almanac entries and panes (R330,
R427). -/
def Tile.dropSeq (x : Tile) (q : SeqId) : Tile :=
  let core := x.core.dropThreads q
  let lent := (x.bag.filter fun e => e.seq == q && e.borrowed).length
  let sched := { core.sched with held := core.sched.held.filter fun h => h.seq != q, borrowed := core.sched.borrowed - lent }
  let pane (p : Pane) : Pane := if p.seq = some q then Pane.zero else p
  let y := x.dropEntries 15 fun e => e.seq == q
  { y with core := { core with sched := sched }, panes := x.panes.map pane,
           chans := x.chans.map fun c => c.dropSeq q, walks := x.walks.filter fun w => w.seq != q,
           bag := x.bag.filter fun e => e.seq != q, seqs := x.seqs.filter fun y => y.seq != q }

/-- A sequence's key slot on a die zeroized, and its TLBI KIND 0 done: the slot is EMPTY (R427 steps 3 and 4). -/
def State.voidKey (s : State) (q : SeqId) (d : DieId) : State :=
  match s.seqs[q] with
  | none => s
  | some x => match x.slots[d] with
    | none => s
    | some k =>
      let s1 := (s.keyop d k .zero).1
      s1.modDie d fun y => { y with keys := y.keys.set k y.keys[k].invalidated }

/-- An Eclipse (R427): the steps on every tile and die, in one step. SEQEND carries the cause, where it is sent: 0 command, 1
reset, 2 DAYBREAK, 3 split. Log 77: DESIGN CHOICE. -/
def State.eclipse (s : State) (q : SeqId) (cause : Option Nat) : State :=
  match s.seqs[q] with
  | none => s
  | some x =>
    let s1 := s.retireTags q
    let s2 := (List.finRange 1024).foldl (fun a t => (List.finRange 8).foldl (fun b k => b.endStrand t q k) a) s1
    let s2a := (List.finRange 1024).foldl (State.endChans · q ·) s2
    let s2b := (s2a.circuits.filter fun c => c.seq == q).foldl (fun a c => a.closeNow c) s2a
    let s3 := (List.finRange 1024).foldl (State.drainTile · q ·) s2b
    let quiet (m : Msg) : Msg := if m.of q then m.empty else m
    let unask (y : Die) : Die := { y with meridian := y.meridian.filter fun m => m.seq != q }
    let clean (y : Tile) : Tile := y.dropSeq q
    let s4 : State := { s3 with relay := s3.relay.map quiet, reductions := s3.reductions.filter fun y => y.seq != q,
                                tiles := s3.tiles.map clean, dies := s3.dies.map unask }
    let s5 := (List.finRange 4).foldl (fun a d => a.voidKey q d) s4
    let s6 := match cause with
      | some c => s5.seqEvent 0 q 0x0008 [BitVec.ofNat 64 c]
      | none => s5
    let jobs : List HostHdr := (s6.hostJobs.filter fun j => j.seq == q).map (·.hdr) ++ x.rotate.toList
    let s7 : State := { s6 with seqs := s6.seqs.set q none, hostJobs := s6.hostJobs.filter fun j => j.seq != q }
    jobs.foldl (fun a h => a.completeHdr h 0x85) s7

/-- The sequences of a partition or of all, ascending, that a test picks. -/
def State.seqsWhere (s : State) (f : SeqId → Sequence → Bool) : List SeqId :=
  (List.finRange 256).filter fun q => match s.seqs[q] with
    | some x => f q x
    | none => false

/-! ### Resets of VFs and partitions (R423) -/

/-- The EVENT body of a RESET: kind and target. Log 21: DESIGN CHOICE. -/
def resetDetail (kind target : Nat) : List W := [BitVec.ofNat 64 kind, BitVec.ofNat 64 target]

/-- An event of a partition for one function, numbered at once. -/
def State.tellNow (s : State) (fn : Fin 193) (p : PartId) (n : Fin 16) (code : BitVec 16) (detail : List W) : State :=
  let e : EventRec := { fn := fn, part := p, seq := n, code := code, time := s.domain.sid, detail := detail }
  s.deviceSend fn 3 0 e.body

/-- A VF reset (R423): its sequences end, its streams and tags start again, its queued events go, and RESET and then the SEQENDs
are the first messages of the new stream. SEQEND's cause is 1, or 3 in a split (R312). -/
def State.resetOneVf (s : State) (v : Fin 192) (kind target cause : Nat) : State :=
  let p := (s.partOfVf v).getD 0
  let l := s.seqsWhere fun _ x => x.vf == v
  let s1 := l.foldl (fun a q => a.eclipse q none) s
  let dies := s1.dies.map fun y => { y with events := y.events.filter fun e => e.fn != vfFn v }
  let s2 := ({ s1 with dies := dies }).modStream (vfFn v) fun x => { Stream.zero with egress := x.egress }
  l.foldl (fun a q => a.tellNow (vfFn v) p (seqNo q) 0x0008 [BitVec.ofNat 64 cause]) (s2.tellNow (vfFn v) p 0 0x0007 (resetDetail kind target))

/-- The VFs of a partition. -/
def Partition.vfList (x : Partition) : List (Fin 192) := (List.finRange 192).filter fun v => x.vfs.getLsbD v.val

/-- A dirty line written back at once: its marks stand in HBM, and the WRITE is counted (R273, R276, R433). -/
def State.putBack (s : State) (l : BankLine) : State :=
  if isHbm (64 * l.line) then
    ((s.markStack (64 * l.line) l.bad0).markStack (64 * l.line + 32) l.bad1).modCounts l.seq fun c =>
      { c with linesWritten := c.linesWritten + 1 }
  else s

/-- Near buffers return the lines of some tiles' banks, and the banks write back and drop all lines, in one step (R405, R307).
Log 92: DEDUCED. -/
def State.drainBanks (s : State) (tiles : List TileId) : State :=
  let lines := tiles.flatMap fun t => s.tiles[t].bank
  let s1 := (lines.filter (·.dirty)).foldl State.putBack s
  let nums := lines.map (·.line)
  let near (x : Tile) : Tile := { x with near := x.near.filter fun n => !nums.contains n }
  tiles.foldl (fun a t => a.modTile t fun x => { x with bank := [] }) { s1 with tiles := s1.tiles.map near }

/-- PLACEMASK written on every tile of a partition, whose banks have dropped their lines (R405, R420). Log 92: DEDUCED. -/
def State.placemasks (s : State) (blocks : BitVec 64) : State :=
  (tilesOf blocks).foldl (fun a t => a.modTile t fun x => { x with placemask := blocks }) (s.drainBanks (tilesOf blocks))

/-- A partition reset (R423): every VF reset, the MF told, and the memory circuits closed and opened again. -/
def State.resetPart (s : State) (p : PartId) (cause : Nat) : State :=
  match s.parts[p] with
  | none => s
  | some x =>
    let s1 := x.vfList.foldl (fun a v => a.resetOneVf v 1 p.val cause) s
    let e : EventRec := { fn := 192, part := p, seq := 0, code := 0x0007, time := s.domain.sid, detail := resetDetail 1 p.val }
    let s2 := ((s1.queueEvent 0 e).placemasks x.blocks).writeHops x.blocks
    let s3 : State := { s2.bump with parts := s2.parts.set p (some { x with made := s2.fresh }) }
    (s3.unstand fun y => y.part == some p).completeStanding

/-- A partition released: its tiles belong to nobody, its memory circuits are closed, its relay links are off, and its messages are gone
with them (R272, R419). Log 88: DEDUCED. -/
def State.releasePart (s0 : State) (p : PartId) : State :=
  let s := s0.unstand fun y => y.part == some p
  let mine (t : TileId) : Bool := s.tiles[t].part == some p
  let free (x : Tile) : Tile := if x.part = some p then { x with part := none, nextHop := Vector.replicate 64 0 } else x
  let relay := s.relay.filter fun m => m.part != p
  let kept (m : MemReq) : Bool := match m.op with
    | .bypass n => relay.any fun y => y.uid == n
    | .read | .write | .rdata | .wack | .nack => true
  let stays (w : ConfigWord) : Bool := match w.body with
    | .hop .. => !mine w.target
    | .table _ | .peerKey .. => true
  { s with parts := s.parts.set p none, config := s.config.filter stays, tiles := s.tiles.map free, relay := relay,
           sent := s.sent.filter fun x => !mine x.1.1, received := s.received.filter fun x => !mine x.1.1,
           transfers := s.transfers.filter kept }

/-- DESTROY_PARTITION (R419). Log 88: DEDUCED. -/
def State.destroyPart (s : State) (p : PartId) : State := (s.resetPart p 1).releasePart p

/-! ### Die reset (R277, R393) -/

/-- The tiles of a die. -/
def dieTiles (d : DieId) : List TileId := (List.finRange 1024).filter fun t => dieOf t == d

/-- A strand's work stopped (R393): a rewrite is discarded as RABORT with DROP = 0, unless it has issued RCOMMIT, and a thread is
saved as soon as it can be. -/
def State.stopStrand (s : State) (t : TileId) (k : StrandId) : State :=
  let x := s.strandAt t k
  if s.tiles[t].core.fg = some k ∧ 0 < s.tiles[t].core.retry then s
  else match x.work with
    | .free | .firmware => s
    | .rewrite r => if r.committing then s else s.discard t k r .again
    | .thread _ => if s.saveable t k && x.ctx.running.isNone then s.saveThread t k x.ctx.saveState none else s

/-- A tile's work stopped: no pop and no spawn starts, and a context load under way is given up. -/
def State.stopTile (s : State) (t : TileId) : State :=
  let s1 := s.modCore t fun c => { c with sched := { c.sched with stopped := true }, loading := none, resched := true }
  (List.finRange 8).foldl (fun a k => a.stopStrand t k) s1

/-- A tile has nothing on its strands. -/
def State.tileStopped (s : State) (t : TileId) : Bool :=
  (List.finRange 8).all fun k => match (s.strandAt t k).work with
    | .free | .firmware => true
    | .thread _ | .rewrite _ => false

/-- The tiles of a die go into reset (R277 steps 3 and 4): the banks drop their lines, and CYCLE and the predictors start again (R70,
R136). -/
def State.enterReset (s : State) (d : DieId) : State :=
  let off (x : Tile) : Tile :=
    { x with inReset := true, core := { x.core with cycle := 0 }, predictor := Vector.replicate 256 0, bank := [] }
  ((dieTiles d).foldl (fun a t => a.modTile t off) s).modDie d fun x => { x with inReset := true }

/-- The lines of a die's banks that stand in a near buffer asked back (R277 step 2). -/
def State.recallDie (s : State) (d : DieId) : State :=
  (dieTiles d).foldl (fun a t => (a.tiles[t].bank).foldl (fun b l => match b.nearHolder l.line with
    | some u => b.recall t u (partOf l.seq) l.line
    | none => b) a) s

/-- Lines homed on a die stand in near buffers. -/
def State.nearOf (s : State) (d : DieId) : Bool :=
  (dieTiles d).any fun t => s.tiles[t].bank.any fun l => (s.nearHolder l.line).isSome

/-- The dirty lines of a die's banks sent back to their ports (R277 step 3). -/
def State.cleanDie (s : State) (d : DieId) : State :=
  (dieTiles d).foldl (fun a t => (a.tiles[t].bank.filter (·.dirty)).foldl (fun b l => b.writeBackLine t l) a) s

/-- A die's banks hold lines that HBM does not have yet. -/
def State.unclean (s : State) (d : DieId) : Bool :=
  ((dieTiles d).any fun t => s.tiles[t].bank.any (·.dirty)) ||
  s.transfers.any fun m => dieOf m.home == d && (m.op == .write || m.op == .wack)

/-- A die's stop goes on (R277): once every strand is free, the near buffers return the die's lines, its banks write the dirty ones back,
and the tiles go into bypass and reset. Log 89: DEDUCED. -/
def State.settleStop (s : State) (d : DieId) : State :=
  let s1 := (dieTiles d).foldl (fun a t => a.stopTile t) s
  if !(dieTiles d).all s1.tileStopped then s1
  else if s1.nearOf d then s1.recallDie d
  else
    let s2 := s1.cleanDie d
    if s2.unclean d then s2 else s2.enterReset d

/-- A die reset starts (R277, R423): RESET is told to the MF and to the VFs of partitions. Log 89: DEDUCED. -/
def State.startDieReset (s : State) (h : HostHdr) (d : DieId) : State :=
  let s1 := (s.packageEvent d 0x0007 (resetDetail 2 d.val)).modDie d fun x => { x with stopping := some h, resetAt := s.domain.sid }
  s1.settleStop d

/-- 50 ms in slots (R277), at the rate of the slot clock (R279). -/
def State.resetLimit (s : State) : Nat := if s.cold.slow then 40000000 else 80000000

/-- A die's reset has lasted 50 ms (R277). -/
def State.resetOver (s : State) (d : DieId) : Bool :=
  s.dies[d].stopping.isSome && decide (s.dies[d].resetAt + s.resetLimit ≤ s.domain.sid)

/-- DIE_RESET_END (R277): the tiles leave reset, bypass ends, the work goes on and the command completes. A die whose stop has not come
to its end yet does not leave, nor does one that has been too long about it. -/
def execDieResetEnd (d : DieId) (s : State) : Out :=
  let x := s.dies[d]
  if s.resetOver d then .next s
  else if x.inReset then
    let on (y : Tile) : Tile := { y with inReset := false, core := { y.core with sched := { y.core.sched with stopped := false }, resched := true } }
    let s1 := (dieTiles d).foldl (fun a t => a.modTile t on) s
    let s2 := s1.modDie d fun y => { y with inReset := false, stopping := none }
    .next (x.stopping.elim s2 fun h => s2.completeHdr h 0)
  else .next (if x.stopping.isSome then s.settleStop d else s)

/-- The partitions that have a block on a die. -/
def State.partsOn (s : State) (d : DieId) : List PartId :=
  (List.finRange 16).filter fun p => match s.parts[p] with
    | some x => (dieTiles d).any fun t => x.blocks.getLsbD (blockOf t)
    | none => false

/-- A die fenced: its cores issue nothing more (R306). The package leaves its domain with die 0 (R264). -/
def State.fenceDie (s : State) (d : DieId) : State :=
  let s1 := ((dieTiles d).foldl (fun a t => a.fenceTile t) s).modDie d fun x => { x with fenced := true }
  if d = 0 then s1.leaveDomain else s1

/-- DIE_RESET_TIMEOUT (R277, R423): a die that has not left reset within 50 ms is fenced, and each partition with a block on it is
reset. -/
def execDieResetTimeout (d : DieId) (s : State) : Out :=
  match s.dies[d].stopping with
  | none => .next s
  | some h =>
    let s1 := (s.until (s.dies[d].resetAt + s.resetLimit)).fenceDie d
    let s2 := s1.modDie d fun x => { x with stopping := none, inReset := false }
    let s3 := (s2.partsOn d).foldl (fun a p => a.resetPart p 1) s2
    .next (s3.completeHdr h 0x83)

/-! ### Package reset (R423, R431) -/

/-- Every key slot of a die zeroized (R284, R423, R431). -/
def Die.zeroized (x : Die) : Die := { x with keys := Vector.replicate 512 KeySlot.zero }

/-- A tile as boot finds it: its store and its bank keep what they hold, under keys that are gone; a fenced core stays fenced.
Log 90: DEDUCED. -/
def Tile.booted (x : Tile) : Tile :=
  { Tile.zero with core := { Core.zero with fenced := x.core.fenced }, bank := x.bank, storeBad := x.storeBad,
                   misroutes := x.misroutes, syndromes := x.syndromes }

/-- A die as boot finds it. -/
def Die.booted (x : Die) : Die :=
  { x.zeroized with directory := [], meridian := [], stopping := none, inReset := false, transplant := none, quieted := [], events := [], dropped := [],
                    lastQueue := 16 }

/-- RESET of the package (R423): every partition is destroyed, every key slot zeroized, every function starts again, and boot
runs. The MF hears of it in message 0 (R439). Log 90: DEDUCED. -/
def State.resetAll (s : State) : State :=
  let measured := Vector.ofFn fun (i : Fin 4) => Config.measurement i.val
  let streams := s.streams.map fun x => { Stream.zero with egress := x.egress }
  let s1 := { s with tiles := s.tiles.map Tile.booted, dies := s.dies.map Die.booted, seqs := Vector.replicate 256 none,
                     parts := Vector.replicate 16 none, circuits := [], standing := [], tables := [], pending := [], config := [], relay := [],
                     sent := [], received := [], reductions := [], transfers := [], hostJobs := [], streams := streams,
                     cold := { s.cold with booted := true, measured := measured } }
  (s1.tellNow 192 0 0 0x0007 (resetDetail 3 0)).completeStanding

/-! ### Creation (R420, R271, R272) -/

/-- The blocks reached from a set through a partition's blocks. -/
def spreadFrom (blocks : List (Fin 64)) (l : List (Fin 64)) : Nat → List (Fin 64)
  | 0 => l
  | n + 1 => spreadFrom blocks (blocks.filter fun b => l.contains b || l.any (blocksTouch b)) n

/-- BLOCKS is one connected set (R27). -/
def connected (m : BitVec 64) : Bool :=
  match blockList m with
  | [] => false
  | b :: l => (spreadFrom (b :: l) [b] 64).length == l.length + 1

/-- A body that no partition can have (R420): STATUS 0x82. -/
def State.badCreate (s : State) (b : CreateBody) : Bool :=
  let w := s.domain.wheel
  b.reserved || decide (w ≤ b.linkbud.toNat) || b.mslots == 0 || decide (w ≤ b.mslots.toNat) || b.membud.length != 12 ||
    !connected b.blocks

/-- The memory ports on which a body asks for a budget (R272). -/
def createPorts (b : CreateBody) : List (Fin 96) :=
  (List.finRange 96).filter fun i => b.membud.getD (i.val / 8) 0 != 0

/-- The memory circuits that a body asks for, with the anchors that the manager chooses (R272). Log 62: DESIGN CHOICE. -/
def State.createAnchors (s : State) (b : CreateBody) : List (Fin 96 × TileId) :=
  let tiles := tilesOf b.blocks
  (createPorts b).map fun i => (i, tiles.getD (Config.anchor s.fresh i.val % tiles.length) 0)

/-- The memory circuits of a new partition; none where an M link or another lacks their slots (R272). -/
def State.createCircuits (s : State) (b : CreateBody) : Option (List Standing) :=
  s.grantAll ((s.createAnchors b).flatMap fun a => memoryWishes b.part b.mslots.toNat a.1 a.2)

/-- What the other partitions hold of a stack's pseudo-channels (R271). -/
def State.stackBudget (s : State) (k : Fin 12) : Nat :=
  ((List.finRange 16).map fun p => match s.parts[p] with
    | some x => x.membud[k].toNat
    | none => 0).foldl (· + ·) 0

/-- A fenced tile that no spare has replaced: partitions that include it are refused (R308). -/
def State.lostTile (s : State) (t : TileId) : Bool := s.tiles[t].core.fenced || s.dies[dieOf t].fenced

/-- A partition that cannot be had in the present state (R27, R271, R272, R283, R308): STATUS 0x83. Log 93: DEDUCED. -/
def State.refusesCreate (s : State) (b : CreateBody) : Bool :=
  let budget := 3 * s.domain.wheel / 16
  !(s.cold.state == ColdState.cold || s.cold.state == ColdState.twilight) || s.parts[b.part].isSome || !isHbm b.s2root.toNat ||
    ((List.finRange 16).any fun p => match s.parts[p] with
      | some x => (x.blocks &&& b.blocks) != 0 || (x.vfs &&& b.vfs) != 0
      | none => false) ||
    ((List.finRange 12).any fun k => decide (budget < s.stackBudget k + (b.membud.getD k.val 0).toNat)) ||
    (s.createCircuits b).isNone || (tilesOf b.blocks).any s.lostTile

/-- A partition made (R272, R420): its tiles, PLACEMASK, memory circuits and relay tables. -/
def State.makePart (s : State) (b : CreateBody) : State :=
  let n := s.fresh
  let tiles := tilesOf b.blocks
  let part : Partition :=
    { blocks := b.blocks, vfs := b.vfs, linkbud := b.linkbud.toNat, s2root := b.s2root.toNat,
      membud := Vector.ofFn fun (i : Fin 12) => b.membud.getD i.val 0, mslots := b.mslots.toNat, made := n,
      anchors := s.createAnchors b }
  let s1 : State := { s.bump with parts := s.parts.set b.part (some part) }
  let s2 := tiles.foldl (fun a t => a.modTile t fun x => { x with part := some b.part }) s1
  let s3 := ((s.createCircuits b).getD []).foldl State.stand (s2.placemasks b.blocks)
  s3.writeHops b.blocks

/-- CREATE_PARTITION's STATUS and effect (R420). -/
def State.create (s : State) (b : CreateBody) : State × BitVec 8 :=
  if s.badCreate b then (s, 0x82) else if s.refusesCreate b then (s, 0x83) else (s.makePart b, 0)

end Sys2Proof.Machine
end

