-- ==== Sys2Proof/Machine/Launch.lean ====
section
/-! DEFINITION. What a sequence's tables map; the launch (spec/23 R374–R378, R380, spec/18 R320); template replay (R394, R395); the
sweep for QUIET (spec/22 R371, R372). How an image comes into memory is not the spec's: it stands there under firmware's own key,
and the launch puts it under the sequence's keys (notes/assumptions/44.md). -/

namespace Sys2Proof.Machine

/-! ### What the tables map -/

/-- What a stage-1 entry stands for. -/
inductive MapKind
  | page
  | touch
  | table
  | window (quarter : Nat)
  deriving DecidableEq, Repr

/-- One 4 KiB page that a memory leaf of stage 1 maps, a window leaf, or the page of a table's entry: its virtual address, its
IPA, its physical address where stage 2 holds it, and the PIN of its leaf. -/
structure Mapped where
  what : MapKind
  va : Nat
  ipa : Nat
  pa : Option Nat
  pin : Option TileId
  deriving DecidableEq, Repr

/-- The page of an IPA at stage 2. -/
def State.framed (s : State) (p : PartId) (t : TileId) (ipa : Nat) : Option Nat :=
  match s.stage2 p t ipa with
  | .page pa _ _ => some pa
  | .fault _ | .poisoned => none

/-- What a leaf at a level maps, for the addresses that its entry covers (R398, R403). -/
def State.leafPages (s : State) (p : PartId) (t : TileId) (va e lvl : Nat) : List Mapped :=
  if e / 512 % 8 = 1 then [{ what := .window (e / 4096 % 4), va := va, ipa := 0, pa := none, pin := none }]
  else
    let z : Fin 4 := ⟨e / 32 % 4, by omega⟩
    let base := e / 4096 % 2 ^ 36 * 4096 + va % 2 ^ pageBits z
    let what : MapKind := if e / 128 % 4 = 2 then .touch else .page
    let pin : Option TileId := if e / 128 % 4 = 1 then some ⟨e / 2 ^ 48 % 1024, by omega⟩ else none
    (List.range (2 ^ (27 - 9 * lvl))).map fun j =>
      { what := what, va := va + 4096 * j, ipa := base + 4096 * j, pa := s.framed p t (base + 4096 * j), pin := pin }

/-- Everything that a stage-1 table at a level maps, read under a key (R398–R401). -/
def State.mapFrom (s : State) (who : Party) (p : PartId) (t : TileId) (va table lvl : Nat) : Nat → List Mapped
  | 0 => []
  | n + 1 => (List.range (if lvl = 0 then 2 ^ 17 else 512)).flatMap fun i =>
    match s.framed p t (table + 8 * i) with
    | none => []
    | some pa =>
      let at_ := va + i * 2 ^ (39 - 9 * lvl)
      let e := s.readNum who (.hbm pa (spreadHome (tilesOf (s.spreadBlocks p t)) pa)) 8
      let here : Mapped := { what := .table, va := 0, ipa := 0, pa := some (pa / 4096 * 4096), pin := none }
      if e % 2 = 0 ∨ s.badStage1 p e lvl then [here]
      else if e / 2 % 2 = 0 then here :: s.mapFrom who p t at_ (e / 4096 % 2 ^ 36 * 4096) (lvl + 1) n
      else here :: s.leafPages p t at_ e lvl

/-- The tile by whose PLACEMASK the partition manager finds homes: the partition's first. -/
def State.firstTile (s : State) (p : PartId) : TileId :=
  match s.parts[p] with
  | some x => (tilesOf x.blocks).getD 0 0
  | none => 0

/-- Everything that the tables under a root map, read under a key. -/
def State.mapping (s : State) (who : Party) (p : PartId) (root : W) : List Mapped :=
  s.mapFrom who p (s.firstTile p) 0 (root.toNat % 2 ^ 48) 0 4

/-- The home of a line of a mapped page (R404). -/
def State.mappedHome (s : State) (p : PartId) (m : Mapped) (pa : Nat) : TileId :=
  m.pin.getD (spreadHome (tilesOf (s.spreadBlocks p (s.firstTile p))) pa)

/-- Every page of a span is mapped at stage 1. -/
def mapsSpan (l : List Mapped) (va len : Nat) : Bool :=
  (List.range ((va + len - 1) / 4096 - va / 4096 + 1)).all fun i =>
    l.any fun m => (m.what == .page || m.what == .touch) && m.va == (va / 4096 + i) * 4096

/-- The 8-byte word at an aligned address, read by firmware under its own key; none where nothing is mapped or the word is
poisoned. -/
def State.imageWord (s : State) (p : PartId) (l : List Mapped) (va : Nat) : Option W :=
  match l.find? fun m => (m.what == .page || m.what == .touch) && m.va == va / 4096 * 4096 with
  | none => none
  | some m => match m.pa with
    | none => none
    | some f =>
      let pl := Place.hbm (f + va % 4096) (s.mappedHome p m (f + va % 4096))
      if s.placeBad pl 8 then none else some (BitVec.ofNat 64 (s.readNum .firmware pl 8))

/-- Successive words. -/
def State.imageWords (s : State) (p : PartId) (l : List Mapped) (va : Nat) : Nat → Option (List W)
  | 0 => some []
  | n + 1 => match s.imageWord p l va, s.imageWords p l (va + 8) n with
    | some w, some ws => some (w :: ws)
    | _, _ => none

/-! ### The descriptor (R374, R375) -/

/-- A pane list entry: its first pane and its count. -/
def paneEntry (w : W) : Nat × Nat := (field w 16 16, field w 0 16)

/-- What the partition manager reads of an image: its parts, TRAPVEC, the panes, and the first words of the Almanac. -/
structure Loaded where
  image : Image
  trapvec : W
  panes : List (Nat × Nat)
  almanac : List W
  deriving DecidableEq, Repr

/-- The entries of a live-map table (R375). -/
def safeEntries : List W → List (W × W × W)
  | a :: b :: c :: l => (a, b, c) :: safeEntries l
  | _ => []

/-- The descriptor and its tables; none is BADIMAGE (R374, R378). Log 44: DESIGN CHOICE. -/
def State.loadImage (s : State) (p : PartId) (l : List Mapped) (desc : W) : Option Loaded :=
  if desc.toNat % 64 ≠ 0 then none
  else match s.imageWords p l desc.toNat 16 with
    | none => none
    | some d =>
      let w (i : Nat) : W := d.getD i 0
      let n (i : Nat) : Nat := (w i).toNat
      let ok := field (w 0) 0 32 == 0x4E4C4832 && field (w 0) 32 16 == 1 && field (w 0) 48 16 == 0 && field (w 14) 32 32 == 0 &&
        1 ≤ n 7 && n 7 ≤ 256 && (n 2 == 0 || mapsSpan l (n 1) (n 2)) && (n 4 == 0 || mapsSpan l (n 3) (n 4)) &&
        (n 5 == 0 || mapsSpan l (n 5) 16)
      if !ok then none
      else match s.imageWords p l (n 6) (n 7), s.imageWords p l (n 8) (n 9), s.imageWords p l (n 10) (3 * n 11),
          s.imageWords p l (n 12) (n 13), (if n 5 = 0 then some [] else s.imageWords p l (n 5) 2) with
        | some threads, some panes, some safes, some agents, some almanac =>
          let logSize := (almanac.getD 0 0).toNat % 32
          if threads.any (fun x => field x 56 8 != 0) || panes.any (fun x => field x 32 32 != 0) ||
            (4 ≤ logSize && logSize ≤ 16 && n 5 != 0 && !mapsSpan l (n 5) (16 + 16 * 2 ^ logSize)) then none
          else
            let image : Image :=
              { textva := w 1, textlen := w 2, datava := w 3, datalen := w 4, almva := w 5, threads := threads,
                safes := safeEntries safes, agents := agents, rwchk := BitVec.ofNat 64 (field (w 14) 16 16),
                rwfp := BitVec.ofNat 64 (field (w 14) 0 16) }
            some { image := image, trapvec := w 15, panes := panes.map paneEntry, almanac := almanac }
        | _, _, _, _, _ => none

/-- An agent list with a reserved tile agent type (R369), or an Almanac whose first words R362 does not allow. -/
def Loaded.badAgents (x : Loaded) : Bool :=
  (x.image.agents.any fun a => 0xF005 ≤ field a 0 16) ||
  match x.almanac with
  | [a, b] => decide (a.toNat < 4) || decide (16 < a.toNat) || b != 0
  | _ => false

/-! ### Panes (R320) -/

/-- A pane that no sequence has. -/
def Tile.freePane (x : Tile) (took : List Nat) (p : Nat) : Bool :=
  if h : p < 128 then (x.panes[p]).seq.isNone && !took.contains p else false

/-- The lowest run of free panes. Log 79: DESIGN CHOICE. -/
def Tile.paneRun (x : Tile) (took : List Nat) (n : Nat) : Option Nat :=
  (List.range 129).find? fun f => decide (f + n ≤ 128) && (List.range n).all fun i => x.freePane took (f + i)

/-- The .pane entries assigned in order; each must come where the image was assembled for it (R377). -/
def Tile.assignPanes (x : Tile) : List (Nat × Nat) → List Nat → Option (List Nat)
  | [], took => some took
  | (first, n) :: l, took =>
    if x.paneRun took n = some first then x.assignPanes l (took ++ (List.range n).map (first + ·)) else none

/-- The lowest free panes, a number of them. -/
def Tile.lowPanes (x : Tile) (took : List Nat) (n : Nat) : Option (List Nat) :=
  let l := ((List.range 128).filter (x.freePane took)).take n
  if l.length = n then some l else none

/-- The panes of a sequence on a tile: the image's, the bag's spill region and the tile agents' (R320, R358, R360).
Log 79: DESIGN CHOICE. -/
def Tile.launchPanes (x : Tile) (l : List (Nat × Nat)) (spill agents : Nat) : Option (List Nat × List Nat × List Nat) :=
  match x.assignPanes l [] with
  | none => none
  | some own => match x.lowPanes own spill with
    | none => none
    | some sys => match x.lowPanes (own ++ sys) agents with
      | none => none
      | some ag => some (own, sys, ag)

/-- Panes tagged for a sequence. -/
def State.tagPanes (s : State) (t : TileId) (q : SeqId) (l : List Nat) (system : Bool) : State :=
  l.foldl (fun a p => if h : p < 128 then a.modPane t ⟨p, h⟩ fun y => { y with seq := some q, system := system } else a) s

/-! ### The steps of the launch (R377) -/

/-- The tiles on which a launch puts work. -/
def startTiles (b : StartBody) : List TileId := (b.places.map (fun x => x.2.2.1) ++ b.rtiles).eraseDups

/-- KiB of a spill region (R376). -/
def startSpill (b : StartBody) : Nat := if b.spillKb = 0 then 32 else b.spillKb

/-- Fields of the body outside R376's ranges. -/
def badStart (b : StartBody) : Bool :=
  b.reserved || 255 < b.poolPages || b.frames == 0 || 32 < b.frames || 64 < b.taPanes || 256 < startSpill b || startSpill b < 4 ||
    b.places.isEmpty || 4096 < b.places.length || 1024 < b.rtiles.length || 0xFFFF < b.seeds.length

/-- Step 2 (R377): the STATUS of the cause with the lowest value. Log 78: DEDUCED. -/
def State.startCheck (s : State) (p : PartId) (b : StartBody) (x : Option Loaded) : Option (BitVec 8) :=
  match x with
  | none => some 0x01
  | some y =>
    let threads := y.image.threads.length
    let onTile (t : TileId) : Nat := (b.places.filter fun z => z.2.2.1 == t).length
    if badStart b then some 0x01
    else if (startTiles b).any (fun t => !s.inPart p t) || b.places.any (fun z => threads ≤ z.2.2.2.val) then some 0x03
    else if b.nodeBudget < b.rtiles.length * b.poolPages * 64 then some 0x05
    else if y.badAgents then some 0x07
    else if (startTiles b).any fun t => b.frames < onTile t || (s.tiles[t].core.threads.toList.filter (·.isNone)).length < onTile t
    then some 0x08
    else none

/-- The lowest EMPTY slot of a die's key store whose invalidation is done (R227). -/
def Die.emptySlot (x : Die) : Option (Fin 512) :=
  (List.finRange 512).find? fun k => x.keys[k].state == KeyState.empty && !x.keys[k].pendinv

/-- The dies with a block of a partition. -/
def State.partDies (s : State) (p : PartId) : List DieId :=
  match s.parts[p] with
  | some x => (List.finRange 4).filter fun d => (tilesOf x.blocks).any fun t => dieOf t == d
  | none => []

/-- A key slot bound on each die (R377 step 3); none where a die has no free slot or its DRBG fails. -/
def State.bindKeys (s : State) (p : PartId) (n : Fin 16) : List DieId → Option (State × Vector (Option (Fin 512)) 4)
  | [] => some (s, Vector.replicate 4 none)
  | d :: l => match s.dies[d].emptySlot with
    | none => none
    | some k =>
      let s1 := (s.keyop d k (.gen p n)).1
      if s1.dies[d].keys[k].state ≠ .live then none
      else match s1.bindKeys p n l with
        | none => none
        | some (s2, v) => some (s2, v.set d (some k))

/-- The lowest sequence number of a partition that is not in use. -/
def State.freeSeq (s : State) (p : PartId) : Option (Fin 16) := (List.finRange 16).find? fun n => s.seqs[seqOf p n].isNone

/-- No counts. -/
def Counts.zero : Counts :=
  { rewrites := 0, allocs := 0, frees := 0, stale := 0, discards := 0, drops := 0, doublefree := 0, cuts := 0, loose := 0,
    rulemiss := 0, bundles := 0, mmas := 0, linesRead := 0, linesWritten := 0, circuitWords := 0, pageRequests := 0 }

/-- A new sequence (R374, R376, R403). -/
def Sequence.start (v : Fin 192) (b : StartBody) (x : Loaded) (slots : Vector (Option (Fin 512)) 4) (l : List Mapped) (n : Nat) :
    Sequence :=
  let base := ((l.find? fun m => m.what == .window 0).map (·.va)).getD 0
  { vf := v, launched := n, s1root := b.s1root, tilebase := BitVec.ofNat 64 base, image := x.image, slots := slots,
    nodesLeft := b.nodeBudget - b.rtiles.length * b.poolPages * 64, frames := b.frames, rtiles := b.rtiles, taPanes := b.taPanes,
    frameAt := b.frameAt, iface := Vector.replicate 4 .none, counts := Counts.zero, window := Counts.zero,
    windowBase := Counts.zero, windowEnd := 0, lastActivity := [], quiet := false, runs := [], lastRun := 0, dump := none,
    rotate := none, sweepDone := 0, sweepLeft := [], skipped := 0 }

/-- The bytes that firmware has placed in the sequence's pages and tables put under the sequence's keys. Log 44: DESIGN CHOICE. -/
def State.adopt (s : State) (q : SeqId) (l : List Mapped) : State :=
  let key (a : Nat) : Nat :=
    match l.find? fun m => m.pa == some (a / 4096 * 4096) && m.what != .touch with
    | none => firmwareKey.w
    | some m =>
      let k := (s.keyOn q (dieOf (s.mappedHome (partOf q) m a))).w
      if k = 0 then firmwareKey.w else k
  { s with keyed := s.keyed.map fun x => if x.2 = firmwareKey.w ∧ x.1 < 2 ^ 56 then (x.1, key x.1) else x }

/-- A tile's panes, bag region, TRAPVEC and Almanac cache for a launch, and its predictor at 0 (R136, R320, R358, R363). -/
def State.startTile (s : State) (q : SeqId) (b : StartBody) (x : Loaded) (t : TileId) : Option State :=
  match s.tiles[t].launchPanes x.panes (startSpill b / 4 + (if startSpill b % 4 = 0 then 0 else 1))
      (if b.rtiles.contains t then b.taPanes else 0) with
  | none => none
  | some (own, sys, ag) =>
    let agents := ag.filterMap fun p => if h : p < 128 then some (⟨p, h⟩ : Fin 128) else none
    let ts : TileSeq := { TileSeq.fresh q with trapvec := x.trapvec &&& ~~~3, agentPanes := agents, spill := 64 * startSpill b }
    let s1 := ((s.tagPanes t q own false).tagPanes t q sys true).tagPanes t q ag false
    some ((s1.modTileSeq t q fun _ => ts).modTile t fun y =>
      { y with predictor := Vector.replicate 256 0,
               core := { y.core with almanac := y.core.almanac.filter fun r => r.seq != q,
                                     icache := y.core.icache.filter fun i => i.seq != q } })

/-- Every tile in turn. -/
def State.startAll (s : State) (q : SeqId) (b : StartBody) (x : Loaded) : List TileId → Option State
  | [] => some s
  | t :: l => match s.startTile q b x t with
    | none => none
    | some s1 => s1.startAll q b x l

/-- The pages that firmware takes for pools and frames are homed on their tiles, as many as the body asks for (R357, R379).
Log 105: DEDUCED. -/
def State.goodPages (s : State) (q : SeqId) (b : StartBody) : Bool :=
  let at_ (t : TileId) (va pa : Nat) : Bool := s.placeFor t q Access.write (BitVec.ofNat 64 va) == some (.hbm pa t)
  (b.pools.all fun x => x.2.va.toNat % 4096 == 0 && at_ x.1 x.2.va.toNat x.2.pa) &&
  (b.rtiles.all fun t => (b.pools.filter fun x => x.1 == t).length == b.poolPages) &&
  (b.frameAt.all fun x => (List.range 18).all fun i => at_ x.1 (x.2.va.toNat + 4096 * i) (x.2.pa + 4096 * i)) &&
  (startTiles b).all fun t => b.frames ≤ (b.frameAt.filter fun x => x.1 == t).length

/-- A pool page put before the pool's other nodes (R357). Log 105: DEDUCED. -/
def State.addPool (s : State) (q : SeqId) (t : TileId) (page : Page) : State :=
  let head := (s.tiles[t].seqOn q).head
  (s.chainNodes q t page.va head 64).modTileSeq t q fun y => { y with head := page.va }

/-- Steps 5 to 7 (R377): pools filled, seed pairs pushed to the bag of Home(LINEA), threads started in placement order. -/
def State.startWork (s : State) (q : SeqId) (b : StartBody) : State :=
  let s1 := b.pools.reverse.foldl (fun a x => a.addPool q x.1 x.2) s
  let seed (a : State) (x : SeedPair) : State :=
    let home := a.homeOf q (a.firstTile (partOf q)) x.lineA
    a.pushPair home (BagEntry.make q x.lineA x.lineB x.pri) []
  let s2 := b.seeds.foldl seed s1
  b.places.foldl (fun a x => a.spawnAt x.2.2.1 q x.2.2.2.val (x.1.setWidth 64) x.2.1) s2

/-- START_SEQUENCE (R377, R378): the launch's STATUS, and the state after it; a launch that fails leaves the state as it was.
Log 78: DEDUCED. -/
def State.launchSeq (s : State) (v : Fin 192) (p : PartId) (b : StartBody) : State × BitVec 8 × Option SeqId :=
  let l := s.mapping .firmware p b.s1root
  let x := s.loadImage p l b.descva
  match s.startCheck p b x, x with
  | some st, _ => (s, st, none)
  | none, none => (s, 0x01, none)
  | none, some y => match s.freeSeq p with
    | none => (s, 0x02, none)
    | some n =>
      let q := seqOf p n
      match s.bindKeys p n (s.partDies p) with
      | none => ({ s with free := s.free + 4 }, 0x06, none)
      | some (s1, slots) =>
        let s2 : State := { s1.bump with seqs := s1.seqs.set q (some (Sequence.start v b y slots l s1.fresh)) }
        match (s2.adopt q l).startAll q b y (startTiles b) with
        | none => ({ s with free := s.free + 4 }, 0x04, none)
        | some s3 =>
          if !s3.goodPages q b then ({ s with free := s.free + 4 }, 0x05, none) else (s3.startWork q b, 0, some q)

/-! ### Template replay (R394, R395) -/

/-- The words of a template, or the cause that its translation ends in. -/
def State.templateWords (s : State) (q : SeqId) (va : Nat) : Nat → Except Cause (List W)
  | 0 => .ok []
  | n + 1 => match s.xlateWalk (s.firstTile (partOf q)) q Access.read (BitVec.ofNat 64 va) with
    | .fault c => .error c
    | .miss => .error .xlateDenied
    | .at_ pl _ =>
      if s.placeBad pl 8 then .error .poison
      else match s.templateWords q (va + 8) n with
        | .error c => .error c
        | .ok l => .ok (BitVec.ofNat 64 (s.readNum (.seq q) pl 8) :: l)

/-- A port word that a template may hold. -/
def goodPort (w : W) (nodes : Nat) : Bool :=
  let tag := field w 60 4
  tag == 0 || (tag == 1 && decide (field w 8 50 < nodes))

/-- The seed pairs' node indices, 16 bits each, packed from the low end. -/
def seedIndices (l : List W) (n : Nat) : List (Nat × Nat) :=
  let h (i : Nat) : Nat := field (l.getD (i / 4) 0) (16 * (i % 4)) 16
  (List.range n).map fun i => (h (2 * i), h (2 * i + 1))

/-- Nodes taken round-robin over the rewrite tiles' pools, those with an empty pool passed over; none when all are empty.
Log 80: DEDUCED. -/
def State.takeRound (s : State) (q : SeqId) (tiles : List TileId) : Nat → Nat → Option (State × List W)
  | 0, _ => some (s, [])
  | n + 1, i =>
    match (List.range tiles.length).findSome? fun j =>
        let k := (i + j) % tiles.length
        let t := tiles.getD k 0
        if (s.tiles[t].seqOn q).head = 0 then none else some (k, t) with
    | none => none
    | some (k, t) =>
      let head := (s.tiles[t].seqOn q).head
      let next := s.nodeWord q t (lineOf head) 40
      match (s.modTileSeq t q fun y => { y with head := next }).takeRound q tiles n (k + 1) with
      | none => none
      | some (s1, l) => some (s1, head :: l)

/-- An image's word as its copy holds it: the header with its claim, pool and dusk fields 0, a port word's LINE relocated. -/
def relocate (nodes : List W) (i : Nat) (w : W) : W :=
  if i = 0 then putField (putField (putField (hdrClaim w none) 25 1 0) 26 1 0) 48 16 0
  else if i ≤ 4 ∧ field w 60 4 = 1 then putField w 8 50 (lineOf (nodes.getD (field w 8 50) 0)).toNat
  else w

/-- One node's copy written. -/
def State.copyNode (s : State) (q : SeqId) (nodes : List W) (img : List W) (k : Nat) : State :=
  let line := lineOf (nodes.getD k 0)
  (List.range 8).foldl (fun a i =>
    a.setNodeWord q (s.firstTile (partOf q)) line (8 * i) (relocate nodes i (img.getD (8 * k + i) 0))) s

/-- REPLAY performed (R395): STATUS and result. Log 80: DEDUCED. -/
def State.replayNet (s : State) (q : SeqId) (x : Sequence) (b : ReplayBody) : State × BitVec 8 × List W :=
  let bad := b.nseed == 0 || 4096 < b.nseed || b.nnode == 0 || 4096 < b.nnode || 64 < b.patches.length || b.tmplva.toNat % 64 != 0 ||
    b.patches.any fun y => y.2.1 == 3 || decide (b.nnode ≤ y.1.val)
  if bad then (s, 0x82, [])
  else match s.templateWords q b.tmplva.toNat (8 * b.nnode), s.templateWords q (b.tmplva.toNat + 64 * b.nnode) ((b.nseed + 1) / 2) with
    | .error c, _ => (s, 0x86, [c.code.setWidth 64])
    | _, .error c => (s, 0x86, [c.code.setWidth 64])
    | .ok img, .ok sd =>
      let seeds := seedIndices sd b.nseed
      let ports := (List.range b.nnode).all fun k => [1, 2, 3, 4].all fun i => goodPort (img.getD (8 * k + i) 0) b.nnode
      if !ports || seeds.any (fun y => b.nnode ≤ y.1 || b.nnode ≤ y.2) then (s, 0x01, [])
      else match s.takeRound q x.rtiles b.nnode 0 with
        | none => (s, 0x83, [])
        | some (s1, nodes) =>
          let t := s.firstTile (partOf q)
          let s2 := (List.range b.nnode).foldl (fun a k => a.copyNode q nodes img k) s1
          let s3 := b.patches.foldl (fun a y =>
            a.setNodeWord q t (lineOf (nodes.getD y.1.val 0)) (40 + 8 * y.2.1.val) y.2.2) s2
          let num := x.lastRun + 1
          let run : TemplateRun := { num := num, node0 := nodes.getD 0 0, before := x.counts }
          let s4 := s3.modSeq q fun y => { y with lastRun := num, runs := y.runs ++ [run] }
          let seed (a : State) (y : Nat × Nat) : State :=
            let e := BagEntry.make q (lineOf (nodes.getD y.1 0)) (lineOf (nodes.getD y.2 0)) b.pri
            a.pushPair (a.homeOf q t e.lineA) e []
          (seeds.foldl seed s4, 0, [BitVec.ofNat 64 num, nodes.getD 0 0])

/-! ### QUIET (R371, R372) -/

/-- The conditions of R371. -/
def State.calm (s : State) (q : SeqId) : Bool :=
  (List.finRange 1024).all (fun t => (s.tiles[t].bag.all fun e => e.seq != q || e.park != 0 || e.quiet && !e.borrowed) &&
    (List.finRange 8).all fun k => match (s.strandAt t k).work with
      | .rewrite _ => (s.strandAt t k).seq != q
      | .free | .thread _ | .firmware => true) &&
  s.relay.all fun m => m.served || match m.body with
    | .pair e _ _ => e.seq != q
    | .netop _ p _ _ => p != q
    | .read _ | .readRsp .. | .write .. | .amo .. | .amoRsp .. | .netrsp .. | .borrow | .msg .. | .creditWords .. | .creditSeq _
    | .ack _ | .recall _ | .slice .. => true

/-- The activity counts of a sequence, by tile. -/
def State.activities (s : State) (q : SeqId) : List Nat := (List.finRange 1024).map fun t => (s.tiles[t].seqOn q).activity

/-- Entries parked (R372). -/
def State.parkedPairs (s : State) (q : SeqId) : Nat :=
  ((List.finRange 1024).map fun t => (s.tiles[t].bag.filter fun e => e.seq == q && e.park != 0).length).foldl (· + ·) 0

/-- The counts of R372 but PARKED. -/
def Counts.report (c : Counts) : List W :=
  [c.rewrites, c.allocs, c.frees, c.stale, c.discards, c.drops, c.doublefree, c.cuts, c.loose, c.rulemiss].map (BitVec.ofNat 64)

/-- What has been counted since a start. -/
def Counts.since (c b : Counts) : Counts :=
  { rewrites := c.rewrites - b.rewrites, allocs := c.allocs - b.allocs, frees := c.frees - b.frees, stale := c.stale - b.stale,
    discards := c.discards - b.discards, drops := c.drops - b.drops, doublefree := c.doublefree - b.doublefree,
    cuts := c.cuts - b.cuts, loose := c.loose - b.loose, rulemiss := c.rulemiss - b.rulemiss, bundles := c.bundles - b.bundles,
    mmas := c.mmas - b.mmas, linesRead := c.linesRead - b.linesRead, linesWritten := c.linesWritten - b.linesWritten,
    circuitWords := c.circuitWords - b.circuitWords, pageRequests := c.pageRequests - b.pageRequests }

/-- A sequence found quiet for the first time since it was active: QUIET, and the INSTANCE events of the runs started before it, in
ascending number (R372, R395). -/
def State.reportQuiet (s : State) (q : SeqId) (x : Sequence) : State :=
  let s1 := s.seqEvent 0 q 0x0001 (portWord x.iface[0] false :: x.counts.report ++ [BitVec.ofNat 64 (s.parkedPairs q)])
  let s2 := x.runs.foldl (fun a r =>
    a.seqEvent 0 q 0x000C (BitVec.ofNat 64 r.num :: r.node0 :: (x.counts.since r.before).report)) s1
  s2.modSeq q fun y => { y with quiet := true, runs := [] }

/-- One sequence under a sweep. -/
def State.sweepSeq (s : State) (q : SeqId) : State :=
  match s.seqs[q] with
  | none => s
  | some x =>
    let now := s.activities q
    let still := s.calm q && now == x.lastActivity
    let s1 := s.modSeq q fun y => { y with lastActivity := now, quiet := y.quiet && still }
    if still && !x.quiet then s1.reportQuiet q { x with lastActivity := now } else s1

/-- QUIET_SWEEP (R371), at the next multiple of 65,536 slots. -/
def execQuietSweep (s : State) : Out :=
  .next ((List.finRange 256).foldl State.sweepSeq (s.until ((s.domain.sid / 65536 + 1) * 65536)))

end Sys2Proof.Machine
end

