-- ==== Sys2Proof/Machine/HostCommands.lean ====
section
/-! DEFINITION. The commands of the host that act on tables, keys, memory and counters (spec/26 R419, R424, R429, R430, R432,
R433, R434, R437, spec/25 R410, R414, R415, spec/22 R361): each gives its STATUS and the words of its result. -/

namespace Sys2Proof.Machine

/-- What a command answers: the state after it, its STATUS and its result. -/
abbrev Reply := State × BitVec 8 × List W

/-- A command refused with a STATUS. -/
def State.deny (s : State) (status : BitVec 8) : Reply := (s, status, [])

/-- A command done, with a result. -/
def State.done (s : State) (words : List W) : Reply := (s, 0, words)

/-! ### S2_WRITE (R437) -/

/-- The table entry that a walk of an IPA reaches at a level; none where an entry above is no table entry. -/
def State.stage2Entry (s : State) (tiles : List TileId) (ipa lvl table : Nat) : Nat → Option Place
  | 0 =>
    let pa := table + 8 * (ipa / 2 ^ (39 - 9 * lvl) % 512)
    some (.hbm pa (spreadHome tiles pa))
  | n + 1 =>
    let pa := table + 8 * (ipa / 2 ^ (39 - 9 * lvl) % 512)
    let pl := Place.hbm pa (spreadHome tiles pa)
    let e := s.readNum .firmware pl 8
    if s.placeBad pl 8 || e % 4 != 1 then none else s.stage2Entry tiles ipa (lvl + 1) (e / 4096 % 2 ^ 44 * 4096) n

/-- Every bit of a stage-2 entry but V, LEAF, X W R, SIZE and ADDR is reserved (R399). -/
def reservedStage2 (e : Nat) : Bool := e / 2 ^ 7 % 2 ^ 5 != 0 || e / 2 ^ 56 != 0

/-- A value that S2_WRITE refuses at a level: a reserved field, what R401 refuses, or a frame or table outside HBM. -/
def badStage2Value (e lvl : Nat) : Bool :=
  let addr := e / 4096 % 2 ^ 44 * 4096
  let last := if e / 2 % 2 = 0 then addr + 4095 else addr + 2 ^ pageBits ⟨e / 32 % 4, by omega⟩ - 1
  reservedStage2 e || e % 2 == 1 && (badStage2 e lvl || !isHbm addr || !isHbm last || stackOf addr != stackOf last)

/-- A page zeroed under firmware's key. -/
def State.zeroTable (s : State) (tiles : List TileId) (pa : Nat) : State :=
  (List.range 64).foldl (fun a i =>
    a.writePlace .firmware (.hbm (pa + 64 * i) (spreadHome tiles (pa + 64 * i))) (List.replicate 64 0)) s

/-- The TLBI that follows a write (R419): KIND 4 for a table entry, KIND 3 at SCOPE 1 for a page. -/
def s2Inval (b : S2Body) (e : Nat) : Inval :=
  if e % 4 = 1 then .part b.part
  else
    let z : Fin 4 := match b.level with
      | 0 | 1 => 3
      | 2 => 2
      | 3 => if e % 2 = 1 then ⟨e / 32 % 4, by omega⟩ else 0
    .stage2 b.part z (b.ipa.toNat / 2 ^ pageBits z * 2 ^ pageBits z)

/-- S2_WRITE; none while its TLBI must wait for accesses in flight (R226). Log 87: DESIGN CHOICE. -/
def State.s2Write (s : State) (b : S2Body) : Option Reply :=
  let e := b.value.toNat
  match s.parts[b.part] with
  | none => some (s.deny 0x83)
  | some x =>
    if badStage2Value e b.level.val then some (s.deny 0x82)
    else
      let tiles := tilesOf (s.spreadBlocks b.part (s.firstTile b.part))
      match s.stage2Entry tiles b.ipa.toNat 0 x.s2root b.level.val with
      | none => some (s.deny 0x83)
      | some pl =>
        let i := s2Inval b e
        if s.invalWaits 0 1 i then none
        else
          let s1 := if e % 4 = 1 then s.zeroTable tiles (e / 4096 % 2 ^ 44 * 4096) else s
          some (((s1.writeNum .firmware pl 8 e).invalidate 0 1 0 i).done [])

/-! ### TLB_INVAL, UNPARK, PAGE_REPLY, FAULTINJ, SET_DUMPAREA -/

/-- TLB_INVAL (R410, R419): TLBI KIND 1 or 2 of the sequence, at SCOPE 1; none while it must wait. Log 87: DESIGN CHOICE. -/
def State.tlbInval (s : State) (q : SeqId) (b : InvalBody) : Option Reply :=
  let i : Inval := match b.page with
    | some (va, z) => .page q z (va.toNat / 2 ^ pageBits z * 2 ^ pageBits z)
    | none => .seq q
  if s.invalWaits 0 1 i then none else some ((s.invalidate 0 1 0 i).done [])

/-- A parked entry taken out of its bag. -/
def State.dropParked (s : State) (t : TileId) (e : BagEntry) : State :=
  s.modTile t fun x => { x with bag := eraseEntry e x.bag }

/-- UNPARK (R361, R419): an entry parked with PARK 3 or 4 is run again or dropped; where there is none the command is refused.
Log 81: DEDUCED. -/
def State.unpark (s : State) (q : SeqId) (b : UnparkBody) : Reply :=
  let is (e : BagEntry) : Bool :=
    e.seq == q && e.lineA == b.lineA && e.lineB == b.lineB && (e.park == 3 || e.park == 4)
  match (List.finRange 1024).findSome? fun t => (s.tiles[t].bag.find? is).map fun e => (t, e) with
  | none => s.deny 0x83
  | some (t, e) => if b.drop then (s.dropParked t e).done [] else (s.repark t q e.lineA e.lineB e.park 0).done []

/-- PAGE_REPLY (R414, R415): of an outstanding tag it answers; of a retired one it frees the tag; both this and every other reply
are counted as late. -/
def State.pageReply (s : State) (fn : Fin 193) (b : ReplyBody) : State :=
  let late := s.modStream fn fun x => { x with late := x.late + 1 }
  match (s.streams[fn].tags.find? fun t => t.tag == b.tag) with
  | none => late
  | some t =>
    if t.ipa / 4096 ≠ b.ipaPage.toNat ∨ t.size ≠ b.size ∨ 1 < b.status.toNat then late
    else if h : fn.val < 192 then
      (if t.retired then
        (late.modStream fn fun x => { x with tags := x.tags.filter fun y => y.tag != b.tag }).raiseWaiting ⟨fn.val, h⟩ 64
       else s.pageAnswer ⟨fn.val, h⟩ t (b.status == 0))
    else late

/-- FAULTINJ (R229, R419) on a named tile, whose core must be running. Log 84: DEDUCED. -/
def State.injectFor (s : State) (t : TileId) (ga gb : W) : Reply :=
  if siteReserved ga then s.deny 0x82 else if s.running t then (s.inject t ga gb).done [] else s.deny 0x83

/-- SET_DUMPAREA (R434). -/
def State.setDump (s : State) (q : SeqId) (va : W) : Reply :=
  if va.toNat % 4096 ≠ 0 then s.deny 0x82 else (s.modSeq q fun x => { x with dump := some va }).done []

/-! ### READ_COUNTERS (R433) -/

/-- 1.6 × 10^9 SIDCOUNT steps. -/
def windowSteps : Nat := 1600000000

/-- COUNTER_WINDOW: the window of every sequence ends at the next multiple of its length. -/
def execCounterWindow (s : State) : Out :=
  let s1 := s.until ((s.domain.sid / windowSteps + 1) * windowSteps)
  let close (x : Option Sequence) : Option Sequence := x.map fun y =>
    { y with window := y.counts.since y.windowBase, windowBase := y.counts, windowEnd := s1.domain.sid }
  .next { s1 with seqs := s1.seqs.map close }

/-- The counters of a window. Log 86: DEDUCED. -/
def Counts.observed (c : Counts) : List Nat :=
  [c.bundles, c.rewrites, c.mmas, c.linesRead, c.linesWritten, c.circuitWords, c.pageRequests]

/-- Counters as the host sees them: rounded down to a multiple of 2^16, with the end of the window. -/
def counterWords (l : List Nat) (end_ : Nat) : List W := l.map (fun n => BitVec.ofNat 64 (n / 2 ^ 16 * 2 ^ 16)) ++ [BitVec.ofNat 64 end_]

/-- A sequence's counters, for its VF. -/
def State.seqCounters (s : State) (q : SeqId) : List W :=
  match s.seqs[q] with
  | some x => counterWords x.window.observed x.windowEnd
  | none => []

/-- A partition's counters, for the MF: the sums over its sequences. Log 86: DEDUCED. -/
def State.partCounters (s : State) (p : PartId) : List W :=
  let l := (List.finRange 16).filterMap fun n => s.seqs[seqOf p n]
  let sums := (List.range 7).map fun i => (l.map fun x => x.window.observed.getD i 0).foldl (· + ·) 0
  counterWords sums ((l.map (·.windowEnd)).foldl Nat.max 0)

/-! ### ATTEST (R432) -/

/-- Bytes of ASCII as words of eight, the first byte lowest. Log 85: PRESUMED. -/
def asciiWord (l : List Nat) : W := BitVec.ofNat 64 (leNat (l.map (BitVec.ofNat 8)))

/-- The 64-bit words of a 256-bit value, the lowest first. -/
def words256 (x : BitVec 256) : List W := (List.range 4).map fun i => x.extractLsb' (64 * i) 64

/-- Bytes 0 to 295 of a quote: part number and stepping, M0 to M3, dies in service, nonce, SIDCOUNT, requester, image and key.
Log 85: PRESUMED. -/
def State.quoteBody (s : State) (nonce : BitVec 256) (who : W) (image : BitVec 256) : List W :=
  let status := (List.range 4).foldl (fun a i => if (s.dies.toList.map (·.fenced)).getD i true then a else a + 2 ^ i) 0
  [asciiWord [0x57, 0x56, 0x2D, 0x48, 0x4C, 0x34, 0x2D, 0x37], asciiWord [0x36, 0x38, 0x4E, 0x42, 0x30]] ++
    s.cold.measured.toList.flatMap words256 ++ [BitVec.ofNat 64 status] ++ words256 nonce ++ [BitVec.ofNat 64 s.domain.sid, who] ++
    words256 image ++ (List.range 8).map (Config.quoteWord 0)

/-- Words cut into fragments of a size. -/
def fragments (size : Nat) (l : List W) : Nat → List (List W)
  | 0 => []
  | n + 1 => if l.isEmpty then [] else l.take size :: fragments size (l.drop size) n

/-- The COMPLETION bodies of a quote: STATUS, fragment number and count, and the fragment's words. -/
def quoteFragments (l : List W) : List (List W) :=
  let parts := fragments 1022 l l.length
  parts.zipIdx.map fun (x, i) => 0 :: BitVec.ofNat 64 (parts.length * 2 ^ 16 + i) :: x

/-- A quote for the MF, or for a VF and a sequence of its; the signature is fresh. -/
def State.quote (s : State) (nonce : BitVec 256) (who : Option (Fin 192 × SeqId)) : State × List (List W) :=
  let (code, image) : W × BitVec 256 := match who with
    | none => (0xFFFF, 0)
    | some (v, q) => (BitVec.ofNat 64 ((partOf q).val * 2 ^ 12 + (seqNo q).val * 2 ^ 8 + v.val), match s.seqs[q] with
      | some x => Config.measurement (4 + x.launched)
      | none => 0)
  (s.bump, quoteFragments (s.quoteBody nonce code image ++ (List.range 6232).map (Config.quoteWord s.fresh)))

/-! ### HOST_READ and HOST_WRITE (R424) -/

/-- What one unit's translation and target answer. -/
inductive Unit_
  | at_ (pl : Place)
  | fault (c : Cause)
  | hold (s : State)

/-- Where a unit is performed: through both stages, TOUCH leaves pinned to the agent's tile 0; lines that do not stand at their homes
(R276), a pane that is in engine use and a die that does not reach the host port (R26) hold the unit. Log 83: DEDUCED. -/
def State.hostUnit (s : State) (q : SeqId) (write : Bool) (va : W) : Unit_ :=
  let acc := if write then Access.write else Access.read
  let t := s.firstTile (partOf q)
  let tables := s.walkSpans q t va
  if !s.meetsZero (dieOf t) then .hold s
  else if !(s.absent tables).isEmpty then .hold (s.askLines q tables)
  else match s.walk q t va with
  | .touch leaf old => .hold (s.touchLeaf q t leaf old)
  | .done _ | .fault _ | .missing .. | .poisoned =>
    match s.xlateWalk t q acc va with
    | .fault c => .fault c
    | .miss => .hold s
    | .at_ (.hbm pa home) _ =>
      if !s.meetsZero (dieOf home) then .hold s
      else if !s.keyLive q (dieOf home) then .fault .keyVoid
      else if (s.absent [(.hbm pa home, 8)]).isEmpty then .at_ (.hbm pa home)
      else .hold (s.askLines q [(.hbm pa home, 8)])
    | .at_ (.win u off) _ =>
      if !s.meetsZero (dieOf u) then .hold s
      else match s.windowReady (commitReq q u (.win u off) 8 va) u off write with
        | .go _ => .at_ (.win u off)
        | .hold s1 => .hold s1
        | .refuse c => .fault c

/-- The word that eight bytes make. -/
def byteWord (l : List Byte) : W := BitVec.ofNat 64 (leNat l)

/-- Bytes as words of a COMPLETION. -/
def byteWords (l : List Byte) : Nat → List W
  | 0 => []
  | n + 1 => byteWord (l.take 8) :: byteWords (l.drop 8) n

/-- A job gone from the list, and completed. -/
def State.endJob (s : State) (j : HostJob) (status : BitVec 8) (words : List W) : State :=
  let s1 : State := { s with hostJobs := s.hostJobs.filter fun x => x.hdr.fn != j.hdr.fn }
  match fnOf j.hdr.fn with
  | some fn => s1.complete fn j.hdr status words
  | none => s1

/-- A job replaced by what is left of it. -/
def State.keepJob (s : State) (j : HostJob) : State :=
  { s with hostJobs := s.hostJobs.map fun x => if x.hdr.fn = j.hdr.fn then j else x }

/-- The next units of a job, up to one that must wait. -/
def State.runJob (s : State) (j : HostJob) : Nat → State
  | 0 => s.endJob j 0 (byteWords j.got (j.got.length / 8))
  | n + 1 =>
    match s.hostUnit j.seq j.write j.va with
    | .fault c => s.endJob j 0x86 [c.code.setWidth 64]
    | .hold s1 => s1.keepJob { j with left := n + 1 }
    | .at_ pl =>
      if j.write then
        (s.writePlace (.seq j.seq) pl (j.data.take 8)).runJob { j with va := j.va + 8, data := j.data.drop 8 } n
      else if s.placeBad pl 8 then (s.correct pl 8).endJob j 0x84 []
      else
        (s.correct pl 8).runJob { j with va := j.va + 8, got := j.got ++ s.readPlace (.seq j.seq) pl 8 } n

/-- A job started. -/
def State.startJob (s : State) (h : HostHdr) (q : SeqId) (write : Bool) (b : HostAccess) : State :=
  let j : HostJob := { hdr := h, write := write, seq := q, va := b.va, left := b.len / 8, data := b.data, got := [] }
  ({ s with hostJobs := s.hostJobs ++ [j] }).runJob j j.left

/-- A body that R424 does not allow. Log 83: DEDUCED. -/
def badAccess (b : HostAccess) (write : Bool) : Bool :=
  b.va.toNat % 8 != 0 || b.len < 8 || 4096 < b.len || b.len % 8 != 0 || (write && b.data.length != b.len)

/-! ### Transit (R429, R430) -/

/-- Ascending order without repeats. -/
def insertNat (n : Nat) : List Nat → List Nat
  | [] => [n]
  | m :: l => if n < m then n :: m :: l else if n = m then m :: l else m :: insertNat n l

/-- The units that a die's pointer walks: lines of HBM homed on the die in mapped pages, by address, then the granules of the panes
tagged for the sequence. Log 82: DESIGN CHOICE. -/
def State.sweepUnits (s : State) (q : SeqId) (d : DieId) (l : List Mapped) : List Nat :=
  let p := partOf q
  let lines := (l.filter fun m => m.what == .page).flatMap fun m => match m.pa with
    | none => []
    | some pa => ((List.range 64).map fun i => pa + 64 * i).filter fun a => dieOf (s.mappedHome p m a) == d
  let panes := (dieTiles d).flatMap fun t => ((List.finRange 128).filter fun n => s.tiles[t].panes[n].seq == some q).flatMap fun n =>
    (List.range 128).map fun g => storeKey t (4096 * n.val + 32 * g)
  lines.foldl (fun a x => insertNat x a) [] ++ panes

/-- KEYOP on every die of a sequence. -/
def State.keyopAll (s : State) (x : Sequence) (op : KeyOp) : State :=
  (List.finRange 4).foldl (fun a d => match x.slots[d] with
    | some k => (a.keyop d k op).1
    | none => a) s

/-- A KEYOP would be refused on some die. -/
def State.keyRefused (s : State) (x : Sequence) (op : KeyOp) : Bool :=
  (List.finRange 4).any fun d => match x.slots[d] with
    | some k => (s.dies[d].keys[k].refuses op true).isSome
    | none => false

/-- The Transit sweep of a die has ended. -/
def State.sweepEnds (s : State) (x : Sequence) (d : DieId) : State :=
  match x.slots[d] with
  | some k => s.modDie d fun y => { y with keys := y.keys.set k { y.keys[k] with swept := true } }
  | none => s

/-- Once every pointer has finished, KEYOP RETIRE on every die, and the COMPLETION with SKIPPED (R429). -/
def State.endRotate (s : State) (q : SeqId) : State :=
  match s.seqs[q] with
  | none => s
  | some x => match x.rotate with
    | none => s
    | some h =>
      if !x.sweepLeft.all (fun y => y.2.isEmpty) then s
      else
        let s1 := (List.finRange 4).foldl (fun a d => a.sweepEnds x d) s
        let s2 := (s1.keyopAll x .retire).modSeq q fun y => { y with rotate := none, sweepLeft := [] }
        match fnOf h.fn with
        | some fn => s2.complete fn h 0 [BitVec.ofNat 64 x.skipped]
        | none => s2

/-- KEY_ROTATE starts (R429): STATUS 0x83 where a slot is not LIVE or is rotating, or a DRBG fails. Log 82: DESIGN CHOICE. -/
def State.startRotate (s : State) (fn : Fin 193) (h : HostHdr) (q : SeqId) : State :=
  match s.seqs[q] with
  | none => s.complete fn h 0x81 []
  | some x =>
    let s1 := s.keyopAll x .rotate
    let ok := (List.finRange 4).all fun d => match x.slots[d] with
      | some k => s1.dies[d].keys[k].rotating
      | none => true
    if s.keyRefused x .rotate || !ok then ({ s with free := s.free + 4 }).complete fn h 0x83 []
    else
      let l := s.mapping (.seq q) (partOf q) x.s1root
      let skipped := (l.filter fun m => m.what == .page && m.pa.isNone).length
      let left := (List.finRange 4).map fun d => (d, s.sweepUnits q d l)
      (s1.modSeq q fun y => { y with rotate := some h, sweepLeft := left, skipped := skipped }).endRotate q

/-- A unit's length: a line of HBM, or a granule of a tile store. -/
def unitLen (a : Nat) : Nat := if a < 2 ^ 56 then 64 else 32

/-- The bytes of a unit that are under the old generation put under the new one. -/
def State.recipher (s : State) (k : KeySlot) (a : Nat) : State :=
  let old := if k.gen then k.key1 else k.key0
  let new := k.view.w
  if new = 0 then s
  else { s with keyed := s.keyed.map fun x => if a ≤ x.1 ∧ x.1 < a + unitLen a ∧ x.2 = old ∧ old ≠ 0 then (x.1, new) else x }

/-- TRANSIT_SWEEP_UNIT (R429, R430): a die's pointer does one unit and moves on; the unit's near-buffer line comes home first. -/
def execTransitSweepUnit (d : DieId) (q : SeqId) (s : State) : Out :=
  match s.seqs[q] with
  | none => .next s
  | some x => match x.sweepLeft.find? (fun y => y.1 == d), x.slots[d] with
    | some (_, a :: rest), some k =>
      let left := x.sweepLeft.map fun y => if y.1 = d then (d, rest) else y
      let home (y : Tile) : Tile := { y with near := y.near.filter fun n => n != a / 64 }
      let s1 : State := if a < 2 ^ 56 then { s with tiles := s.tiles.map home } else s
      .next (((s1.recipher s.dies[d].keys[k] a).modSeq q fun y => { y with sweepLeft := left }).endRotate q)
    | _, _ => .next s

end Sys2Proof.Machine
end

