-- ==== Sys2Proof/Machine/SlotDomain.lean ====
section
/-! DEFINITION. Peer links and slot domains (spec/12 R239, R240, R261–R267): training, Ephemeris exchanges, circuits across peer
links (R248), partition keys, Occultation, flooded fencing and drain rounds. The other packages are outside the model: what they send
is an event, and what this package sends stands at its ports. -/

namespace Sys2Proof.Machine

/-! ### Ports -/

/-- The die of a peer port and its number there (R25). -/
def portDie (p : Fin 16) : DieId := ⟨p.val / 4, by omega⟩

/-- The first slot from a SIDCOUNT on in which a port's tag word carries no CTL yet; n further slots are looked at (R261, R262). -/
def PeerPort.ctlSlot (y : PeerPort) (sid : Nat) : Nat → Nat
  | 0 => sid
  | n + 1 => if y.sent.any fun x => x.1 == sid && tagCtl x.2.1 != 0 then y.ctlSlot (sid + 1) n else sid

/-- The slot in which a port sends its next CTL word. -/
def State.ctlSlot (s : State) (p : Fin 16) : Nat := s.ports[p].ctlSlot (s.domain.sid + 1) s.ports[p].sent.length

/-- A CTL word put into a slot's tag word at a port (R262); the PKEY of the slot stays. -/
def State.putCtl (s : State) (p : Fin 16) (slot : Nat) (ctl : Fin 16) (pay : BitVec 44) : State :=
  s.modPort p fun y => y.putSlot slot
    (fun w => tagWord (BitVec.ofNat 16 (w.toNat / 2 ^ 48)) ctl pay) none

/-- A CTL word sent in the port's next slot that carries none. -/
def State.sendCtl (s : State) (p : Fin 16) (ctl : Fin 16) (pay : BitVec 44) : State := s.putCtl p (s.ctlSlot p) ctl pay

/-- A CTL word flooded over every peer link. Log 94: DEDUCED. -/
def State.flood (s : State) (ctl : Fin 16) (pay : BitVec 44) : State :=
  ((List.finRange 16).filter fun p => s.ports[p].up).foldl (fun a p => a.sendCtl p ctl pay) s

/-- CPAY of CTL 4 to 6 (R262): the package, down or restored in bit 12, and the round or epoch. Log 94: DEDUCED. -/
def floodPay (pkg : Fin 4096) (bit : Bool) (n : Nat) : BitVec 44 := BitVec.ofNat 44 (n % 2 ^ 12 * 2 ^ 16 + boolNat bit * 2 ^ 12 + pkg.val)

/-! ### Circuits across peer links (R248) -/

/-- The route of a circuit across a peer link, as far as it lies in this package: to the port's router, or from it (R248). -/
def State.peerRoute (s : State) (b : PeerBody) : Route :=
  if b.outgoing then { src := b.tile, inp := 5, lead := 0, out := 7 }
  else { src := peerRouter b.port, inp := 7, lead := s.ports[b.port].delay, out := 5 }

/-- Where that route ends. -/
def peerGoal (b : PeerBody) : TileId := if b.outgoing then peerRouter b.port else b.tile

/-- PEER_CIRCUIT judged by R248, check by check: the failure's STATUS of R252, or the path, the slots and the landing point. The far
endpoint is the far package's to check. Log 67: DESIGN CHOICE. -/
def State.judgePeer (s : State) (q : SeqId) (b : PeerBody) (r : CircRec) : Except Nat (List Step × List Nat × Fin 128 × Option Nat) :=
  let route := s.peerRoute b
  let path := (movesOf r.path 16).getD []
  if r.malformed s.domain.wheel then .error 0x01
  else if !s.inPart (partOf q) b.tile || (if b.outgoing then r.src else r.dst) != b.tile then .error 0x02
  else if !path.isEmpty && !validPath route.src (peerGoal b) path then .error 0x03
  else match (if b.outgoing then some (0, none) else s.landing q r) with
    | none => .error 0x06
    | some (pane, bar) =>
      if 64 ≤ s.tableCount b.tile then .error 0x07
      else if !s.domain.member || !s.ports[b.port].up || s.domain.barred b.pkg || s.domain.barred s.domain.own then .error 0x09
      else
        let try_ := s.tryPath 0 (some (partOf q)) route r.slots r.mask []
        match (if path.isEmpty then candidates try_ route.src (peerGoal b) else try_ path) with
        | .granted p l => .ok (p, l, pane, bar)
        | .budget => .error 0x05
        | .noslot => .error 0x04
        | .unreachable => .error 0x09

/-- PEER_CIRCUIT (R248, R419): the reply record, whether it was granted, and the state after it. The handle goes to the VF too.
Log 67: DESIGN CHOICE. -/
def State.peerCircuit (s : State) (q : SeqId) (b : PeerBody) : State × Bool × List W :=
  let r := circRec b.req
  match s.judgePeer q b r with
  | .error st => (s, false, failWords st)
  | .ok (path, l, pane, bar) =>
    let d := portDie b.port
    let route := s.peerRoute b
    let h := nextHandle s.circuits d s.dies[d].granted s.circuits.length
    let delay := (route.links path).elim 0 (·.2.2)
    let c0 := Circuit.make h.1 q { r with src := b.tile, dst := b.tile } path l delay pane bar
    let c1 : Circuit := { c0 with peer := some (b.port, b.outgoing), remote := some b.pkg, lead := route.lead,
                                  latch := c0.latch && !b.outgoing }
    let c : Circuit := { c1 with live := s.liveFor c1 r.start }
    let s1 : State := if b.outgoing then { s.modDie d fun x => { x with granted := h.2 } with circuits := s.circuits ++ [c] }
      else s.openCircuit d c h.2
    (s1.writeTables c l c.live true, true, c.words l c.live)

/-- A word that comes over a peer link for a circuit (R261): it was sent in an owned slot of the circuit, is forwarded P slots later, and
lands by R232. Log 67: DESIGN CHOICE. -/
def State.ingress (s : State) (c : Circuit) (w : BitVec 256) : State :=
  let n := s.domain.wheel
  match c.departure n (Nat.max (Nat.max (c.lastLeft + 1) c.live) (s.domain.sid - c.lead)) (2 * n + (c.sets.getLast?).elim 0 (·.1)) with
  | none => s
  | some t =>
    let s1 := s.until (t + c.lead)
    let r := s1.sendAlong c t
    (s1.misrouted r.2).modCircuit c.handle fun x =>
      { x with lastLeft := t, wire := if r.1 then x.wire ++ [⟨w, t + c.delay, none⟩] else x.wire }

/-- PEER_WORD_INGRESS (R265): a word with a revoked key is discarded and counted; another is forwarded on the circuit that its slot
belongs to. -/
def execPeerWordIngress (p : Fin 16) (pkey : BitVec 16) (h : BitVec 32) (w : BitVec 256) (s : State) : Out :=
  if !s.ports[p].up then .next s
  else if s.ports[p].revoked.contains pkey then .next (s.modPort p fun y => { y with revokedDrops := y.revokedDrops + 1 })
  else match s.circuit h with
    | some c => if c.peer = some (p, false) then .next (s.ingress c w) else .next s
    | none => .next s

/-! ### Training (R240, R261) -/

/-- A peer link taken out of service: its circuits close (R261). Log 102: DEDUCED. -/
def State.dropLink (s : State) (p : Fin 16) : State :=
  (s.cutWhere (fun c => c.peer.any fun x => x.1 == p) 1).modPort p fun y => { y with up := false }

/-- Peer links are trained while the package runs (R283). -/
def State.mayTrain (s : State) : Bool := s.cold.state == ColdState.cold || s.cold.state == ColdState.twilight

/-- PEER_LINK_TRAIN: a trained link with the package's own W comes into service; δ is in 1/256 slot, and P is δ in whole slots, at
least 1. A link that was in service comes back without its circuits. Log 94: DEDUCED. -/
def execPeerLinkTrain (p : Fin 16) (ok : Bool) (delta : Nat) (w : Nat) (pkg : Fin 4096) (s : State) : Out :=
  if !s.mayTrain then .next s
  else
    let s1 := s.dropLink p
    if ok && w == s.domain.wheel then
      .next (s1.modPort p fun y => { y with up := true, delay := Nat.max 1 ((delta + 255) / 256), attached := pkg })
    else .next s1

/-- PEER_LINK_WANDER (R261). -/
def execPeerLinkWander (p : Fin 16) (s : State) : Out := .next (s.dropLink p)

/-! ### Ephemeris (R239, R263) -/

/-- A stamp as CPAY carries it (R262): SIDCOUNT[35:0] and 8 bits of fraction. -/
def stampPay (x : Stamp) : BitVec 44 := BitVec.ofNat 44 x

/-- The stamp of a departure at a slot. -/
def slotStamp (sid : Nat) : Stamp := 256 * sid

/-- The stamp of an arrival now, with its fraction. -/
def State.stampNow (s : State) (fraction : Stamp) : Stamp := slotStamp s.domain.sid + fraction % 256

/-- SYNC_PERIOD: at a multiple of 65,536 slots the upstream end sends SYNC, stamped t1 at its departure. Where this package is upstream it
goes out; on the package's own upstream port it is what the other end has sent. -/
def execSyncPeriod (p : Fin 16) (t1 : Stamp) (s : State) : Out :=
  let s1 := s.until ((s.domain.sid / 65536 + 1) * 65536)
  if s.domain.upstream = some p then .next (s1.modPort p fun y => { y with t1 := some t1, t2 := none, t3 := none, t4 := none })
  else if s.ports[p].up then .next (s1.putCtl p (s1.ctlSlot p) 1 (stampPay (slotStamp (s1.ctlSlot p)))) else .next s1

/-- SYNC: the downstream end stamps the arrival and sends DREQ, stamped t3 at its departure. -/
def execSync (p : Fin 16) (t2 : Stamp) (s : State) : Out :=
  if s.domain.upstream = some p ∧ s.ports[p].t1.isSome then
    let t3 := slotStamp (s.ctlSlot p)
    .next ((s.modPort p fun y => { y with t2 := some (s.stampNow t2), t3 := some t3 }).putCtl p (s.ctlSlot p) 2 (stampPay t3))
  else .next s

/-- DREQ: the upstream end answers with DRESP, which carries the arrival stamp t4. -/
def execDreq (p : Fin 16) (t4 : Stamp) (s : State) : Out :=
  if s.domain.upstream = some p then .next (s.modPort p fun y => { y with t4 := some t4 })
  else if s.ports[p].up then .next (s.sendCtl p 3 (stampPay (s.stampNow t4))) else .next s

/-- A time moved with SIDCOUNT. -/
def retime (by_ : Int) (n : Nat) : Nat := (Int.ofNat n + by_).toNat

/-- A circuit's times moved with SIDCOUNT. -/
def Circuit.retimed (c : Circuit) (f : Nat → Nat) : Circuit :=
  { c with sets := c.sets.map (fun x => (f x.1, x.2)), live := f c.live, lastLeft := f c.lastLeft, closeAt := f c.closeAt,
           queue := c.queue.map (fun x => { x with entered := f x.entered }),
           wire := c.wire.map fun x => { x with lands := f x.lands } }

/-- SIDCOUNT moved as a package joins a domain (R239, R263, R285): every router's slot number moves by the same amount, so that what is
under way moves with it. Log 6: DESIGN CHOICE. -/
def State.shiftSid (s : State) (by_ : Int) : State :=
  let f := retime by_
  let word (x : ConfigWord) : ConfigWord := { x with next := f x.next, body := match x.body with
    | .table w => .table { w with at_ := f w.at_ }
    | .hop b c => .hop b c
    | .peerKey p n k => .peerKey p n k }
  { s with domain := { s.domain with sid := f s.domain.sid }, circuits := s.circuits.map fun c => c.retimed f,
           pending := s.pending.map (fun w => { w with at_ := f w.at_ }), config := s.config.map word,
           relay := s.relay.map (fun m => { m with last := f m.last }), dies := s.dies.map fun x => { x with resetAt := f x.resetAt } }

/-- The gap from one stamp to another as 44-bit stamps give it, from −2^43 to 2^43 − 1. -/
def stampGap (early late : Stamp) : Int :=
  let d := (late % 2 ^ 44 + 2 ^ 44 - early % 2 ^ 44) % 2 ^ 44
  if d < 2 ^ 43 then Int.ofNat d else Int.ofNat d - 2 ^ 44

/-- The offset and delay of an exchange, both doubled, in 1/256 slot (R263). -/
def exchange (t1 t2 t3 t4 : Stamp) : Int × Int :=
  let a := stampGap t1 t2
  let b := stampGap t3 t4
  (a - b, a + b)

/-- The SIDCOUNT that a joining package takes from its first exchange (R239, R263): its low 36 bits are its own count less the offset, and
the upper bits, which no stamp carries, are the domain's as the fabric manager gives them. Log 6: DESIGN CHOICE. -/
def joinSid (own : Nat) (t1 t2 t3 t4 : Stamp) (upper : Nat) : Nat :=
  let delay := (t2 + t4 + 2 * 2 ^ 44 - t1 % 2 ^ 44 - t3 % 2 ^ 44) % 2 ^ 44 / 2
  let offset := (t2 % 2 ^ 44 + 2 * 2 ^ 44 - t1 % 2 ^ 44 - delay) % 2 ^ 44
  upper / 2 ^ 36 * 2 ^ 36 + ((slotStamp own % 2 ^ 44 + 2 ^ 44 - offset + 128) % 2 ^ 44) / 256

/-- A package may join a domain: its slot clock runs at 1.6 GHz and does not change (R285), no die or stack is in band 3 or 4, and it is
not fenced (R264, R267). -/
def State.mayJoin (s : State) : Bool :=
  !s.cold.slow && s.cold.changing.isNone &&
    (s.dies.toList.map (·.band) ++ s.hbmStacks.toList.map (·.band)).all (fun b => decide (b.val < 3)) && !s.domain.barred s.domain.own

/-- DRESP: the downstream end computes its offset and delay; a joining package stops injection and takes SIDCOUNT at a revolution boundary
(R285); a member slews while |offset| is above 1/16 slot, and leaves the domain above 1/4 slot. -/
def execDresp (p : Fin 16) (sid : Nat) (s : State) : Out :=
  let y := s.ports[p]
  if s.domain.upstream ≠ some p then .next s
  else match y.t1, y.t2, y.t3, y.t4 with
    | some t1, some t2, some t3, some t4 =>
      let (o, d) := exchange t1 t2 t3 t4
      let dom := { s.domain with offset := o / 2, delay := d / 2, slewing := decide (32 < o.natAbs) }
      let s1 : State := { s with domain := dom }
      let s2 := s1.modPort p fun z => { z with t1 := none, t2 := none, t3 := none, t4 := none }
      if !s.domain.member then
        let shift := Int.ofNat (joinSid s.domain.sid t1 t2 t3 t4 sid) - Int.ofNat s.domain.sid
        .next (if s.mayJoin && y.up then { s2 with domain := { s2.domain with joining := some shift } } else s2)
      else if 128 < o.natAbs then .next s2.leaveDomain
      else .next s2
    | _, _, _, _ => .next s

/-- The first SIDCOUNT from a count on at which the shifted count is a multiple of W. -/
def boundaryAfter (w : Nat) (by_ : Int) (sid : Nat) : Nat → Nat
  | 0 => sid
  | n + 1 => if (Int.ofNat sid + by_) % Int.ofNat w = 0 then sid else boundaryAfter w by_ (sid + 1) n

/-- A join under way made (R263, R285): at a revolution boundary of the domain's count SIDCOUNT takes its value, and injection resumes. -/
def State.joinDomain (s : State) : State :=
  match s.domain.joining with
  | none => s
  | some x =>
    let s1 := (s.until (boundaryAfter s.domain.wheel x s.domain.sid s.domain.wheel)).shiftSid x
    { s1 with domain := { s1.domain with member := true, joining := none } }

/-- Circuits are open that hold W as it is: tenants' and memory circuits (R240). Event circuits are opened again with another W.
Log 113: DESIGN CHOICE. -/
def State.wheelHeld (s : State) : Bool := !s.holders.isEmpty || s.standing.any fun y => y.part.isSome

/-- W changed: peer links are trained again for it (R240), and the event circuits are opened again. -/
def State.newWheel (s : State) (w : Nat) : State :=
  if w = s.domain.wheel then s
  else
    let s1 := s.unstand fun _ => true
    ({ s1 with domain := { s1.domain with wheel := w }, ports := s1.ports.map fun (y : PeerPort) => { y with up := false } } : State).completeStanding

/-- SLOT_DOMAIN_FORMATION (R240, R263): W, the reference package, the package's number and its upstream port; W changes only while no
circuit is open. The reference package belongs to the domain at once, where its slot clock allows it. -/
def execSlotDomainFormation (w : Fin 4) (refPkg : Fin 4096) (own : Fin 4096) (up : Option (Fin 16)) (s : State) : Out :=
  let wheel := 8 * 2 ^ w.val
  if s.wheelHeld && wheel != s.domain.wheel then .next s
  else
    let s1 := s.newWheel wheel
    let isRef := decide (own = refPkg)
    let dom := { s1.domain with formed := true, refPkg := refPkg, own := own, upstream := if isRef then none else up,
                                joining := none, member := false, offset := 0, delay := 0, slewing := false,
                                fencedPkgs := s1.domain.fencedPkgs.filter fun k => k != s.domain.own && k != own }
    let s2 : State := { s1 with domain := dom }
    .next { s2 with domain := { s2.domain with member := isRef && s2.mayJoin } }

/-! ### Fencing across packages (R265–R267) -/

/-- Words still queued for circuits that run through a package are discarded (R267). -/
def State.discardFor (s : State) (pkg : Fin 4096) : State :=
  let gone := s.circuits.filter fun c => c.through s.domain.own pkg
  let drop (c : Circuit) : Circuit := if c.through s.domain.own pkg then { c with queue := [], wire := [] } else c
  let s1 := gone.foldl (fun a c => a.dropSends c) s
  { s1 with circuits := s1.circuits.map drop }

/-- Drain rounds start, unless they are under way (R267). -/
def State.startDrain (s : State) (pkg : Fin 4096) : State :=
  if s.domain.drains.any fun x => x.1 == pkg then s
  else
    let s1 := (s.discardFor pkg).flood 6 (floodPay pkg true 1)
    { s1 with domain := { s1.domain with drains := s1.domain.drains ++ [(pkg, 1)] } }

/-- Circuits with an endpoint in a package closed; their slots are held until the end of drain round 3 (R266, R267). -/
def State.cutPackage (s : State) (pkg : Fin 4096) : State :=
  let l := s.circuits.filter fun c => c.through s.domain.own pkg
  let s1 := s.cutWhere (fun c => c.through s.domain.own pkg) 0
  { s1 with domain := { s1.domain with frozen := s1.domain.frozen ++ l.map fun c => (pkg, { c with queue := [], wire := [] }) } }

/-- The sixteen keys of a package (R265). -/
def packageKeys (pkg : Fin 4096) : List (BitVec 16) := (List.finRange 16).map (pkeyOf pkg)

/-- An epoch noted as applied. The numbers have 12 bits and come round: the last 4,095 are known. Log 94: DEDUCED. -/
def noteEpoch (l : List (BitVec 12)) (e : BitVec 12) : List (BitVec 12) := (l ++ [e]).drop (l.length + 1 - 4095)

/-- Packages with one more, once. -/
def withPkg (l : List (Fin 4096)) (pkg : Fin 4096) : List (Fin 4096) := l.filter (· != pkg) ++ [pkg]

/-- An Occultation epoch applied (R266, R267): keys revoked or restored at every port, the package fenced, circuits closed, drain rounds
started. -/
def State.applyEpoch (s : State) (pkg : Fin 4096) (epoch : BitVec 12) (restore : Bool) : State :=
  let keys := packageKeys pkg
  let port (y : PeerPort) : PeerPort :=
    let rest := y.revoked.filter fun k => !keys.contains k
    { y with revoked := if restore then rest else rest ++ keys }
  let x := s.domain
  let dom := { x with epochs := noteEpoch x.epochs epoch,
                      revokedPkgs := if restore then x.revokedPkgs.filter (· != pkg) else withPkg x.revokedPkgs pkg,
                      fencedPkgs := if restore then x.fencedPkgs else withPkg x.fencedPkgs pkg }
  let s1 := ({ s with ports := s.ports.map port, domain := dom }).flood 5 (floodPay pkg restore epoch.toNat)
  if restore then s1 else (s1.cutPackage pkg).startDrain pkg

/-- REVOKE: each epoch is applied once and forwarded once. -/
def execRevoke (pkg : Fin 4096) (epoch : BitVec 12) (restore : Bool) (s : State) : Out :=
  if s.domain.epochs.contains epoch then .next s else .next (s.applyEpoch pkg epoch restore)

/-- An epoch that has not been applied among the last 4,095. -/
def State.newEpoch (s : State) : BitVec 12 :=
  (((List.range 4096).map (BitVec.ofNat 12)).find? fun e => !s.domain.epochs.contains e).getD 0

/-- OCCULT (R266, R419). -/
def State.occult (s : State) (pkg : Fin 4096) (restore : Bool) : State := s.applyEpoch pkg s.newEpoch restore

/-- PEER_LINK_FAILURE (R266): firmware starts an Occultation of the package attached to a port that has failed twice in a row. -/
def execPeerLinkFailure (p : Fin 16) (s : State) : Out := .next (s.occult s.ports[p].attached false)

/-- LSU_DOWN (R267): flooded once; nothing is sent toward the package, and its words are drained. -/
def execLsuDown (pkg : Fin 4096) (s : State) : Out :=
  if s.domain.fencedPkgs.contains pkg then .next s
  else
    let s1 := s.flood 4 (floodPay pkg true 0)
    .next (({ s1 with domain := { s1.domain with fencedPkgs := withPkg s1.domain.fencedPkgs pkg } }).startDrain pkg)

/-- LSU_UP (R267): flooded once; the package is readmitted where its keys are restored, or once they are. -/
def execLsuUp (pkg : Fin 4096) (s : State) : Out :=
  if !s.domain.fencedPkgs.contains pkg then .next s
  else
    let s1 := s.flood 4 (floodPay pkg false 0)
    .next { s1 with domain := { s1.domain with fencedPkgs := s1.domain.fencedPkgs.filter (· != pkg) } }

/-- A drain round entered: its words are discarded, and its DRAIN word forwarded. -/
def State.enterRound (s : State) (pkg : Fin 4096) (n : Fin 4) : State :=
  let s1 := (s.discardFor pkg).flood 6 (floodPay pkg true n.val)
  { s1 with domain := { s1.domain with drains := (s1.domain.drains.filter fun x => x.1 != pkg) ++ [(pkg, n)] } }

/-- DRAIN (R267): a numbered round, entered once. -/
def execDrain (pkg : Fin 4096) (round : Fin 4) (s : State) : Out :=
  match s.domain.drains.find? fun x => x.1 == pkg with
  | some (_, n) => .next (if n.val < round.val then s.enterRound pkg round else s)
  | none => .next (if round.val = 0 then s else s.enterRound pkg round)

/-- DRAIN_ROUND_END (R267): 65,536 slots on, what was queued since is discarded too and the next round begins; after round 3 the slots of
the circuits closed are free. -/
def execDrainRoundEnd (pkg : Fin 4096) (s : State) : Out :=
  match s.domain.drains.find? fun x => x.1 == pkg with
  | none => .next s
  | some (_, n) =>
    let s1 := (s.until (s.domain.sid + 65536)).discardFor pkg
    if h : n.val < 3 then .next (s1.enterRound pkg ⟨n.val + 1, by omega⟩)
    else .next { s1 with domain := { s1.domain with drains := s1.domain.drains.filter (fun x => x.1 != pkg),
                                                    frozen := s1.domain.frozen.filter fun x => x.1 != pkg } }

end Sys2Proof.Machine
end

