-- ==== Sys2Proof/Machine/ColdMachine.lean ====
section
/-! DEFINITION. The cold (spec/13 R279–R286, spec/01 R30, R31): sensors, bands and refresh bands, the cold state machine, the slot
clock, and the loss and return of supply with boot (spec/26 R431). -/

namespace Sys2Proof.Machine

/-! ### Bands (R279, R280) -/

/-- The upper limits of bands 0 to 3, in tenths of a kelvin. -/
def bandLimits : List Nat := [850, 1200, 1800, 2500]

/-- The band after a reading: up where the temperature exceeds the upper limit, down where it falls to the limit below minus 3 K. -/
def nextBand (b : Fin 5) (temp : Nat) : Fin 5 :=
  let up := (bandLimits.filter fun l => decide (l < temp)).length
  let down := (bandLimits.filter fun l => decide (l - 30 < temp)).length
  if b.val < up then ⟨up % 5, by omega⟩ else if down < b.val then ⟨down % 5, by omega⟩ else b

/-- The HBM pin rate of a band, in 0.1 Gb/s (R279). -/
def hbmRate (b : Fin 5) : Nat :=
  match b with
  | 0 | 1 => 128
  | 2 => 96
  | 3 => 64
  | 4 => 32

/-- A stack's reading (R279–R281): its band, its refresh band, and retraining where the pin rate changes. -/
def Stack.reads (x : Stack) (temp : Nat) : Stack :=
  let b := nextBand x.band temp
  { x with temp := temp, band := b, refresh := nextBand x.refresh (temp + 30),
           retraining := x.retraining || hbmRate b != hbmRate x.band }

/-- A die's reading. -/
def Die.reads (x : Die) (temp : Nat) : Die := { x with temp := temp, band := nextBand x.band temp }

/-- The temperatures of every sensor. -/
def State.temps (s : State) : List Nat := s.dies.toList.map (·.temp) ++ s.hbmStacks.toList.map (·.temp)

/-- The bands of every die and stack. -/
def State.bands (s : State) : List (Fin 5) := s.dies.toList.map (·.band) ++ s.hbmStacks.toList.map (·.band)

/-- A stack of a die (R22). -/
def stackAt (d : DieId) (i : Fin 3) : StackId := ⟨3 * d.val + i.val, by omega⟩

/-- Sensors of a die and its stacks set; a stack without a value keeps its own. Log 4: DESIGN CHOICE. -/
def State.sense (s : State) (d : DieId) (die : Nat) (l : List Nat) (f : Die → Nat → Die) (g : Stack → Nat → Stack) : State :=
  (List.finRange 3).foldl (fun a i => a.modStack (stackAt d i) fun x => g x (l.getD i.val x.temp)) (s.modDie d fun x => f x die)

/-! ### The cold state machine (R283, R284) -/

/-- CSTATE's code (R286). -/
def ColdState.code : ColdState → W
  | .warm => 0
  | .nightfall => 1
  | .cold => 2
  | .twilight => 3
  | .daybreak => 4

/-- Links, stacks and peer ports idle (R283): none is in service until it is trained again, and no circuit is left. -/
def State.idleLinks (s : State) : State :=
  let s1 := (s.cutWhere (fun _ => true) 1).unstand fun _ => true
  let die (x : Die) : Die := { x with stkUp := 0, prevUp := false, nextUp := false }
  let stack (x : Stack) : Stack := { x with up := false, retraining := false }
  let port (y : PeerPort) : PeerPort := { y with up := false }
  { s1 with dies := s1.dies.map die, hbmStacks := s1.hbmStacks.map stack, ports := s1.ports.map port }

/-- A change of cold state, reported as a COLD event (R283, R421). Log 97: DEDUCED. -/
def State.goCold (s : State) (x : ColdState) : State :=
  let s1 := match x with
    | .warm | .nightfall => s.idleLinks
    | .cold | .twilight | .daybreak => s
  ({ s1 with cold := { s1.cold with state := x } }).packageEvent 0 0x0009 [x.code]

/-- Every key slot of every die zeroized (R284). -/
def State.zeroizeAll (s : State) : State := { s with dies := s.dies.map Die.zeroized }

/-- What R284 does at DAYBREAK and at the first reading of band 4: every sequence ends, every partition is destroyed, and every key
slot is zeroized. Log 96: DEDUCED. -/
def State.purge (s : State) : State :=
  let s1 := ((s.seqsWhere fun _ _ => true).foldl (fun a q => a.eclipse q (some 2)) s).flush
  ((List.finRange 16).foldl (fun a p => a.releasePart p) s1).zeroizeAll

/-- DAYBREAK entered (R283, R284). Log 97: DEDUCED. -/
def State.daybreak (s : State) : State := (s.goCold .daybreak).purge.leaveDomain

/-- The moves that sensor readings make, one (R283). Log 4: DESIGN CHOICE. -/
def State.coldMove (s : State) : State :=
  match s.cold.state with
  | .cold => if s.bands.all (· == 0) then s else s.goCold .twilight
  | .twilight =>
    if s.bands.contains 4 then s.daybreak else if s.bands.all (· == 0) then s.goCold .cold else s
  | .daybreak => if s.temps.all (fun x => decide (2500 < x)) then s.goCold .warm else s
  | .warm | .nightfall => s

/-- The slot clock that the bands ask for (R279, R285): injection stops for a change, and the package leaves its domain for the
slower clock. -/
def State.clockMove (s : State) : State :=
  let slow := s.bands.any fun b => b == 3 || b == 4
  let next := if slow = s.cold.slow then none else some slow
  let s1 : State := { s with cold := { s.cold with changing := next } }
  if slow then s1.leaveDomain else s1

/-- What a reading of a die and its stacks does to bands, keys, state and clocks. A stack whose ports retrain for another pin rate (R281)
stays up: R15 does not say that STKUP falls. Log 118: DESIGN CHOICE. -/
def State.readSensors (s : State) (d : DieId) (die : Nat) (l : List Nat) : State :=
  let s1 := s.sense d die l Die.reads Stack.reads
  let first := !s.bands.contains 4 && s1.bands.contains 4
  let rose := decide (s.dies[d].band.val < s1.dies[d].band.val)
  let s2 := match s.cold.state with
    | .cold | .twilight => s1
    | .daybreak => if rose || first then s1.purge else s1
    | .warm | .nightfall => if first then s1.purge else s1
  s2.coldMove.coldMove.coldMove.clockMove

/-- SENSOR_READ (R279): a die controller reads its sensors, in tenths of a kelvin; `rate` is the falling rate in tenths of a kelvin per
minute, reported in NIGHTFALL above 5 K (R283). Without supply the sensors' temperatures change and nobody reads them. -/
def execSensorRead (d : DieId) (die : Nat) (temps : List Nat) (rate : Nat) (s : State) : Out :=
  if !s.cold.supply then
    .next (s.sense d die temps (fun x n => { x with temp := n }) (fun x n => { x with temp := n }))
  else
    let s1 := s.readSensors d die temps
    .next (if s1.cold.state = .nightfall ∧ 50 < rate then s1.packageEvent 0 0x0009 [1, BitVec.ofNat 64 rate] else s1)

/-- A die's next edge has the 20 modules in service that its link needs (R310). -/
def Die.edgeFit (x : Die) : Bool := decide (x.modulesOut.length ≤ 4)

/-- HBM and the links of die edges trained (R283): a link whose edge has too few modules stays down (R15, R310). -/
def State.trainLinks (s : State) : State :=
  let dies : Vector Die 4 := Vector.ofFn fun (d : Fin 4) =>
    { s.dies[d] with stkUp := 7, nextUp := s.dies[d].edgeFit, prevUp := (s.dies[(⟨(d.val + 3) % 4, by omega⟩ : Fin 4)]).edgeFit }
  let on (x : Stack) : Stack := { x with up := true, retraining := false }
  { s with dies := dies, hbmStacks := s.hbmStacks.map on }

/-- NIGHTFALL_SETTLED (R283): after 60 s at 82 K or below, HBM and links are trained, every key slot is zeroized and the cores are released;
the event circuits are opened. Each peer port is trained by the PEER_LINK_TRAIN that follows for it. Log 113: DESIGN CHOICE. -/
def execNightfallSettled (s : State) : Out :=
  if s.cold.supply && s.cold.state == ColdState.nightfall && s.temps.all (· ≤ 820) then
    .next (s.trainLinks.zeroizeAll.goCold .cold).completeStanding
  else .next s

/-- COOL (R283): accepted in WARM once every sensor reads at most 250 K. Log 96: DEDUCED. -/
def State.cool (s : State) : Option State :=
  if s.cold.state = .warm ∧ s.temps.all (· ≤ 2500) then some (s.goCold .nightfall) else none

/-- WARMUP (R283); none where it names no move. -/
def State.warmup (s : State) : Option State :=
  match s.cold.state with
  | .nightfall => some (s.goCold .warm)
  | .cold | .twilight => some s.daybreak
  | .warm | .daybreak => none

/-- SLOT_CLOCK_CHANGE (R285): once every word in flight has landed, the slot clock changes at the next revolution boundary, or a joining
package takes the domain's SIDCOUNT, and injection resumes. -/
def execSlotClockChange (s : State) : Out :=
  let landed := s.circuits.all fun c => c.wire.isEmpty
  match s.cold.changing with
  | none => .next (if landed then s.joinDomain else s)
  | some x =>
    if landed then
      let s1 := s.until ((s.domain.sid / s.domain.wheel + 1) * s.domain.wheel)
      .next { s1 with cold := { s1.cold with slow := x, changing := none } }
    else .next s

/-- HBM_RETRAIN_END (R281). -/
def execHbmRetrainEnd (k : StackId) (s : State) : Out := .next (s.modStack k fun x => { x with retraining := false })

/-! ### Supply (R31, R284, R431) -/

/-- A die without supply: its links, stacks and peer ports are down, and it has nothing under way. -/
def Die.dark (x : Die) : Die :=
  { x.booted with stkUp := 0, prevUp := false, nextUp := false, keyStatus := 0, granted := 0, split := false }

/-- A peer port without supply. -/
def PeerPort.dark (x : PeerPort) : PeerPort := { PeerPort.zero with delay := x.delay }

/-- SUPPLY_LOSS (R31): the package stops. What banks, stores and HBM hold stays as ciphertext, and no key under which it could be read
comes back: not a sequence's (R284), nor firmware's own. Log 98: DEDUCED. -/
def execSupplyLoss (s : State) : Out :=
  if !s.cold.supply then .next s
  else
    let down (x : Stack) : Stack := { x with up := false, retraining := false }
    let lost : List (Nat × Nat) := s.keyed.map fun x => (x.1, s.fresh)
    .next { s.bump with
      keyed := lost, tiles := s.tiles.map Tile.booted, dies := s.dies.map Die.dark, hbmStacks := s.hbmStacks.map down,
      ports := s.ports.map PeerPort.dark, seqs := Vector.replicate 256 none, parts := Vector.replicate 16 none, circuits := [],
      standing := [], tables := [], pending := [], config := [], relay := [], sent := [], received := [], reductions := [], transfers := [],
      streams := Vector.replicate 193 Stream.zero, hostJobs := [], domain := Domain.zero, agenda := [], issue := Issue.zero,
      cold := { Cold.zero with supply := false, booted := false } }

/-- SUPPLY_RETURN (R284, R431): every key slot is zeroized before any die controller runs firmware, boot runs, and the state machine
starts in WARM, or in NIGHTFALL where every sensor's first reading is at most 250 K. No circuit stands at boot. Log 98: DEDUCED. -/
def execSupplyReturn (s : State) : Out :=
  if s.cold.supply then .next s
  else
    let die (x : Die) : Die := ({ x.zeroized with band := 4 } : Die).reads x.temp
    let stack (x : Stack) : Stack := { ({ x with band := 4, refresh := 4 } : Stack).reads x.temp with retraining := false }
    let measured := Vector.ofFn fun (i : Fin 4) => Config.measurement i.val
    let s1 : State := { s with dies := s.dies.map die, hbmStacks := s.hbmStacks.map stack, circuits := [], standing := [],
                               cold := { Cold.zero with supply := true, booted := true, measured := measured } }
    let s2 := if s1.temps.all (· ≤ 2500) then s1.goCold .nightfall else s1
    .next s2.clockMove

end Sys2Proof.Machine
end

