-- ==== Sys2Proof/Machine/Run.lean ====
section
/-! DEFINITION. A move of a tile's core (spec/03 R54–R64, spec/05 R107, R112, R113, R118, spec/16 R300, R301): the issue of a
bundle, the end of a work, and what the foreground strand does at a boundary. A function `ex` is the meaning of the
instructions. -/

namespace Sys2Proof.Machine

/-! ### The words of a bundle, performed -/

/-- The order in which the words of a bundle are performed, all of them from the registers at issue (R54): words that read
state of the tile, the others in word order, receives, control words that say where the strand goes, and the words that end a
rewrite, whose bundle's other words come first (R221, R222). Log 69: DEDUCED. -/
def rankOf (x : Slot) : Nat :=
  match x.word with
  | none => 1
  | some w => match w.i with
    | .crr .. | .crx .. | .pstat .. | .mstat .. | .cstat .. | .mpoll .. => 0
    | .mrecv .. | .crecv .. => 2
    | .trap .. | .halt | .wfe | .yield | .safe | .eret => 3
    | .rcommit | .rabort .. => 4
    | _ => 1

/-- The words of a bundle in that order. Log 69: DEDUCED. -/
def byRank (l : List Slot) : List Slot := (List.range 5).flatMap fun r => l.filter fun x => rankOf x == r

/-- A word performed. -/
def State.runWord (ex : Instr → State → Out) (s : State) (x : Slot) : State :=
  match x.word with
  | none => s
  | some w => match ex w.i { s with issue := s.issue.at_ x } with
    | .next s1 => s1
    | .fault _ | .refused _ => s

/-- A word that follows others of its bundle waits behind them (R106, R130, R132, R135, R139, R143): an element-addressed word is
being performed, or the word's own check finds something to wait for that it did not find at issue. Log 110: DEDUCED. -/
def State.heldBack (ex : Instr → State → Out) (s : State) (x : Slot) : Bool :=
  s.ctx.running.isSome || match s.verdictOf ex x with
    | .wait | .stall | .miss .. => true
    | .pass | .trap .. => false

/-- Words performed in order, until one has ended the bundle's work or must wait; `first` says that nothing of the bundle comes before
them for which they could wait. -/
def State.runWords (ex : Instr → State → Out) (s : State) (first : Bool) : List Slot → State
  | [] => s
  | x :: l =>
    if s.issue.atEnd then s
    else if !first && s.heldBack ex x then s.holdTail (x :: l)
    else (s.runWord ex x).runWords ex false l

/-! ### Parallax (R300, R301) -/

/-- A scalar ALU word whose result goes elsewhere than g0 (R230). -/
def Slot.alu (x : Slot) : Bool :=
  1 ≤ x.maj && x.maj ≤ 5 && x.uses.dests.any fun d => match d with
    | .g r => r != 0
    | .none | .v _ | .k _ | .cr _ => false

/-- A word that affects memory (R301): those of R128, CSEND, MSEND, VRORD, copy commands, CIRQ, CIRZ and CIRX, and net words
that a thread performs. Log 20: DEDUCED. -/
def Slot.affects (x : Slot) (rewrite : Bool) : Bool :=
  match x.word with
  | none => false
  | some w => match w.i with
    | .st .. | .str .. | .vst .. | .vsts .. | .vscat .. | .vamo .. | .vstm .. | .pgive .. | .ptake .. | .binit ..
    | .barrive .. | .bexpect .. | .csend .. | .msend .. | .vrord .. | .cirq .. | .cirz .. | .cirx .. => true
    | .nalloc .. | .nfree .. | .nlink .. | .npush .. | .nport .. | .spawn .. => !rewrite
    | _ => x.maj == 0x0E || x.maj == 0x1B

/-- The armed injection of site 0 flips a result of the bundle, at its first execution or, with PERSIST, at every retry (R229, R230).
Log 20: DEDUCED. -/
def State.injected (s : State) (l : List Slot) : Bool :=
  let c := s.tile.core
  let w := c.injSite.toNat
  l.any Slot.alu && bitsAt w 0 4 == 0 && bitsAt w 4 3 == s.curK.val &&
    (c.injArmed || (decide (0 < c.retry) && bitsAt w 38 1 == 1))

/-- Parallax checks a word (R299), its result, its address, or both: every word but the M words of majors 0x19 and 0x1A, which the checksums
of R181 to R183 check. -/
def Slot.checked (x : Slot) : Bool := x.maj != 0x19 && x.maj != 0x1A

/-- An error of the hardware strikes a word, and the word's check finds it (R299). -/
def State.struck (s : State) (x : Slot) : Bool :=
  x.checked && (s.tile.core.upset.any fun u => u.1 == s.curK && u.2.val == x.pos)

/-- A word of the bundle does not pass its check. -/
def State.mismatched (s : State) (l : List Slot) : Bool := s.injected l || l.any s.struck

/-- The core after a mismatch: held, and counting (R300). -/
def Core.mismatch (c : Core) (fired : Bool) (done : List Nat) (regs : Regs) : Core :=
  let recent := c.mismatches.filter fun m => c.cycle < m + 2 ^ 30
  { c with hold := true, retry := c.retry + 1, released := c.released ++ done, retryRegs := c.retryRegs.or (some regs),
           mismatches := recent ++ [c.cycle], injFired := c.injFired || fired, injArmed := c.injArmed && !fired, upset := none }

/-- No bundle is being retried. -/
def Core.retried (c : Core) : Core := { c with retry := 0, released := [], retryRegs := none }

/-- A mismatch (R300, R301): only the words that affect memory and pass their own check take effect, each once; the core is held. The
third in a row fences the tile. -/
def State.mismatch (ex : Instr → State → Out) (s : State) (todo : List Slot) : State :=
  let regs := s.ctx.regs
  let free := todo.filter fun x => x.affects s.rewriting.isSome && !s.struck x
  let s1 := s.runWords ex true free
  if s1.issue.atEnd then s1.modCore s.cur Core.retried
  else
    let s2 := s1.modTile s.cur fun x =>
      { x with core := x.core.mismatch (s.injected todo) (free.map (·.pos)) regs, syndromes := x.syndromes + 1 }
    if 3 ≤ s2.tile.core.retry then s2.fenceTile s.cur else s2

/-- The registers after a re-execution: what it wrote over what replies have written meanwhile (R301). -/
def Regs.merge (before now after : Regs) : Regs :=
  { g := Vector.ofFn fun i => if after.g[i] = before.g[i] then now.g[i] else after.g[i],
    v := Vector.ofFn fun i => if after.v[i] = before.v[i] then now.v[i] else after.v[i],
    k := Vector.ofFn fun i => if after.k[i] = before.k[i] then now.k[i] else after.k[i] }

/-! ### The issue of a bundle -/

/-- A bundle counted (R214, R385, R433). -/
def State.countBundle (s : State) : State :=
  let count (x : Strand) : Strand :=
    { x with preempt := x.preempt.map (· + 1), waited := 0,
             work := match x.work with
               | .rewrite r => .rewrite { r with bundles := r.bundles + 1 }
               | .free | .thread _ | .firmware => x.work }
  (s.modStrand count).modCounts s.q fun c => { c with bundles := c.bundles + 1 }

/-- CHKCTL.EARLY set by an early read while TRAP is 0 (R59). -/
def State.markEarly (s : State) (early : Bool) : State :=
  if early && !s.ctx.chkTrap then s.modCtx fun c => { c with chkctl := c.chkctl ||| 2 } else s

/-- Words added behind those that already wait. -/
def Tail.add (x : Tail) (l : List Slot) : Tail := { x with words := x.words ++ l.map fun y => (y.pos, y.raw) }

/-- The registers as they stood at issue in place of those that stand now, while words are performed: what the words write goes over
what replies have written since (R54, R301). -/
def State.withRegs (s : State) (at_ : Option Regs) (f : State → State) : State :=
  match at_ with
  | none => f s
  | some r =>
    let now := s.ctx.regs
    let s1 := f (s.modCtx fun x => { x with regs := r })
    if s1.issue.atEnd then s1 else s1.modCtx fun x => { x with regs := r.merge now x.regs }

/-- The words of a bundle performed from its registers at issue, and after them those that say where the strand goes on or end the
bundle's work. -/
def State.runBundle (ex : Instr → State → Out) (s : State) (at_ : Option Regs) (first : Bool) (l : List Slot) : State :=
  let work := l.filter fun x => rankOf x < 3
  let last := l.filter fun x => 3 ≤ rankOf x
  let s1 := s.withRegs at_ fun a => a.runWords ex first work
  match s1.ctx.tail with
  | some x => if s1.issue.atEnd then s1 else s1.modCtx fun c => { c with tail := some (x.add last) }
  | none => s1.runWords ex (first && work.isEmpty) last

/-- The end of a bundle of a tile's foreground strand: the strand goes on unless a word has said so itself, and the bundle's cycles
pass; while words wait, a cycle does. -/
def State.endBundle (ex : Instr → State → Out) (s : State) (t : TileId) : State :=
  if !s.issue.atEnd && s.ctx.tail.isSome then s.elapse ex t 1 true false
  else
    let s1 := if s.issue.atEnd then s else s.epilogue
    let cost := if s.issue.atEnd then 0 else s.goOn.2.2
    s1.elapse ex t (1 + s.issue.w + cost) true false

/-- A bundle issues (R54): its words are performed from the registers at issue, those that read state of the tile first, and the
strand goes on. -/
def State.issueWords (ex : Instr → State → Out) (s : State) (l : List Slot) : State :=
  let t := s.cur
  let c := s.ctx
  let core := s.tile.core
  let todo := s.unreleased l
  let s0 := { s.keepLines c.pc l.length with issue := { issueOf c.pc l with checked := true, first := s.fresh } }
  if s0.mismatched todo then (s0.mismatch ex todo).elapse ex t 1 true false
  else
    let reads := todo.filter fun x => rankOf x == 0
    let others := (byRank todo).filter fun x => rankOf x != 0
    let s1 := s0.countBundle.withRegs core.retryRegs fun a => reads.foldl (State.runWord ex) a
    let s2 := (s1.markEarly (c.early l).isSome).runBundle ex core.retryRegs true others
    (s2.modCore t Core.retried).endBundle ex t

/-! ### The words that wait -/

/-- The words that wait behind others of their bundle go on (R130, R132, R135, R139, R143); after them the bundle ends, unless a
Parallax retry of it follows. -/
def State.tailMove (ex : Instr → State → Out) (s : State) (t : TileId) (k : StrandId) (x : Tail) : State :=
  let idle (a : State) : State := (a.elapse ex t 1 true false)
  match (s.focusOn t k).tailVerdict ex t x with
  | .wait | .stall => idle (({ s with cur := t }).stopBy .wait)
  | .miss a v b => idle (({ s with cur := t }).stopBy (.miss a v b))
  | .pass | .trap .. =>
    let s1 := (s.atTail t x).runBundle ex (some x.regs) true x.slots
    if 0 < s.tiles[t].core.retry then idle s1 else s1.endBundle ex t

/-- The other words of a bundle whose element-addressed word has faulted (R63, R141): they are performed, a TRAP waits as a trap that is
due, and an ERET stays behind the word. Log 26: DEDUCED. -/
def State.flushWord (ex : Instr → State → Out) (s : State) (x : Slot) : State :=
  match x.word with
  | none => s
  | some w => match w.i with
    | .trap c => s.addDue .trapWord (c.setWidth 64) (some 0)
    | .eret => (s.holdTail [x]).modCtx fun y => { y with pc := s.link }
    | _ => if s.issue.atEnd then s else s.runWord ex x

/-- The tail of the current strand performed at once, and the strand gone on to the next bundle. A rewrite that traps is discarded, with
its tail. Log 26: DEDUCED. -/
def State.flushTail (ex : Instr → State → Out) (s : State) : State :=
  match s.ctx.tail, s.rewriting with
  | some x, none =>
    let s1 := (s.atTail s.cur x).withRegs (some x.regs) fun a => x.slots.foldl (State.flushWord ex) a
    if s1.issue.atEnd || s1.ctx.tail.isSome then s1 else s1.epilogue
  | _, _ => s

/-- A strand that waits at its bundle: at its 9th cycle the scheduler chooses again (R58, R381). -/
def State.stayed (s : State) (t : TileId) (k : StrandId) : State :=
  if 9 ≤ (s.strandAt t k).waited ∧ s.tiles[t].core.retry = 0 then s.switchEvent t else s

/-- The foreground strand's next bundle: it issues, traps, or waits (R53, R54, R58–R60). -/
def State.tryIssue (ex : Instr → State → Out) (s : State) (t : TileId) (k : StrandId) : State :=
  let s0 := s.focus t
  match s0.nextVerdict ex with
  | (.pass, l) => s0.issueWords ex l
  | (.stall, _) => s0.elapse ex t 1 false false
  | (.trap c v, _) => ((s0.stopBy (.trap c v)).modCore t Core.retried).elapse ex t 1 true false
  | (.wait, _) => ((s0.stopBy .wait).elapse ex t 1 true false).stayed t k
  | (.miss a v b, _) => ((s0.stopBy (.miss a v b)).elapse ex t 1 true false).stayed t k

/-! ### The end of a work -/

/-- The report of the Tenant work that firmware stops: a FAULT event with the cause of the Monitor trap, and the sealed dump
(R63, R224, R434). -/
def State.reportStop (s : State) (t : TileId) (k : StrandId) : State :=
  let x := s.strandAt t k
  match x.under with
  | none => s
  | some u =>
    let b := x.ctx.mon
    (s.faultEvent t k x.seq 0 (b.cause.setWidth 8)).sealedDump x.seq t u b.pc b.val b.mask

/-- A thread or a firmware task ended (R118, R224): the unit that it holds is released, and its table entry and its strand are
freed. -/
def State.endWork (s : State) (t : TileId) (k : StrandId) : State :=
  let x := s.strandAt t k
  let s1 := if s.heldBy t x.owner then s.releaseUnit t else s
  let s2 := (s1.dropWaits t x.owner).withdraw (s.vfOf x.seq) (.thread t x.owner)
  let s3 := match x.work with
    | .thread i => s2.modCore t fun c => { c with threads := c.threads.set i none }
    | .free | .rewrite _ | .firmware => s2
  (s3.freeStrand t k).switchEvent t

/-- HALT under way (R118, R224): the results land; an enabled flag or a fault among them takes its trap; the work ends once
nothing of it is left in the core. -/
def State.haltStep (ex : Instr → State → Out) (s : State) (t : TileId) (k : StrandId) : State :=
  let s1 := s.landAll t k
  if !(s1.strandAt t k).ctx.due.isEmpty then (s1.takeDue t k).elapse ex t 1 true false
  else if s1.haltReady t k then ((s1.reportStop t k).endWork t k).elapse ex t 1 true false
  else ((s1.modStrandAt t k fun x => { x with waited := x.waited + 1 }).elapse ex t 1 true false).stayed t k

/-! ### A move of the core -/

/-- A rewrite that waits in its RCOMMIT. It has issued its last bundle: a trap that falls due meanwhile, as CIRCUIT may by R184, finds no
boundary of the rewrite any more and is not taken. Log 114: DEDUCED. -/
def State.commitStep (ex : Instr → State → Out) (s : State) (t : TileId) (k : StrandId) (r : Rewrite) : State :=
  if s.commitReady t k r then (s.endCommit t k r).elapse ex t 1 true false
  else ((s.modStrandAt t k fun x => { x with waited := x.waited + 1 }).elapse ex t 1 true false).stayed t k

/-- The bundles that a rewrite has issued. -/
def Strand.ranOut (x : Strand) : Bool :=
  match x.work with
  | .rewrite r => 4096 ≤ r.bundles
  | .free | .thread _ | .firmware => false

/-- A pre-emption has been pending for 256 of the thread's bundles (R385). -/
def Strand.overdue (x : Strand) : Bool := 256 ≤ x.preempt.getD 0

/-- The foreground strand at a boundary. Log 70: DEDUCED. -/
def State.boundary (ex : Instr → State → Out) (s : State) (t : TileId) (k : StrandId) : State :=
  let x := s.strandAt t k
  let c := x.ctx
  if !c.due.isEmpty then (s.takeDue t k).elapse ex t 1 true false
  else if c.parked then (s.switchEvent t).elapse ex t 1 true false
  else if c.sleeping then
    (if c.event then s.modStrandAt t k fun y => { y with ctx := { y.ctx with sleeping := false, event := false } }
     else s.switchEvent t)
  else if c.halting then s.haltStep ex t k
  else if x.overdue then s.preemptLimit t
  else if 4096 ≤ x.quantum && s.rival ex t k then s.switchEvent t
  else if x.ranOut then (s.runaway t).elapse ex t 1 true false
  else (if 4096 ≤ x.quantum then s.modStrandAt t k fun y => { y with quantum := 0 } else s).tryIssue ex t k

/-- The foreground strand in an element-addressed word of a bundle. -/
def State.focusElem (s : State) (t : TileId) (r : Replay) : State :=
  { s with cur := t, issue := { Issue.zero with ba := r.ba } }

/-- The foreground strand's move: an element-addressed word goes on, then the words of its bundle that wait behind it; a bundle held by
Parallax is issued again; a rewrite waits in its commit; otherwise what is due lands, and the strand is at a boundary. -/
def State.strandMove (ex : Instr → State → Out) (s : State) (t : TileId) (k : StrandId) : State :=
  let x := s.strandAt t k
  match x.ctx.running, x.ctx.tail with
  | some r, _ =>
    if x.ctx.parked then (s.switchEvent t).elapse ex t 1 true false
    else (((s.focusElem t r).elemStep (State.flushTail ex) r).elapse ex t 1 true false).stayed t k
  | none, some y =>
    if x.ctx.parked then (s.switchEvent t).elapse ex t 1 true false else (s.tailMove ex t k y).stayed t k
  | none, none =>
    if 0 < s.tiles[t].core.retry then s.tryIssue ex t k
    else match x.committing with
      | some r => s.commitStep ex t k r
      | none => (s.land t k).boundary ex t k

/-- A move of a tile's core (R381). A core that does not run, is held, or loads a context issues nothing; an uncorrectable error in a
strand's context, scoreboard or commit buffer fences the tile (R306). Log 103: DEDUCED. -/
def State.coreMove (ex : Instr → State → Out) (s : State) (t : TileId) : State :=
  let s1 := { s with cur := t }
  if !s1.running t then s1.modCore t fun c => { c with cycle := c.cycle + 1 }
  else if !s1.tiles[t].core.lost.isEmpty then s1.fenceTile t
  else
    let s2 := s1.settle t
    let c := s2.tiles[t].core
    if c.hold then s2.parallaxRetry ex t
    else match c.loading, c.fg, c.resched with
      | some _, _, _ => s2.elapse ex t 1 false false
      | none, some k, false => if s2.stands t k then s2.select ex t else s2.strandMove ex t k
      | none, _, _ => s2.select ex t

end Sys2Proof.Machine
end

