-- ==== Sys2Proof/Machine/Sparing.lean ====
section
/-! DEFINITION. Spares and lost parts (spec/13 R282, spec/16 R306–R312): patrol scrub, spare pseudo-channels and lanes, the transplant of
a tile, and die-edge links that fail and heal. -/

namespace Sys2Proof.Machine

/-! ### Patrol scrub and pseudo-channels (R282, R309) -/

/-- The counts of a pseudo-channel after a line of it has been scrubbed: corrected errors count within one pass, which begins at the
pseudo-channel's first line. 256 of them, or an uncorrectable error, start the copy to a spare; a spare's errors are counted.
Log 99: DESIGN CHOICE. -/
def Stack.scrubbed (k : Stack) (pc : Nat) (first : Bool) (corrected bad : Nat) : Stack :=
  let old := ((k.counts.find? fun x => x.1 == pc).map (·.2)).getD (0, 0)
  let new := ((if first then 0 else old.1) + corrected, old.2 + bad)
  let k1 : Stack := { k with counts := (if new = (0, 0) then [] else [(pc, new)]) ++ k.counts.filter fun x => x.1 != pc }
  if (256 ≤ new.1 || bad != 0) && pc < 384 then k1.startCopy pc else k1

/-- The lines of a stack's exposed pseudo-channels (R268). -/
def stackLines : Nat := 10 ^ 9

/-- The lines of a spare pseudo-channel, numbered above those: spare i's are i, i + 16, i + 32 and so on from there. Log 99: DESIGN
CHOICE. -/
def spareLines : Nat := (stackLines + 383) / 384

/-- The pseudo-channel of a line of a stack; the spares follow the exposed ones (R268, R269, R282). -/
def scrubChannel (line : Nat) : Nat := if line < stackLines then pseudoOf (64 * line) else 384 + (line - stackLines) % 16

/-- The first line of a line's pseudo-channel: what precedes it there lies 384 lines apart, or 16 in a spare (R268). -/
def scrubFirst (line : Nat) : Nat := if line < stackLines then line % 384 else stackLines + (line - stackLines) % 16

/-- The line of its pseudo-channel that is scrubbed after a line: the next in ascending order, or the first again (R282). -/
def scrubNext (line : Nat) : Nat :=
  if line < stackLines then (if line + 384 < stackLines then line + 384 else scrubFirst line)
  else if line + 16 < stackLines + 16 * spareLines then line + 16 else scrubFirst line

/-- The line that a stack's walk of a line's pseudo-channel has come to. -/
def Stack.scrubDue (k : Stack) (line : Nat) : Nat :=
  ((k.scrubAt.find? fun x => x.1 == scrubChannel line).map (·.2)).getD (scrubFirst line)

/-- The walk of a line's pseudo-channel gone on behind it. -/
def Stack.scrubStep (k : Stack) (line : Nat) : Stack :=
  { k with scrubAt := (scrubChannel line, scrubNext line) :: k.scrubAt.filter fun x => x.1 != scrubChannel line }

/-- PATROL_SCRUB (R282): the line that is next in its pseudo-channel is read, checked and written back. `bits` is what the code finds in
it: 0 no error, 1 a single-bit error, 2 an uncorrectable one, which leaves the line poisoned. Errors that were put there by an injection
count with them. Log 99: DESIGN CHOICE. -/
def execPatrolScrub (k : StackId) (line : Nat) (bits : Fin 3) (s : State) : Out :=
  let pa := k.val * 2 ^ 36 + 64 * line
  if stackLines + 16 * spareLines ≤ line || !s.cold.supply || s.hbmStacks[k].scrubDue line != line then .next s
  else if stackLines ≤ line then
    .next (s.modStack k fun x =>
      (x.scrubStep line).scrubbed (scrubChannel line) (scrubFirst line == line) (boolNat (bits == 1)) (boolNat (bits == 2)))
  else
    let gs := granules pa 64
    let inBank := (List.finRange 1024).any fun t => (s.bankLine pa t).isSome
    let found := if inBank then 0 else (s.flips.filter fun f => gs.contains f.1).length
    let s1 := if inBank then s else { s with flips := s.flips.filter fun f => !gs.contains f.1 }
    let one := found + if bits = 1 then 1 else 0
    let two := if bits = 2 then 1 else 0
    let s2 := s1.modStack k fun x => (x.scrubStep line).scrubbed (scrubChannel line) (scrubFirst line == line) one two
    .next (if bits = 2 then (s2.markStack pa true).markStack (pa + 32) true else s2)

/-- PSEUDO_CHANNEL_COPY_END (R269, R309). -/
def execPseudoChannelCopyEnd (k : StackId) (c : Fin 384) (s : State) : Out :=
  if s.hbmStacks[k].copying.contains c.val then
    .next (s.modStack k fun x => { x with copying := x.copying.filter (· != c.val), spared := x.spared.filter (· != c.val) ++ [c.val] })
  else .next s

/-! ### Die-edge links (R311, R312) -/

/-- A link of a path crosses the next edge of a die, one way or the other (R243). -/
def Link.crosses (l : Link) (d : DieId) : Bool :=
  l.out == 6 && match nextEdge l.tile with
    | some _ => dieOf l.tile == d
    | none => dieOf l.tile == nextDie d

/-- A circuit that is re-pathed (R307, R308, R311): where its path is broken, words that have not come `past` slots along it are lost, and
the others land; the circuit goes on over another path with its handle and as many slots. -/
def State.rebuild (s : State) (c : Circuit) (past : Nat) (path : List Step) (slots : List Nat) : State :=
  let crossed (x : WireWord) : Bool := decide (x.lands + past ≤ s.domain.sid + c.delay)
  let lost := c.wire.filter fun x => !crossed x
  let s1 := (lost.filterMap (·.done)).foldl (fun a x => a.answer c.src x.1 x.2 0 0 0 none) (s.clearTables c)
  let delay := (c.route.links path).elim 0 (·.2.2)
  let c1 : Circuit := { c with path := path, delay := delay, sets := [(0, slots)], wire := c.wire.filter crossed }
  let live := Nat.max (s1.liveFor c1 0) (c.wire.foldl (fun a x => Nat.max a x.lands) 0)
  let c2 : Circuit := { c1 with live := (live + s.domain.wheel - 1) / s.domain.wheel * s.domain.wheel }
  (s1.modCircuit c.handle fun _ => c2).writeTables c2 slots c2.live true

/-- Where a circuit's path ends in the package. -/
def Circuit.goal (c : Circuit) : TileId :=
  match c.peer with
  | some (p, true) => peerRouter p
  | some (_, false) | none => c.dst

/-- A circuit re-pathed with its handle and SLOTS; one with no path left is closed (R307, R311). `past` says how far along the old path its
words are safe; `tell` has the sequence hear of it (R308). Log 100: DEDUCED. -/
def State.repath (s : State) (past : Circuit → Nat) (tell : Bool) (h : BitVec 32) : State :=
  match s.circuit h with
  | none => s
  | some c => match candidates (s.tryPath h (some (partOf c.seq)) c.route c.lastSet.length 0 []) c.route.src c.goal with
    | .granted p l =>
      let s1 := s.rebuild c (past c) p l
      if tell then s1.seqEvent (dieOf c.src) c.seq 0x0005 [c.handle.setWidth 64, 3] else s1
    | .budget | .noslot | .unreachable => s.cutCircuit c 1

/-- How far along a circuit's path a word is past the next edge of a die. -/
def Circuit.pastEdge (d : DieId) (c : Circuit) : Nat := ((c.uses.find? fun l => l.crosses d).map (·.d + 6)).getD 0

/-- Standing circuits that a link lost was part of are opened anew where they can be (R311). -/
def State.restand (s : State) (f : Standing → Bool) : State := (s.unstand f).completeStanding

/-- The next-hop tables of every partition written again (R258, R311). -/
def State.rewriteHops (s : State) : State :=
  (List.finRange 16).foldl (fun a p => match a.parts[p] with
    | some x => a.writeHops x.blocks
    | none => a) s

/-- The UCIe link of a die's next edge out of service or back in it (R15). -/
def State.setEdge (s : State) (d : DieId) (up : Bool) : State :=
  (s.modDie d fun x => { x with nextUp := up }).modDie (nextDie d) fun x => { x with prevUp := up }

/-- A die-edge link goes down (R311). Log 100: DEDUCED. -/
def State.edgeDown (s : State) (d : DieId) : State :=
  if s.dies[d].nextUp || s.dies[nextDie d].prevUp then
    let l := (s.circuits.filter fun c => c.uses.any fun x => x.crosses d).map (·.handle)
    let s1 := (s.setEdge d false).restand fun y => y.uses.any fun x => x.crosses d
    (l.foldl (fun a h => a.repath (Circuit.pastEdge d) true h) s1).rewriteHops
  else s

/-- DIE_LINK_DOWN (R311): the link of a die's next edge. -/
def execDieLinkDown (d : DieId) (s : State) : Out := .next (s.edgeDown d)

/-- DIE_SPLIT (R312): a die that has not reached die 0 for 1 ms fences itself. Every partition with a block on it is reset, its key
slots are zeroized, and it opens no circuit. -/
def execDieSplit (d : DieId) (s : State) : Out :=
  if s.meetsZero d || s.dies[d].fenced then .next s
  else
    let s1 := (s.partsOn d).foldl (fun a p => a.resetPart p 3) s
    let s2 := s1.cutWhere (fun c => c.uses.any fun l => dieOf l.tile == d) 0
    .next (s2.modDie d fun x => { x.zeroized with fenced := true, split := true, meridian := [] })

/-- A die of a fenced group that reaches die 0 again reports to it, and is admitted or not as die 0's firmware says.
Log 101: DESIGN CHOICE. -/
def State.rejoin (s : State) (d : DieId) : State :=
  let x := s.dies[d]
  if x.split && s.meetsZero d then
    let ok := (Config.freeWord s.free).getLsbD 0
    (s.useFree).modDie d fun y => if ok then { y with fenced := false, split := false } else y
  else s

/-- DIE_LINK_HEAL (R312): the link of a die's next edge is in service again. -/
def execDieLinkHeal (d : DieId) (s : State) : Out :=
  let s1 := (s.setEdge d true).modDie d fun x => if x.edgeFit then x else { x with modulesOut := [] }
  .next (((List.finRange 4).foldl (fun a e => a.rejoin e) s1).completeStanding).rewriteHops

/-! ### Lanes (R310) -/

/-- A failing lane of a module on a die's next edge: a spare takes its traffic; a module without one goes out of service, and with fewer
than 20 in service the link is down. Log 102: DEDUCED. -/
def State.repairModule (s : State) (d : DieId) (m : Fin 24) : State :=
  let x := s.dies[d]
  if x.modulesOut.contains m then s
  else if x.moduleSpares[m] = 0 then
    let s1 := s.modDie d fun y => { y with modulesOut := y.modulesOut ++ [m] }
    if s1.dies[d].edgeFit then s1 else s1.edgeDown d
  else
    let n : Fin 5 := ⟨x.moduleSpares[m].val - 1, by omega⟩
    s.modDie d fun y => { y with moduleSpares := y.moduleSpares.set m n }

/-- A peer port of a die. -/
def peerPort (d : DieId) (i : Fin 4) : Fin 16 := ⟨4 * d.val + i.val, by omega⟩

/-- The modules of a die's edges as a repair names them: 0 to 23 those of its next edge, 24 to 47 those of its previous edge, each of which
is the end of a module of the die before (R14). Log 102: DEDUCED. -/
def edgeModule (d : DieId) (unit : Fin 48) : DieId × Fin 24 :=
  if h : unit.val < 24 then (d, ⟨unit.val, h⟩) else (⟨(d.val + 3) % 4, by omega⟩, facingModule ⟨unit.val - 24, by omega⟩)

/-- LANE_REPAIR (R310): at a revolution boundary. A peer port's link is trained again; without a spare lane it stays out of service until
then all the same. -/
def execLaneRepair (d : DieId) (peer : Bool) (unit : Fin 48) (s : State) : Out :=
  let s1 := s.until ((s.domain.sid + s.domain.wheel - 1) / s.domain.wheel * s.domain.wheel)
  if peer then
    if h : unit.val < 4 then
      let used : BitVec 4 := BitVec.ofNat 4 (2 ^ unit.val)
      .next ((s1.modDie d fun x => { x with peerSpare := x.peerSpare &&& ~~~used }).dropLink (peerPort d ⟨unit.val, h⟩))
    else .next s
  else .next (s1.repairModule (edgeModule d unit).1 (edgeModule d unit).2)

/-! ### Transplants (R307, R308) -/

/-- A sequence has work on a tile. -/
def Tile.worksFor (x : Tile) (q : SeqId) : Bool :=
  ((List.finRange 8).any fun k => x.core.strands[k].work != Work.free && x.core.strands[k].seq == q) ||
  ((List.finRange 32).any fun i => x.core.threads[i].any fun y => y.seq == q) ||
  (x.core.sched.held.any fun h => h.seq == q) || (x.bag.any fun e => e.seq == q) ||
  ((List.finRange 4).any fun c => x.chans[c].queue.any fun m => m.seq == q) || (List.finRange 128).any fun n => x.panes[n].seq == some q

/-- A rewrite on a tile that is transplanted is discarded, to be run again from the bag (R305); a thread's context is read to its
frame, and a thread whose context holds an uncorrectable error is stopped, with an EVENT that names its entry of the thread table (R307).
Log 103: DEDUCED. -/
def State.liftStrand (s : State) (t : TileId) (k : StrandId) : State :=
  let x := s.strandAt t k
  match x.work with
  | .rewrite r => (s.unhold t k).discard t k r .again
  | .thread i => match s.tiles[t].core.threads[i] with
    | some th =>
      if s.tiles[t].core.lost.contains k then
        (s.seqEvent (dieOf t) x.seq 0x000A [BitVec.ofNat 64 i.val]).endWork t k
      else s.writeFrame t th x.ctx
    | none => s
  | .free | .firmware => s

/-- Single-bit errors in a tile's store corrected as it is copied (R303). -/
def State.copyStore (s : State) (t : TileId) : State :=
  let mine (f : Nat × Nat) : Bool := decide (storeKey t 0 ≤ 32 * f.1) && decide (32 * f.1 < storeKey t (2 ^ 19))
  let n := (s.flips.filter mine).length
  ({ s with flips := s.flips.filter fun f => !mine f }).modTile t fun x => { x with syndromes := x.syndromes + n }

/-- A spare as it takes a logical tile over: nothing cached, no injection armed, no mismatch counted. Log 103: DEDUCED. -/
def Tile.spare (x : Tile) : Tile :=
  let core := { x.core with injFired := false, injArmed := false, injSite := 0, upset := none, lost := [], mismatches := [],
                             icache := [], almanac := [], loading := none }
  { x with core := core, tlbLoad := [], tlbMatrix := [], tlbFetch := [], tlbCopy := Vector.replicate 4 [], near := [],
           predictor := Vector.replicate 256 0 }

/-- The messages in a tile's interface buffers are discarded as it moves: those on their way to it, or held there ahead of their turn,
are sent again by their sources (R259, R260). -/
def State.dropBuffered (s : State) (t : TileId) : State :=
  let out (m : Msg) : Msg := if m.dst == t && m.launched && m.arrived.isNone then { m with lost := true, held := false } else m
  { s with relay := s.relay.map out }

/-- How far along a circuit's path a word is past the router of a tile. -/
def Circuit.pastTile (t : TileId) (c : Circuit) : Nat := ((c.uses.find? fun l => l.tile == t).map (·.d + 1)).getD 0

/-- The circuits that end on a tile or cross its router re-pathed (R307). Whether the router itself has failed, so that words on it are lost
and their sequences told (R308), is a free value. Log 103: DEDUCED. -/
def State.repathTile (s : State) (t : TileId) : State :=
  let broken := (Config.freeWord s.free).getLsbD 0
  let l := (s.circuits.filter fun c => c.uses.any fun x => x.tile == t).map (·.handle)
  l.foldl (fun a h => a.repath (fun c => if broken then c.pastTile t else 0) broken h) s.useFree

/-- TILE_TRANSPLANT (R307, R308): a fenced logical tile is moved to a spare of its die. With no spare left every partition that holds
it is reset. -/
def execTileTransplant (t : TileId) (s : State) : Out :=
  let d := dieOf t
  let x := s.dies[d]
  if !s.tiles[t].core.fenced || x.fenced || x.inReset || x.transplant.isSome || !s.cold.supply then .next s
  else if 16 ≤ x.sparesUsed then
    .next (match s.tiles[t].part with
      | some p => s.resetPart p 1
      | none => s)
  else
    let quiet := (List.finRange 256).filter s.tiles[t].worksFor
    let s1 := (List.finRange 8).foldl (fun a k => a.liftStrand t k) s
    let s2 := ((((s1.drainBanks [t]).copyStore t).modTile t Tile.spare).dropBuffered t).repathTile t
    let s3 := match s.tiles[t].part with
      | some p => match s.parts[p] with
        | some y => s2.writeHops y.blocks
        | none => s2
      | none => s2
    .next (s3.modDie d fun y =>
      { y with transplant := some t, quieted := quiet, sparesUsed := y.sparesUsed + 1,
               moved := (y.moved.filter fun m => m.1 != t) ++ [(t, y.sparesUsed)] })

/-- The core of a tile that goes on on a spare: a bundle that was being retried is executed again. -/
def Core.resumed (c : Core) : Core := { c with fenced := false, hold := false, retry := Nat.min c.retry 1, resched := c.resched || c.retry == 0 }

/-- TILE_TRANSPLANT_END (R307, R308): the threads resume, and what waited for the tile goes on. -/
def execTileTransplantEnd (d : DieId) (s : State) : Out :=
  match s.dies[d].transplant with
  | none => .next s
  | some t => .next ((s.modCore t Core.resumed).modDie d fun x => { x with transplant := none, quieted := [] })

end Sys2Proof.Machine
end

