-- ==== Sys2Proof/Machine/HostPort.lean ====
section
/-! DEFINITION. The host port (spec/26 R417–R419, R423, R424): messages are checked, taken in the order of their numbers, and performed
one at a time for each function. -/

namespace Sys2Proof.Machine

/-! ### Messages -/

/-- The KIND of a message that asks for something (R417). Log 91: DEDUCED. -/
def HostCmd.kind : HostCmd → BitVec 8
  | .pageReply _ => 5
  | .hostRead _ => 6
  | .hostWrite _ => 7
  | .createPartition _ | .destroyPartition _ | .resetVf _ | .resetPartition _ | .resetDie _ | .resetPackage | .s2Write _ | .cool
  | .warmup | .faultinj .. | .peerCircuit _ | .occult .. | .resend _ | .startSequence _ | .endSequence _ | .replay _ | .tlbInval _
  | .unpark _ | .keyRotate _ | .attest .. | .readCounters _ | .setDumparea .. | .handled => 1

/-- A header is a function's. -/
def hdrFor (fn : Fin 193) (h : HostHdr) : Bool := fnOf h.fn == some fn

/-- A function has a command in progress (R418): an access, a rotation or a die reset whose COMPLETION is still to come. -/
def State.busy (s : State) (fn : Fin 193) : Bool :=
  (s.hostJobs.any fun j => hdrFor fn j.hdr) || (s.seqs.toList.any fun x => x.any fun y => y.rotate.any (hdrFor fn)) ||
    s.dies.toList.any fun d => d.stopping.any (hdrFor fn)

/-- A command answered. -/
def hostReply (fn : Fin 193) (h : HostHdr) (r : Reply) : State := r.1.complete fn h r.2.1 r.2.2

/-- A command refused. -/
def State.turnAway (s : State) (fn : Fin 193) (h : HostHdr) (status : BitVec 8) : Option State := some (s.complete fn h status [])

/-! ### Commands of the management function (R419, R423) -/

/-- A COMPLETION that opens a new stream's messages after RESET: the command's number belongs to the stream that ended. -/
def State.firstComplete (s : State) (fn : Fin 193) (h : HostHdr) : State := s.flush.deviceSend fn 2 h.corr [0]

/-- The reset of a VF for a function. -/
def State.vfReset (s : State) (fn : Fin 193) (h : HostHdr) (v : Fin 192) : State :=
  let s1 := s.resetOneVf v 0 v.val 1
  if fn = vfFn v then s1.firstComplete fn h else s1.complete fn h 0 []

/-- The reset of a die starts; one that is fenced or already being reset is refused. -/
def State.dieReset (s : State) (fn : Fin 193) (h : HostHdr) (d : DieId) : State :=
  let x := s.dies[d]
  if x.fenced || x.stopping.isSome || x.inReset then s.complete fn h 0x83 [] else s.startDieReset h d

/-- PEER_CIRCUIT (R248, R252): the reply record follows STATUS, and a granted handle goes to the VF as well. -/
def State.peerCommand (s : State) (fn : Fin 193) (h : HostHdr) (b : PeerBody) : State :=
  match s.ownSeq b.vf b.seq with
  | none => s.complete fn h 0x81 []
  | some q =>
    let (s1, ok, words) := s.peerCircuit q b
    if ok then (s1.deviceSend (vfFn b.vf) 2 h.corr (0 :: words)).complete fn h 0 words
    else s1.complete fn h (if (words.getD 0 0).toNat % 2 ^ 32 = 1 then 0x82 else 0x83) words

/-- A move of the cold state machine that a command asks for. -/
def State.coldCommand (s : State) (fn : Fin 193) (h : HostHdr) (r : Option State) : State :=
  match r with
  | some s1 => s1.complete fn h 0 []
  | none => s.complete fn h 0x83 []

/-- A partition that a command names must be in use. -/
def State.withPart (s : State) (fn : Fin 193) (h : HostHdr) (p : PartId) (f : State → State) : State :=
  if s.parts[p].isSome then (f s).complete fn h 0 [] else s.complete fn h 0x83 []

/-- A command of the MF performed; none while it must wait. Commands of VFs only are not allowed from it. Log 84: DEDUCED. -/
def State.performMf (s : State) (h : HostHdr) (c : HostCmd) : Option State :=
  let fn : Fin 193 := 192
  match c with
  | .createPartition b =>
    let r := s.create b
    some (r.1.complete fn h r.2 [])
  | .destroyPartition p => some (s.withPart fn h p fun a => a.destroyPart p)
  | .resetVf v => some (s.vfReset fn h v)
  | .resetPartition p => some (s.withPart fn h p fun a => a.resetPart p 1)
  | .resetDie d => some (s.dieReset fn h d)
  | .resetPackage => some (s.resetAll.firstComplete fn h)
  | .s2Write b => (s.s2Write b).map (hostReply fn h)
  | .cool => some (s.coldCommand fn h s.cool)
  | .warmup => some (s.coldCommand fn h s.warmup)
  | .faultinj t ga gb => some (hostReply fn h (s.injectFor t ga gb))
  | .peerCircuit b => some (s.peerCommand fn h b)
  | .occult pkg restore => some ((s.occult pkg restore).complete fn h 0 [])
  | .attest nonce _ =>
    let r := s.quote nonce none
    some (r.1.completeAll fn h r.2)
  | .readCounters p => if s.parts[p].isSome then some (s.complete fn h 0 (s.partCounters p)) else s.turnAway fn h 0x83
  | .startSequence _ | .endSequence _ | .replay _ | .tlbInval _ | .unpark _ | .keyRotate _ | .setDumparea .. | .hostRead _
  | .hostWrite _ => s.turnAway fn h 0x81
  | .resend _ | .pageReply _ | .handled => some s

/-! ### Commands of a VF (R419, R424) -/

/-- HOST_READ or HOST_WRITE starts. -/
def State.access (s : State) (fn : Fin 193) (h : HostHdr) (q : SeqId) (write : Bool) (b : HostAccess) : State :=
  if badAccess b write then s.complete fn h 0x82 [] else s.startJob h q write b

/-- A command on a VF's own sequence. -/
def State.performSeq (s : State) (fn : Fin 193) (v : Fin 192) (q : SeqId) (x : Sequence) (h : HostHdr) (c : HostCmd) : Option State :=
  match c with
  | .endSequence _ => some ((s.eclipse q (some 0)).complete fn h 0 [])
  | .replay b => some (hostReply fn h (s.replayNet q x b))
  | .tlbInval b => (s.tlbInval q b).map (hostReply fn h)
  | .unpark b => some (hostReply fn h (s.unpark q b))
  | .keyRotate _ => some (s.startRotate fn h q)
  | .attest nonce _ =>
    let r := s.quote nonce (some (v, q))
    some (r.1.completeAll fn h r.2)
  | .readCounters _ => some (s.complete fn h 0 (s.seqCounters q))
  | .setDumparea _ va => some (hostReply fn h (s.setDump q va))
  | .hostRead b => some (s.access fn h q false b)
  | .hostWrite b => some (s.access fn h q true b)
  | .createPartition _ | .destroyPartition _ | .resetVf _ | .resetPartition _ | .resetDie _ | .resetPackage | .s2Write _ | .cool
  | .warmup | .faultinj .. | .peerCircuit _ | .occult .. | .resend _ | .startSequence _ | .pageReply _ | .handled => some s

/-- The number of the sequence that a VF's command names. -/
def HostCmd.seqNo : HostCmd → Option (Fin 16)
  | .endSequence n => some n
  | .replay b => some b.seq
  | .tlbInval b => some b.seq
  | .unpark b => some b.seq
  | .keyRotate n => some n
  | .attest _ n => some n
  | .readCounters n => some n
  | .setDumparea n _ => some n
  | .hostRead b => some b.seq
  | .hostWrite b => some b.seq
  | .createPartition _ | .destroyPartition _ | .resetVf _ | .resetPartition _ | .resetDie _ | .resetPackage | .s2Write _ | .cool
  | .warmup | .faultinj .. | .peerCircuit _ | .occult .. | .resend _ | .startSequence _ | .pageReply _ | .handled => none

/-- START_SEQUENCE (R377, R378): NOPART from a VF of no partition; the result is the sequence's number. -/
def State.startCommand (s : State) (fn : Fin 193) (v : Fin 192) (h : HostHdr) (b : StartBody) : State :=
  match s.partOfVf v with
  | none => s.complete fn h 0x09 []
  | some p =>
    let (s1, status, q) := s.launchSeq v p b
    s1.complete fn h status ((q.map fun x => BitVec.ofNat 64 (seqNo x).val).toList)

/-- A command of a VF performed; none while it must wait. -/
def State.performVf (s : State) (v : Fin 192) (h : HostHdr) (c : HostCmd) : Option State :=
  let fn := vfFn v
  match c with
  | .resetVf u => if u = v then some (s.vfReset fn h v) else s.turnAway fn h 0x81
  | .startSequence b => some (s.startCommand fn v h b)
  | .resend _ | .pageReply _ | .handled => some s
  | .createPartition _ | .destroyPartition _ | .resetPartition _ | .resetDie _ | .resetPackage | .s2Write _ | .cool | .warmup
  | .faultinj .. | .peerCircuit _ | .occult .. => s.turnAway fn h 0x81
  | .endSequence _ | .replay _ | .tlbInval _ | .unpark _ | .keyRotate _ | .attest .. | .readCounters _ | .setDumparea .. | .hostRead _
  | .hostWrite _ => match c.seqNo.bind (s.ownSeq v) with
    | none => s.turnAway fn h 0x81
    | some q => match s.seqs[q] with
      | none => s.turnAway fn h 0x81
      | some x => s.performSeq fn v q x h c

/-! ### The stream (R418) -/

/-- RESEND: the messages kept from a number on leave again. -/
def State.resend (s : State) (fn : Fin 193) (h : HostHdr) (first : W) : State :=
  (s.modStream fn fun x => { x with egress := x.egress ++ x.kept.filter fun m => first.toNat ≤ m.seqno }).complete fn h 0 []

/-- A message of a function performed as its body says; none while it must wait. -/
def State.performPlain (s : State) (fn : Fin 193) (h : HostHdr) (c : HostCmd) : Option State :=
  match c with
  | .resend first => some (s.resend fn h first)
  | .pageReply b => some (s.pageReply fn b)
  | .handled => some s
  | .createPartition _ | .destroyPartition _ | .resetVf _ | .resetPartition _ | .resetDie _ | .resetPackage | .s2Write _ | .cool
  | .warmup | .faultinj .. | .peerCircuit _ | .occult .. | .startSequence _ | .endSequence _ | .replay _ | .tlbInval _ | .unpark _
  | .keyRotate _ | .attest .. | .readCounters _ | .setDumparea .. | .hostRead _ | .hostWrite _ =>
    if h' : fn.val < 192 then s.performVf ⟨fn.val, h'⟩ h c else s.performMf h c

/-- A command that only the MF gives (R419). -/
def HostCmd.mfOnly : HostCmd → Bool
  | .createPartition _ | .destroyPartition _ | .resetPartition _ | .resetDie _ | .resetPackage | .s2Write _ | .cool | .warmup
  | .faultinj .. | .peerCircuit _ | .occult .. => true
  | .resetVf _ | .resend _ | .startSequence _ | .endSequence _ | .replay _ | .tlbInval _ | .unpark _ | .keyRotate _ | .attest ..
  | .readCounters _ | .setDumparea .. | .pageReply _ | .hostRead _ | .hostWrite _ | .handled => false

/-- A command that only a VF gives (R419, R424). -/
def HostCmd.vfOnly : HostCmd → Bool
  | .startSequence _ | .endSequence _ | .replay _ | .tlbInval _ | .unpark _ | .keyRotate _ | .setDumparea .. | .hostRead _
  | .hostWrite _ => true
  | .createPartition _ | .destroyPartition _ | .resetVf _ | .resetPartition _ | .resetDie _ | .resetPackage | .s2Write _ | .cool
  | .warmup | .faultinj .. | .peerCircuit _ | .occult .. | .resend _ | .attest .. | .readCounters _ | .pageReply _ | .handled => false

/-- A command with a reserved field set is not allowed from a function (R419): STATUS 0x81, or NOPART of a START_SEQUENCE. -/
def State.forbidden (s : State) (fn : Fin 193) (c : HostCmd) : Bool :=
  if h : fn.val < 192 then
    let v : Fin 192 := ⟨fn.val, h⟩
    match c with
    | .resetVf u => u != v
    | .startSequence _ => (s.partOfVf v).isNone
    | .resend _ | .pageReply _ | .handled => false
    | .createPartition _ | .destroyPartition _ | .resetPartition _ | .resetDie _ | .resetPackage | .s2Write _ | .cool | .warmup
    | .faultinj .. | .peerCircuit _ | .occult .. | .endSequence _ | .replay _ | .tlbInval _ | .unpark _ | .keyRotate _ | .attest ..
    | .readCounters _ | .setDumparea .. | .hostRead _ | .hostWrite _ => c.mfOnly || (c.seqNo.bind (s.ownSeq v)).isNone
  else c.vfOnly

/-- The STATUS of a command with a reserved field set (R378, R419): what is not allowed comes first. Log 91: DEDUCED. -/
def State.reservedStatus (s : State) (fn : Fin 193) (c : HostCmd) : BitVec 8 :=
  match c with
  | .startSequence _ => if fn.val = 192 then 0x81 else if s.forbidden fn c then 0x09 else 0x01
  | .createPartition _ | .destroyPartition _ | .resetVf _ | .resetPartition _ | .resetDie _ | .resetPackage | .s2Write _ | .cool
  | .warmup | .faultinj .. | .peerCircuit _ | .occult .. | .resend _ | .endSequence _ | .replay _ | .tlbInval _ | .unpark _
  | .keyRotate _ | .attest .. | .readCounters _ | .setDumparea .. | .pageReply _ | .hostRead _ | .hostWrite _ | .handled =>
    if s.forbidden fn c then 0x81 else 0x82

/-- A message of a function performed; none while it must wait. A command whose CODE is unknown, or that sets a reserved field,
is refused with its STATUS (R419); PAGE_REPLY has neither. Log 91: DEDUCED. -/
def State.performCmd (s : State) (fn : Fin 193) (h : HostHdr) (c : HostCmd) : Option State :=
  match h.form, h.kind == 1, h.kind == 5 with
  | .unknown, true, _ => s.turnAway fn h 0x80
  | .reserved, _, false => s.turnAway fn h (s.reservedStatus fn c)
  | _, _, _ => s.performPlain fn h c

/-- The message with a number that has arrived and is not performed. -/
def Stream.at_ (x : Stream) (n : Nat) : Option (HostHdr × HostCmd) := (x.ahead.find? fun y => y.1 == n).map (·.2)

/-- PAGE_REPLYs that wait behind a command in progress performed (R418): those with no gap before them. Log 104: DEDUCED. -/
def State.earlyReplies (s : State) (fn : Fin 193) (n : Nat) : Nat → State
  | 0 => s
  | k + 1 => match s.streams[fn].at_ n with
    | none => s
    | some (_, .pageReply b) =>
      let s1 := s.modStream fn fun x =>
        { x with ahead := x.ahead.map fun y => if y.1 = n then (n, y.2.1, HostCmd.handled) else y }
      (s1.pageReply fn b).earlyReplies fn (n + 1) k
    | some _ => s.earlyReplies fn (n + 1) k

/-- The messages of a function performed in order, up to one that is missing, waits or is in progress (R418). Log 104: DEDUCED. -/
def State.drain (s : State) (fn : Fin 193) : Nat → State
  | 0 => s
  | k + 1 =>
    let s1 := s.earlyReplies fn s.streams[fn].expect 33
    let n := s1.streams[fn].expect
    if s1.busy fn then s1
    else match s1.streams[fn].at_ n with
      | none => s1
      | some (h, c) =>
        let s2 := s1.modStream fn fun x => { x with expect := n + 1, ahead := x.ahead.filter fun y => y.1 != n }
        match s2.performCmd fn h c with
        | none => s1
        | some s3 => s3.drain fn k

/-- A datagram that the port drops and counts (R417). Log 91: DEDUCED. -/
def badDatagram (h : HostHdr) (c : HostCmd) : Bool :=
  h.kind != c.kind || h.ver != 1 || (fnOf h.fn).isNone || h.fn != h.owner || !h.lenOk

/-- A message taken into its function's stream (R418): the host's ACK is noted, a duplicate brings its COMPLETION again, one more than
32 ahead is dropped, and the others are performed in order. -/
def State.take (s : State) (fn : Fin 193) (h : HostHdr) (c : HostCmd) : State :=
  let s1 := s.modStream fn fun x => { x with kept := x.kept.filter fun m => h.ack.toNat ≤ m.seqno }
  let x := s1.streams[fn]
  let n := h.seqno.toNat
  if n < x.expect then
    let again := ((x.done.find? fun y => y.1 == n).map (·.2)).getD []
    s1.modStream fn fun y => { y with egress := y.egress ++ again }
  else if x.expect + 32 < n || (x.at_ n).isSome then s1
  else (s1.modStream fn fun y => { y with ahead := y.ahead ++ [(n, h, c)] }).drain fn 34

/-- A datagram at the host port (R417, R418); without supply nobody takes it. -/
def State.hostReceive (s : State) (h : HostHdr) (c : HostCmd) : State :=
  if !s.cold.booted then s
  else if badDatagram h c then { s with drops := s.drops + 1 }
  else match fnOf h.fn with
    | some fn => s.take fn h c
    | none => s

/-! ### The commands as events -/

/-- CREATE_PARTITION (R420). -/
def execCreatePartition (h : HostHdr) (b : CreateBody) (s : State) : Out := .next (s.hostReceive h (.createPartition b))
/-- DESTROY_PARTITION (R419). -/
def execDestroyPartition (h : HostHdr) (p : PartId) (s : State) : Out := .next (s.hostReceive h (.destroyPartition p))
/-- RESET of a VF (R423). -/
def execResetVf (h : HostHdr) (v : Fin 192) (s : State) : Out := .next (s.hostReceive h (.resetVf v))
/-- RESET of a partition (R423). -/
def execResetPartition (h : HostHdr) (p : PartId) (s : State) : Out := .next (s.hostReceive h (.resetPartition p))
/-- RESET of a die (R277, R423). -/
def execResetDie (h : HostHdr) (d : DieId) (s : State) : Out := .next (s.hostReceive h (.resetDie d))
/-- RESET of the package (R423, R431). -/
def execResetPackage (h : HostHdr) (s : State) : Out := .next (s.hostReceive h .resetPackage)
/-- S2_WRITE (R419, R437). -/
def execS2Write (h : HostHdr) (b : S2Body) (s : State) : Out := .next (s.hostReceive h (.s2Write b))
/-- COOL (R283). -/
def execCool (h : HostHdr) (s : State) : Out := .next (s.hostReceive h .cool)
/-- WARMUP (R283, R284). -/
def execWarmup (h : HostHdr) (s : State) : Out := .next (s.hostReceive h .warmup)
/-- FAULTINJ for the host (R229, R419). -/
def execFaultinjCommand (h : HostHdr) (t : TileId) (ga gb : W) (s : State) : Out := .next (s.hostReceive h (.faultinj t ga gb))
/-- PEER_CIRCUIT (R248, R419). -/
def execPeerCircuit (h : HostHdr) (b : PeerBody) (s : State) : Out := .next (s.hostReceive h (.peerCircuit b))
/-- OCCULT (R266, R419). -/
def execOccult (h : HostHdr) (pkg : Fin 4096) (restore : Bool) (s : State) : Out := .next (s.hostReceive h (.occult pkg restore))
/-- RESEND (R418). -/
def execResend (h : HostHdr) (first : W) (s : State) : Out := .next (s.hostReceive h (.resend first))
/-- START_SEQUENCE (R376–R378). -/
def execStartSequence (h : HostHdr) (b : StartBody) (s : State) : Out := .next (s.hostReceive h (.startSequence b))
/-- END_SEQUENCE (R427). -/
def execEndSequence (h : HostHdr) (n : Fin 16) (s : State) : Out := .next (s.hostReceive h (.endSequence n))
/-- REPLAY (R394, R395). -/
def execReplay (h : HostHdr) (b : ReplayBody) (s : State) : Out := .next (s.hostReceive h (.replay b))
/-- TLB_INVAL (R410, R419). -/
def execTlbInval (h : HostHdr) (b : InvalBody) (s : State) : Out := .next (s.hostReceive h (.tlbInval b))
/-- UNPARK (R361, R419). -/
def execUnpark (h : HostHdr) (b : UnparkBody) (s : State) : Out := .next (s.hostReceive h (.unpark b))
/-- KEY_ROTATE (R429). -/
def execKeyRotate (h : HostHdr) (n : Fin 16) (s : State) : Out := .next (s.hostReceive h (.keyRotate n))
/-- ATTEST (R432). -/
def execAttest (h : HostHdr) (nonce : BitVec 256) (n : Fin 16) (s : State) : Out := .next (s.hostReceive h (.attest nonce n))
/-- READ_COUNTERS (R433). -/
def execReadCounters (h : HostHdr) (n : Fin 16) (s : State) : Out := .next (s.hostReceive h (.readCounters n))
/-- SET_DUMPAREA (R434). -/
def execSetDumparea (h : HostHdr) (n : Fin 16) (va : W) (s : State) : Out := .next (s.hostReceive h (.setDumparea n va))
/-- PAGE_REPLY (R414, R415). -/
def execPageReply (h : HostHdr) (b : ReplyBody) (s : State) : Out := .next (s.hostReceive h (.pageReply b))
/-- HOST_READ (R424). -/
def execHostRead (h : HostHdr) (b : HostAccess) (s : State) : Out := .next (s.hostReceive h (.hostRead b))
/-- HOST_WRITE (R424). -/
def execHostWrite (h : HostHdr) (b : HostAccess) (s : State) : Out := .next (s.hostReceive h (.hostWrite b))

end Sys2Proof.Machine
end

