-- ==== Sys2Proof/Machine/SchedEvents.lean ====
section
/-! DEFINITION. The scheduler's events as steps of their own (spec/10 R214, spec/16 R300, spec/22 R357, R368, spec/23 R381–R385,
R391). -/

namespace Sys2Proof.Machine

/-- SCOREBOARD_SWITCH. -/
def execScoreboardSwitch (t : TileId) (s : State) : Out := .next (s.scoreboardSwitch wordExec t)
/-- QUANTUM_EXPIRY. -/
def execQuantumExpiry (t : TileId) (s : State) : Out := .next (s.quantumExpiry wordExec t)
/-- AGING. -/
def execAging (t : TileId) (s : State) : Out := .next (s.aging wordExec t)
/-- PREEMPT_LIMIT. -/
def execPreemptLimit (t : TileId) (s : State) : Out := .next (s.preemptLimit t)
/-- THREAD_RESTORE_END. -/
def execThreadRestoreEnd (t : TileId) (k : StrandId) (s : State) : Out := .next (s.restoreEnd t k)
/-- RUNAWAY. -/
def execRunaway (t : TileId) (s : State) : Out := .next (s.runaway t)
/-- BORROW_START. -/
def execBorrowStart (t : TileId) (s : State) : Out := .next (s.borrowStart t)
/-- POOL_REFILL. -/
def execPoolRefill (t : TileId) (q : SeqId) (page : Page) (s : State) : Out := .next (s.poolRefill t q page)
/-- PARALLAX_RETRY. -/
def execParallaxRetry (t : TileId) (s : State) : Out := .next (s.parallaxRetry wordExec t)

end Sys2Proof.Machine
end

