-- ==== Sys2Proof/Machine/Agenda.lean ====
section
/-! DEFINITION. Which agent of the package moves next (MODEL, notes/assumptions/13.md), and the placing of an instruction where
the next step fetches. -/

namespace Sys2Proof.Machine

/-! ### What is under way outside the cores -/

/-- Something under way outside the cores. -/
inductive Task
  | relay (n : Nat)
  | divide (t : TileId)
  | matrix (t : TileId)
  | clear (t : TileId)
  | walk (t : TileId)
  | spawn (t : TileId)
  | retry (t : TileId)
  | restore (t : TileId) (k : StrandId)
  | channel (t : TileId) (c : ChanId)
  | poll (t : TileId) (c : ChanId)
  | meridian (d : DieId)
  | event (d : DieId)
  | wheel
  | transfer (n : Nat)
  | job (n : Nat)
  | host (fn : Fin 193)
  | sweep (d : DieId) (q : SeqId)
  | dieReset (d : DieId)
  | transplant (d : DieId)
  | clock
  | retrain (k : StackId)
  | copied (k : StackId) (c : Nat)
  deriving DecidableEq, Repr

/-- What is under way in a tile. -/
def State.tileTasks (s : State) (t : TileId) : List Task :=
  let x := s.tiles[t]
  let one (b : Bool) (i : Task) : List Task := if b then [i] else []
  one x.core.divider.isSome (.divide t) ++ one (!x.matrix.queue.isEmpty) (.matrix t) ++
    one x.matrix.clearing (.clear t) ++ one (!x.walks.isEmpty) (.walk t) ++
    one (!x.core.sched.held.isEmpty) (.spawn t) ++ one x.core.hold (.retry t) ++
    (match x.core.loading with
     | some (k, _) => [.restore t k]
     | none => []) ++
    (List.finRange 4).flatMap fun c => one (x.chans[c].state == ChanState.run) (.channel t c) ++
      one (x.chans[c].state == ChanState.waitOwn) (.poll t c)

/-- What is under way on a die. -/
def State.dieTasks (s : State) (d : DieId) : List Task :=
  let x := s.dies[d]
  let one (b : Bool) (i : Task) : List Task := if b then [i] else []
  one (!x.meridian.isEmpty) (.meridian d) ++ one (!x.events.isEmpty || !x.dropped.isEmpty) (.event d) ++
    one x.stopping.isSome (.dieReset d) ++ one x.transplant.isSome (.transplant d)

/-- What is under way at a stack. -/
def State.stackTasks (s : State) (k : StackId) : List Task :=
  (if s.hbmStacks[k].retraining then [.retrain k] else []) ++ s.hbmStacks[k].copying.map fun c => .copied k c

/-- The Transit sweep of a sequence (R429). -/
def State.sweepTasks (s : State) (q : SeqId) : List Task :=
  match s.seqs[q] with
  | some x => (x.sweepLeft.filter fun y => !y.2.isEmpty).map fun y => .sweep y.1 q
  | none => []

/-! ### What is due at a SIDCOUNT

Words leave and land, tables are written and circuits close in slots of their own (R232, R234, R245, R246, R254): SIDCOUNT does not
pass one of them before it has happened. -/

/-- What happens at a SIDCOUNT. -/
inductive Due
  | inject (h : BitVec 32)
  | land (h : BitVec 32)
  | close (h : BitVec 32)
  | config (n : Nat)
  | tables
  deriving DecidableEq, Repr

/-- What is due on a circuit. -/
def State.circuitDues (s : State) (c : Circuit) : List (Nat × Due) :=
  ((s.departs c).toList.map fun t => (t, .inject c.handle)) ++ (c.wire.head?.toList.map fun x => (x.lands, .land c.handle)) ++
    (if c.closing && c.queue.isEmpty && c.wire.isEmpty then [(c.closeTime, .close c.handle)] else [])

/-- Everything that is due, each with its SIDCOUNT. -/
def State.dues (s : State) : List (Nat × Due) :=
  s.config.zipIdx.map (fun (w, n) => (w.next, .config n)) ++ s.pending.map (fun w => (w.at_, .tables)) ++
    s.circuits.flatMap s.circuitDues

/-- The earliest of a list. -/
def earliest : List (Nat × Due) → Option (Nat × Due)
  | [] => none
  | x :: l => match earliest l with
    | none => some x
    | some y => some (if x.1 ≤ y.1 then x else y)

/-- What is due next. -/
def State.nextDue (s : State) : Option (Nat × Due) := earliest s.dues

/-- Everything under way outside the cores. -/
def State.underWay (s : State) : List Task :=
  s.relay.zipIdx.map (fun (_, n) => .relay n) ++ (List.finRange 1024).flatMap s.tileTasks ++
    (List.finRange 4).flatMap s.dieTasks ++ (if s.nextDue.isSome then [.wheel] else []) ++
    s.transfers.zipIdx.map (fun (_, n) => .transfer n) ++ s.hostJobs.zipIdx.map (fun (_, n) => .job n) ++
    ((List.finRange 193).filter fun fn => !s.streams[fn].ahead.isEmpty).map .host ++ (List.finRange 256).flatMap s.sweepTasks ++
    (List.finRange 12).flatMap s.stackTasks ++ if s.cold.changing.isSome || s.domain.joining.isSome then [.clock] else []

/-- The delivery of a relay message. -/
def State.deliverAny (s : State) (n : Nat) : Out :=
  match s.relay[n]? with
  | none => .next s
  | some m => match m.body with
    | .read _ => execReadreq n s
    | .readRsp .. => execReadrsp n s
    | .write .. => execWrite n s
    | .amo .. => execAmoreq n s
    | .amoRsp .. => execAmorsp n s
    | .pair .. => execPairpush n s
    | .netop .. => execNetop n s
    | .netrsp .. => execNetrsp n s
    | .borrow => execBorrow n s
    | .msg .. => execMsg n s
    | .creditWords .. | .creditSeq _ => execCredit n s
    | .ack _ => execAck n s
    | .recall _ => execRecall n s
    | .slice .. => execSliceArrival n s

/-- The Meridian's next request performed. -/
def State.meridianTask (s : State) (d : DieId) : Out :=
  match s.meridianHead d with
  | none => .next s
  | some m => match m.req with
    | .open_ _ => execCirqRequest d s
    | .resize .. => execCirzRequest d s
    | .close _ => execCirxRequest d s

/-- The next word of a circuit lands. -/
def State.landTask (s : State) (h : BitVec 32) : Out :=
  match s.circuits.find? fun c => c.handle == h with
  | none => .next s
  | some c => if c.latch then execLatchEntryLand h s else execCircuitWordLand h s

/-- A memory transfer's next move (R273). -/
def State.transferTask (s : State) (n : Nat) : Out :=
  match s.transfers[n]? with
  | none => .next s
  | some m => match m.op, m.queued with
    | .read, false => execMemoryRead n s
    | .write, false => execMemoryWrite n s
    | .read, true | .write, true => execPortService (portOf m.pa) (partOf m.seq) (chanOf m.pa) s
    | .rdata, _ => execRdata n s
    | .wack, _ => execWack n s
    | .nack, _ => execNack n s
    | .bypass _, _ => execBypass n s

/-- A host access goes on. -/
def State.jobTask (s : State) (n : Nat) : Out :=
  match s.hostJobs[n]? with
  | none => .next s
  | some j => .next (s.runJob j j.left)

/-- What is due performed: the event of the opcode table that it is. -/
def State.doDue (s : State) (x : Due) : Out :=
  match x with
  | .inject h => execCircuitWordInject h s
  | .land h => s.landTask h
  | .close h => execCircuitCloseEnd h s
  | .config n => execConfigWord n s
  | .tables => execSlotTableActivation s

/-- The end of a die's reset, or its limit. -/
def State.resetTask (s : State) (d : DieId) : Out := if s.resetOver d then execDieResetTimeout d s else execDieResetEnd d s

/-- A task performed: the event of the opcode table that it is. -/
def State.doTask (s : State) (x : Task) : Out :=
  match x with
  | .relay n => s.deliverAny n
  | .divide t => execDivideComplete t s
  | .matrix t => execMatrixWordComplete t (s.matrixNext t) s
  | .clear t => execMatrixClearEnd t s
  | .walk t => execTranslationWalk t 0 s
  | .spawn t => execHeldSpawnStart t s
  | .retry t => execParallaxRetry t s
  | .restore t k => execThreadRestoreEnd t k s
  | .channel t c => execTransferRecord t c s
  | .poll t c => execChainOwnPoll t c s
  | .meridian d => s.meridianTask d
  | .event d => execEventSend d s
  | .wheel => match s.nextDue with
    | some y => s.doDue y.2
    | none => .next s
  | .transfer n => s.transferTask n
  | .job n => s.jobTask n
  | .host fn => .next (s.drain fn 34)
  | .sweep d q => execTransitSweepUnit d q s
  | .dieReset d => s.resetTask d
  | .transplant d => execTileTransplantEnd d s
  | .clock => execSlotClockChange s
  | .retrain k => execHbmRetrainEnd k s
  | .copied k c => if h : c < 384 then execPseudoChannelCopyEnd k ⟨c, h⟩ s else .next s

/-- The task that is taken when the agenda is empty and SIDCOUNT is odd: what is under way, in turn. -/
def State.background (s : State) : Option Task :=
  let l := if s.cold.supply then s.underWay else []
  l[s.domain.sid / 2 % l.length]?

/-- A step of an agent, unless SIDCOUNT would pass what is due: that happens first. -/
def State.inTime (s : State) (o : Out) : Out :=
  match o, s.nextDue with
  | .next u, some (t, x) => if t < u.domain.sid then s.doDue x else .next u
  | _, _ => o

/-- SIDCOUNT steps. -/
def State.tick (s : State) : State := { s with domain := { s.domain with sid := s.domain.sid + 1 } }

/-! ### An instruction placed -/

/-- The virtual page of an address. -/
def pageOf (va : W) : Nat := va.toNat / 4096

/-- The fetch-TLB entry that maps the page of an address to the first page of HBM, with every permission. -/
def fetchEntry (q : SeqId) (va : W) : TlbEntry :=
  { seq := q, page := pageOf va, size := 0, window := none, frame := 0, perm1 := 7, perm2 := 7, pin := some 0,
    ipa := 0, slot := 0 }

/-- A sequence with nothing but its VF, key slot 0 on die 0 and tile 0. -/
def Sequence.bare : Sequence :=
  let counts : Counts := { rewrites := 0, allocs := 0, frees := 0, stale := 0, discards := 0, drops := 0, doublefree := 0,
                           cuts := 0, loose := 0, rulemiss := 0, bundles := 0, mmas := 0, linesRead := 0, linesWritten := 0,
                           circuitWords := 0, pageRequests := 0 }
  { vf := 0, launched := 0, s1root := 0, tilebase := 0,
    image := { textva := 0, textlen := 0, datava := 0, datalen := 0, almva := 0, threads := [], safes := [], agents := [],
               rwchk := 0, rwfp := 0 },
    slots := #v[some 0, none, none, none], nodesLeft := 0, frames := 1, rtiles := [], taPanes := 0, frameAt := [],
    iface := Vector.replicate 4 .none, counts := counts, window := counts, windowBase := counts, windowEnd := 0,
    lastActivity := [], quiet := false, runs := [], lastRun := 0, dump := none, rotate := none, sweepDone := 0,
    sweepLeft := [], skipped := 0 }

/-- A partition of block 0 with a budget on stack 0. -/
def Partition.bare : Partition :=
  { blocks := 1, vfs := 1, linkbud := 0, s2root := 0, membud := (Vector.replicate 12 0).set 0 1, mslots := 1, made := 0,
    anchors := [] }

/-- The thread of an instruction placed, on strand 0. -/
def Thread.bare : Thread :=
  { owner := 1, seq := 0, entryIx := 0, state := .resident 0, pri := 0, ready := 0, saved := Ctx.zero,
    frame := { va := 0, pa := 0 }, mapped := false, accs := false }

/-- Strand 0 at a boundary, with a thread of sequence 0. -/
def Strand.bare (x : Strand) : Strand :=
  let c := x.ctx
  { Strand.zero with work := .thread 0, owner := 1, pri := x.pri,
                     ctx := { c with due := [], inflight := [], pends := [], sleeping := false, halting := false,
                                     parked := false, replay := none, replayAside := none, tail := none, loops := [], mode := c.mode &&& 0xFFFFFFFFFFFFFFFE } }

/-- The core of tile 0 with strand 0 in front. -/
def Core.bare (c : Core) : Core :=
  { c with strands := (Vector.replicate 8 Strand.zero).set 0 c.strands[0].bare, fg := some 0, loading := none, fenced := false,
           resched := false, hold := false, retry := 0, released := [], retryRegs := none, icache := [],
           threads := c.threads.set 0 (some Thread.bare) }

/-- A word stored where the next step fetches its instruction: the package is in COLD, a thread of sequence 0 of partition 0 is in
front on tile 0, the page of its next bundle is mapped to the first page of HBM, and the bundle's line stands in the instruction cache;
nothing is due on the wheel (notes/assumptions/43.md). Log 43: DESIGN CHOICE. -/
def State.placeWord (s : State) (w : Nat) : State :=
  let tile (x : Tile) : Tile :=
    let core := x.core.bare
    { x with core := core, part := some 0, inReset := false, tlbFetch := [fetchEntry 0 core.strands[0].ctx.pc] }
  let key : KeySlot := { KeySlot.zero with state := .live, key0 := 1 }
  let die (x : Die) : Die := { x with fenced := false, inReset := false, keys := x.keys.set 0 key }
  let pc := (tile s.tiles[0]).core.strands[0].ctx.pc
  let s1 := { s with cold := { s.cold with state := .cold, supply := true }, seqs := s.seqs.set 0 (some Sequence.bare),
                     parts := s.parts.set 0 (some Partition.bare), agenda := [], cur := 0, fresh := s.fresh + 2,
                     circuits := [], pending := [], config := [],
                     domain := { s.domain with sid := s.domain.sid + s.domain.sid % 2 } }
  let s2 := ((s1.modTile 0 tile).modDie 0 die).setBytes ⟨1, 0, 1⟩ (pc.toNat % 4096) (leBytes 4 w)
  s2.modCore 0 fun c => { c with icache := [s2.memLine (.seq 0) (.hbm (pc.toNat % 4096) 0) 0 pc] }

end Sys2Proof.Machine
end

