-- ==== Sys2Proof/Machine/Dispatch.lean ====
section
/-! DEFINITION. One arm per instruction: a direct call of its meaning. -/

namespace Sys2Proof.Machine

/-- The meaning of an instruction. Log 8: DESIGN CHOICE. -/
def exec (i : Instr) (s : State) : Host.Outcome State Fault Refusal :=
  match i with
  | .add d a b => Sys2Proof.Machine.execAdd d a b s
  | .sub d a b => Sys2Proof.Machine.execSub d a b s
  | .and d a b => Sys2Proof.Machine.execAnd d a b s
  | .or d a b => Sys2Proof.Machine.execOr d a b s
  | .xor d a b => Sys2Proof.Machine.execXor d a b s
  | .andn d a b => Sys2Proof.Machine.execAndn d a b s
  | .orn d a b => Sys2Proof.Machine.execOrn d a b s
  | .shl d a b => Sys2Proof.Machine.execShl d a b s
  | .shr d a b => Sys2Proof.Machine.execShr d a b s
  | .sha d a b => Sys2Proof.Machine.execSha d a b s
  | .rol d a b => Sys2Proof.Machine.execRol d a b s
  | .slt d a b => Sys2Proof.Machine.execSlt d a b s
  | .sltn d a b => Sys2Proof.Machine.execSltn d a b s
  | .seq d a b => Sys2Proof.Machine.execSeq d a b s
  | .sne d a b => Sys2Proof.Machine.execSne d a b s
  | .min d a b => Sys2Proof.Machine.execMin d a b s
  | .max d a b => Sys2Proof.Machine.execMax d a b s
  | .minn d a b => Sys2Proof.Machine.execMinn d a b s
  | .maxn d a b => Sys2Proof.Machine.execMaxn d a b s
  | .csel d a b => Sys2Proof.Machine.execCsel d a b s
  | .extr d a b => Sys2Proof.Machine.execExtr d a b s
  | .insr d a b => Sys2Proof.Machine.execInsr d a b s
  | .lea d a b => Sys2Proof.Machine.execLea d a b s
  | .clz d a => Sys2Proof.Machine.execClz d a s
  | .ctz d a => Sys2Proof.Machine.execCtz d a s
  | .popc d a => Sys2Proof.Machine.execPopc d a s
  | .brev d a => Sys2Proof.Machine.execBrev d a s
  | .addi d a im => Sys2Proof.Machine.execAddi d a im s
  | .andi d a im => Sys2Proof.Machine.execAndi d a im s
  | .ori d a im => Sys2Proof.Machine.execOri d a im s
  | .xori d a im => Sys2Proof.Machine.execXori d a im s
  | .shli d a im => Sys2Proof.Machine.execShli d a im s
  | .shri d a im => Sys2Proof.Machine.execShri d a im s
  | .shai d a im => Sys2Proof.Machine.execShai d a im s
  | .slti d a im => Sys2Proof.Machine.execSlti d a im s
  | .sltni d a im => Sys2Proof.Machine.execSltni d a im s
  | .seqi d a im => Sys2Proof.Machine.execSeqi d a im s
  | .limm d im => Sys2Proof.Machine.execLimm d im s
  | .addpc d im => Sys2Proof.Machine.execAddpc d im s
  | .mul d a b => Sys2Proof.Machine.execMul d a b s
  | .mulh d a b => Sys2Proof.Machine.execMulh d a b s
  | .mulhn d a b => Sys2Proof.Machine.execMulhn d a b s
  | .div d a b => Sys2Proof.Machine.execDiv d a b s
  | .divn d a b => Sys2Proof.Machine.execDivn d a b s
  | .rem d a b => Sys2Proof.Machine.execRem d a b s
  | .remn d a b => Sys2Proof.Machine.execRemn d a b s
  | .beq a b o => Sys2Proof.Machine.execBeq a b o s
  | .bne a b o => Sys2Proof.Machine.execBne a b o s
  | .blt a b o => Sys2Proof.Machine.execBlt a b o s
  | .bge a b o => Sys2Proof.Machine.execBge a b o s
  | .bltn a b o => Sys2Proof.Machine.execBltn a b o s
  | .bgen a b o => Sys2Proof.Machine.execBgen a b o s
  | .bz a o => Sys2Proof.Machine.execBz a o s
  | .bnz a o => Sys2Proof.Machine.execBnz a o s
  | .jmp o => Sys2Proof.Machine.execJmp o s
  | .call o => Sys2Proof.Machine.execCall o s
  | .nop => Sys2Proof.Machine.execNop s
  | .jr a => Sys2Proof.Machine.execJr a s
  | .callr d a => Sys2Proof.Machine.execCallr d a s
  | .loop l a => Sys2Proof.Machine.execLoop l a s
  | .loopi l c => Sys2Proof.Machine.execLoopi l c s
  | .trap c => Sys2Proof.Machine.execTrap c s
  | .eret => Sys2Proof.Machine.execEret s
  | .wfe => Sys2Proof.Machine.execWfe s
  | .yield => Sys2Proof.Machine.execYield s
  | .safe => Sys2Proof.Machine.execSafe s
  | .halt => Sys2Proof.Machine.execHalt s
  | .bkpt => Sys2Proof.Machine.execBkpt s
  | .tlbi a b => Sys2Proof.Machine.execTlbi a b s
  | .keyop d a b => Sys2Proof.Machine.execKeyop d a b s
  | .faultinj a b => Sys2Proof.Machine.execFaultinj a b s
  | .crr d c => Sys2Proof.Machine.execCrr d c s
  | .crw a c => Sys2Proof.Machine.execCrw a c s
  | .crx d a c => Sys2Proof.Machine.execCrx d a c s
  | .ld d a t im => Sys2Proof.Machine.execLd d a t im s
  | .st sr a t im => Sys2Proof.Machine.execSt sr a t im s
  | .lda d a t => Sys2Proof.Machine.execLda d a t s
  | .str a sr t => Sys2Proof.Machine.execStr a sr t s
  | .pref a => Sys2Proof.Machine.execPref a s
  | .fence sr => Sys2Proof.Machine.execFence sr s
  | .fenceI => Sys2Proof.Machine.execFenceI s
  | .amoaddI64 d a b o => Sys2Proof.Machine.execAmoaddI64 d a b o s
  | .amoand d a b o => Sys2Proof.Machine.execAmoand d a b o s
  | .amoor d a b o => Sys2Proof.Machine.execAmoor d a b o s
  | .amoxor d a b o => Sys2Proof.Machine.execAmoxor d a b o s
  | .amomin d a b o => Sys2Proof.Machine.execAmomin d a b o s
  | .amomax d a b o => Sys2Proof.Machine.execAmomax d a b o s
  | .amominn d a b o => Sys2Proof.Machine.execAmominn d a b o s
  | .amomaxn d a b o => Sys2Proof.Machine.execAmomaxn d a b o s
  | .amoswapI64 d a b o => Sys2Proof.Machine.execAmoswapI64 d a b o s
  | .casI64 d a b o => Sys2Proof.Machine.execCasI64 d a b o s
  | .amoaddI32 d a b o => Sys2Proof.Machine.execAmoaddI32 d a b o s
  | .amoswapI32 d a b o => Sys2Proof.Machine.execAmoswapI32 d a b o s
  | .casI32 d a b o => Sys2Proof.Machine.execCasI32 d a b o s
  | .amofadd d a b o => Sys2Proof.Machine.execAmofadd d a b o s
  | .pgive a => Sys2Proof.Machine.execPgive a s
  | .ptake a => Sys2Proof.Machine.execPtake a s
  | .pstat d a => Sys2Proof.Machine.execPstat d a s
  | .binit a b => Sys2Proof.Machine.execBinit a b s
  | .barrive d a => Sys2Proof.Machine.execBarrive d a s
  | .bexpect a b => Sys2Proof.Machine.execBexpect a b s
  | .bwait a b => Sys2Proof.Machine.execBwait a b s
  | .btry d a b => Sys2Proof.Machine.execBtry d a b s
  | .vld v a k z => Sys2Proof.Machine.execVld v a k z s
  | .vst v a k z => Sys2Proof.Machine.execVst v a k z s
  | .vldm v a => Sys2Proof.Machine.execVldm v a s
  | .vstm v a => Sys2Proof.Machine.execVstm v a s
  | .vlds v a b k z => Sys2Proof.Machine.execVlds v a b k z s
  | .vsts v a b k z => Sys2Proof.Machine.execVsts v a b k z s
  | .vldb v a k z => Sys2Proof.Machine.execVldb v a k z s
  | .vgath v a x k z => Sys2Proof.Machine.execVgath v a x k z s
  | .vscat v a x k z => Sys2Proof.Machine.execVscat v a x k z s
  | .vamo v a x k t => Sys2Proof.Machine.execVamo v a x k t s
  | .vadd d a b k z => Sys2Proof.Machine.execVadd d a b k z s
  | .vsub d a b k z => Sys2Proof.Machine.execVsub d a b k z s
  | .vmul d a b k z => Sys2Proof.Machine.execVmul d a b k z s
  | .vmulh d a b k z => Sys2Proof.Machine.execVmulh d a b k z s
  | .vmin d a b k z => Sys2Proof.Machine.execVmin d a b k z s
  | .vmax d a b k z => Sys2Proof.Machine.execVmax d a b k z s
  | .vminn d a b k z => Sys2Proof.Machine.execVminn d a b k z s
  | .vmaxn d a b k z => Sys2Proof.Machine.execVmaxn d a b k z s
  | .vshl d a b k z => Sys2Proof.Machine.execVshl d a b k z s
  | .vshr d a b k z => Sys2Proof.Machine.execVshr d a b k z s
  | .vsha d a b k z => Sys2Proof.Machine.execVsha d a b k z s
  | .vabs d a k z => Sys2Proof.Machine.execVabs d a k z s
  | .vneg d a k z => Sys2Proof.Machine.execVneg d a k z s
  | .vsat d a b k z => Sys2Proof.Machine.execVsat d a b k z s
  | .vclz d a k z => Sys2Proof.Machine.execVclz d a k z s
  | .vpopc d a k z => Sys2Proof.Machine.execVpopc d a k z s
  | .vand d a b k z => Sys2Proof.Machine.execVand d a b k z s
  | .vor d a b k z => Sys2Proof.Machine.execVor d a b k z s
  | .vxor d a b k z => Sys2Proof.Machine.execVxor d a b k z s
  | .vandn d a b k z => Sys2Proof.Machine.execVandn d a b k z s
  | .vfadd d a b k t => Sys2Proof.Machine.execVfadd d a b k t s
  | .vfsub d a b k t => Sys2Proof.Machine.execVfsub d a b k t s
  | .vfmul d a b k t => Sys2Proof.Machine.execVfmul d a b k t s
  | .vfmin d a b k t => Sys2Proof.Machine.execVfmin d a b k t s
  | .vfmax d a b k t => Sys2Proof.Machine.execVfmax d a b k t s
  | .vfabs d a k t => Sys2Proof.Machine.execVfabs d a k t s
  | .vfneg d a k t => Sys2Proof.Machine.execVfneg d a k t s
  | .vfrnd d a k t => Sys2Proof.Machine.execVfrnd d a k t s
  | .vfclass d a k t => Sys2Proof.Machine.execVfclass d a k t s
  | .vfrcp d a k => Sys2Proof.Machine.execVfrcp d a k s
  | .vfrsq d a k => Sys2Proof.Machine.execVfrsq d a k s
  | .vfexp2 d a k => Sys2Proof.Machine.execVfexp2 d a k s
  | .vflog2 d a k => Sys2Proof.Machine.execVflog2 d a k s
  | .vfma d a b k t => Sys2Proof.Machine.execVfma d a b k t s
  | .vfms d a b k t => Sys2Proof.Machine.execVfms d a b k t s
  | .vfnma d a b k t => Sys2Proof.Machine.execVfnma d a b k t s
  | .vcvt d a p k r => Sys2Proof.Machine.execVcvt d a p k r s
  | .vpack d a sr r => Sys2Proof.Machine.execVpack d a sr r s
  | .vunpk d a sr k => Sys2Proof.Machine.execVunpk d a sr k s
  | .vnarrow d a sr k => Sys2Proof.Machine.execVnarrow d a sr k s
  | .vwiden d a sr k => Sys2Proof.Machine.execVwiden d a sr k s
  | .vperm d a b k z => Sys2Proof.Machine.execVperm d a b k z s
  | .vslide d a g k z => Sys2Proof.Machine.execVslide d a g k z s
  | .vtrn d a b k z => Sys2Proof.Machine.execVtrn d a b k z s
  | .vcompr d a k z => Sys2Proof.Machine.execVcompr d a k z s
  | .vexpd d a k z => Sys2Proof.Machine.execVexpd d a k z s
  | .vredInt d a sr k z => Sys2Proof.Machine.execVredInt d a sr k z s
  | .vredFp d a sr k t => Sys2Proof.Machine.execVredFp d a sr k t s
  | .vscanInt d a sr k z => Sys2Proof.Machine.execVscanInt d a sr k z s
  | .vscanFp d a sr k t => Sys2Proof.Machine.execVscanFp d a sr k t s
  | .vrord sr g h k => Sys2Proof.Machine.execVrord sr g h k s
  | .kand d a b => Sys2Proof.Machine.execKand d a b s
  | .kor d a b => Sys2Proof.Machine.execKor d a b s
  | .kxor d a b => Sys2Proof.Machine.execKxor d a b s
  | .knot d a => Sys2Proof.Machine.execKnot d a s
  | .kmov d a => Sys2Proof.Machine.execKmov d a s
  | .kpopc d a => Sys2Proof.Machine.execKpopc d a s
  | .kfirst d a => Sys2Proof.Machine.execKfirst d a s
  | .kset d a => Sys2Proof.Machine.execKset d a s
  | .vsel d a b k z => Sys2Proof.Machine.execVsel d a b k z s
  | .vbcast d g k z => Sys2Proof.Machine.execVbcast d g k z s
  | .vext g a h z => Sys2Proof.Machine.execVext g a h z s
  | .vins d g h z => Sys2Proof.Machine.execVins d g h z s
  | .vcmp d a b k c z => Sys2Proof.Machine.execVcmp d a b k c z s
  | .vfcmp d a b k c t => Sys2Proof.Machine.execVfcmp d a b k c t s
  | .mma a b c k => Sys2Proof.Machine.execMma a b c k s
  | .mmaRing a c k => Sys2Proof.Machine.execMmaRing a c k s
  | .mmat a b c k => Sys2Proof.Machine.execMmat a b c k s
  | .mmatRing a c k => Sys2Proof.Machine.execMmatRing a c k s
  | .mclaim => Sys2Proof.Machine.execMclaim s
  | .mrel => Sys2Proof.Machine.execMrel s
  | .mzero c => Sys2Proof.Machine.execMzero c s
  | .mswap c => Sys2Proof.Machine.execMswap c s
  | .mldacc a c => Sys2Proof.Machine.execMldacc a c s
  | .mstacc a c => Sys2Proof.Machine.execMstacc a c s
  | .mringSend a h => Sys2Proof.Machine.execMringSend a h s
  | .mringSendPop a h => Sys2Proof.Machine.execMringSendPop a h s
  | .mringLatch h => Sys2Proof.Machine.execMringLatch h s
  | .mringLatchPop h => Sys2Proof.Machine.execMringLatchPop h s
  | .mringPop => Sys2Proof.Machine.execMringPop s
  | .mchk a d c => Sys2Proof.Machine.execMchk a d c s
  | .mfix a b c => Sys2Proof.Machine.execMfix a b c s
  | .mstat d => Sys2Proof.Machine.execMstat d s
  | .mwait => Sys2Proof.Machine.execMwait s
  | .cpy a b l c => Sys2Proof.Machine.execCpy a b l c s
  | .cpys a b x c => Sys2Proof.Machine.execCpys a b x c s
  | .cgath a b c => Sys2Proof.Machine.execCgath a b c s
  | .cscat a b c => Sys2Proof.Machine.execCscat a b c s
  | .chain a c => Sys2Proof.Machine.execChain a c s
  | .cseal d => Sys2Proof.Machine.execCseal d s
  | .cwait n => Sys2Proof.Machine.execCwait n s
  | .cstat d sr c => Sys2Proof.Machine.execCstat d sr c s
  | .ccancel c => Sys2Proof.Machine.execCcancel c s
  | .cirq a b => Sys2Proof.Machine.execCirq a b s
  | .cirz a h n => Sys2Proof.Machine.execCirz a h n s
  | .cirx a h => Sys2Proof.Machine.execCirx a h s
  | .csend h v m => Sys2Proof.Machine.execCsend h v m s
  | .crecv h v m => Sys2Proof.Machine.execCrecv h v m s
  | .msend a v l => Sys2Proof.Machine.execMsend a v l s
  | .mrecv d v => Sys2Proof.Machine.execMrecv d v s
  | .mpoll d => Sys2Proof.Machine.execMpoll d s
  | .nalloc d h => Sys2Proof.Machine.execNalloc d h s
  | .nfree n => Sys2Proof.Machine.execNfree n s
  | .nlink n m r q p => Sys2Proof.Machine.execNlink n m r q p s
  | .npush n m r => Sys2Proof.Machine.execNpush n m r s
  | .nport d n h p => Sys2Proof.Machine.execNport d n h p s
  | .rcommit => Sys2Proof.Machine.execRcommit s
  | .rabort x => Sys2Proof.Machine.execRabort x s
  | .spawn im x => Sys2Proof.Machine.execSpawn im x s
  | .lfsrseedWrite t k v => Sys2Proof.Machine.execLfsrseedWrite t k v s
  | .trapvecWrite t k v => Sys2Proof.Machine.execTrapvecWrite t k v s
  | .placemaskWrite t k v => Sys2Proof.Machine.execPlacemaskWrite t k v s
  | .faultinjDisarm t k v => Sys2Proof.Machine.execFaultinjDisarm t k v s
  | .controlRegisterWrite t k n v => Sys2Proof.Machine.execControlRegisterWrite t k n v s
  | .keyopGen d slot part seq => Sys2Proof.Machine.execKeyopGen d slot part seq s
  | .keyopZero d slot => Sys2Proof.Machine.execKeyopZero d slot s
  | .keyopRotate d slot => Sys2Proof.Machine.execKeyopRotate d slot s
  | .keyopRetire d slot => Sys2Proof.Machine.execKeyopRetire d slot s
  | .keyopStat d slot => Sys2Proof.Machine.execKeyopStat d slot s
  | .tlbiKeySlot t scope tlbs slot => Sys2Proof.Machine.execTlbiKeySlot t scope tlbs slot s
  | .tlbiPage t scope tlbs part seq size va => Sys2Proof.Machine.execTlbiPage t scope tlbs part seq size va s
  | .tlbiSequence t scope tlbs part seq => Sys2Proof.Machine.execTlbiSequence t scope tlbs part seq s
  | .tlbiStage2Page t scope tlbs part size ipa => Sys2Proof.Machine.execTlbiStage2Page t scope tlbs part size ipa s
  | .tlbiPartition t scope tlbs part => Sys2Proof.Machine.execTlbiPartition t scope tlbs part s
  | .tlbiAll t scope tlbs => Sys2Proof.Machine.execTlbiAll t scope tlbs s
  | .parallaxRetry t => Sys2Proof.Machine.execParallaxRetry t s
  | .divideComplete t => Sys2Proof.Machine.execDivideComplete t s
  | .matrixWordComplete t n => Sys2Proof.Machine.execMatrixWordComplete t n s
  | .matrixClearEnd t => Sys2Proof.Machine.execMatrixClearEnd t s
  | .transferRecord t c => Sys2Proof.Machine.execTransferRecord t c s
  | .chainOwnPoll t c => Sys2Proof.Machine.execChainOwnPoll t c s
  | .cirqRequest d => Sys2Proof.Machine.execCirqRequest d s
  | .cirzRequest d => Sys2Proof.Machine.execCirzRequest d s
  | .cirxRequest d => Sys2Proof.Machine.execCirxRequest d s
  | .circuitCloseEnd h => Sys2Proof.Machine.execCircuitCloseEnd h s
  | .configWord n => Sys2Proof.Machine.execConfigWord n s
  | .slotTableActivation => Sys2Proof.Machine.execSlotTableActivation s
  | .circuitWordInject h => Sys2Proof.Machine.execCircuitWordInject h s
  | .circuitWordLand h => Sys2Proof.Machine.execCircuitWordLand h s
  | .latchEntryLand h => Sys2Proof.Machine.execLatchEntryLand h s
  | .readreq n => Sys2Proof.Machine.execReadreq n s
  | .readrsp n => Sys2Proof.Machine.execReadrsp n s
  | .write n => Sys2Proof.Machine.execWrite n s
  | .amoreq n => Sys2Proof.Machine.execAmoreq n s
  | .amorsp n => Sys2Proof.Machine.execAmorsp n s
  | .pairpush n => Sys2Proof.Machine.execPairpush n s
  | .netop n => Sys2Proof.Machine.execNetop n s
  | .netrsp n => Sys2Proof.Machine.execNetrsp n s
  | .borrow n => Sys2Proof.Machine.execBorrow n s
  | .msg n => Sys2Proof.Machine.execMsg n s
  | .credit n => Sys2Proof.Machine.execCredit n s
  | .ack n => Sys2Proof.Machine.execAck n s
  | .recall n => Sys2Proof.Machine.execRecall n s
  | .relayResend n => Sys2Proof.Machine.execRelayResend n s
  | .ackForced n => Sys2Proof.Machine.execAckForced n s
  | .sliceArrival n => Sys2Proof.Machine.execSliceArrival n s
  | .memoryRead n => Sys2Proof.Machine.execMemoryRead n s
  | .memoryWrite n => Sys2Proof.Machine.execMemoryWrite n s
  | .portService port part chan => Sys2Proof.Machine.execPortService port part chan s
  | .rdata n => Sys2Proof.Machine.execRdata n s
  | .wack n => Sys2Proof.Machine.execWack n s
  | .nack n => Sys2Proof.Machine.execNack n s
  | .bypass n => Sys2Proof.Machine.execBypass n s
  | .translationWalk t n => Sys2Proof.Machine.execTranslationWalk t n s
  | .scoreboardSwitch t => Sys2Proof.Machine.execScoreboardSwitch t s
  | .quantumExpiry t => Sys2Proof.Machine.execQuantumExpiry t s
  | .aging t => Sys2Proof.Machine.execAging t s
  | .preemptLimit t => Sys2Proof.Machine.execPreemptLimit t s
  | .threadRestoreEnd t k => Sys2Proof.Machine.execThreadRestoreEnd t k s
  | .runaway t => Sys2Proof.Machine.execRunaway t s
  | .borrowStart t => Sys2Proof.Machine.execBorrowStart t s
  | .poolRefill t q page => Sys2Proof.Machine.execPoolRefill t q page s
  | .heldSpawnStart t => Sys2Proof.Machine.execHeldSpawnStart t s
  | .quietSweep => Sys2Proof.Machine.execQuietSweep s
  | .eventSend d => Sys2Proof.Machine.execEventSend d s
  | .createPartition h b => Sys2Proof.Machine.execCreatePartition h b s
  | .destroyPartition h part => Sys2Proof.Machine.execDestroyPartition h part s
  | .resetVf h vf => Sys2Proof.Machine.execResetVf h vf s
  | .resetPartition h part => Sys2Proof.Machine.execResetPartition h part s
  | .resetDie h d => Sys2Proof.Machine.execResetDie h d s
  | .dieResetEnd d => Sys2Proof.Machine.execDieResetEnd d s
  | .dieResetTimeout d => Sys2Proof.Machine.execDieResetTimeout d s
  | .resetPackage h => Sys2Proof.Machine.execResetPackage h s
  | .s2Write h b => Sys2Proof.Machine.execS2Write h b s
  | .cool h => Sys2Proof.Machine.execCool h s
  | .warmup h => Sys2Proof.Machine.execWarmup h s
  | .faultinjCommand h t ga gb => Sys2Proof.Machine.execFaultinjCommand h t ga gb s
  | .peerCircuit h b => Sys2Proof.Machine.execPeerCircuit h b s
  | .occult h pkg restore => Sys2Proof.Machine.execOccult h pkg restore s
  | .resend h first => Sys2Proof.Machine.execResend h first s
  | .startSequence h b => Sys2Proof.Machine.execStartSequence h b s
  | .endSequence h seq => Sys2Proof.Machine.execEndSequence h seq s
  | .replay h b => Sys2Proof.Machine.execReplay h b s
  | .tlbInval h b => Sys2Proof.Machine.execTlbInval h b s
  | .unpark h b => Sys2Proof.Machine.execUnpark h b s
  | .keyRotate h seq => Sys2Proof.Machine.execKeyRotate h seq s
  | .transitSweepUnit d q => Sys2Proof.Machine.execTransitSweepUnit d q s
  | .attest h nonce seq => Sys2Proof.Machine.execAttest h nonce seq s
  | .readCounters h target => Sys2Proof.Machine.execReadCounters h target s
  | .counterWindow => Sys2Proof.Machine.execCounterWindow s
  | .setDumparea h seq va => Sys2Proof.Machine.execSetDumparea h seq va s
  | .pageReply h b => Sys2Proof.Machine.execPageReply h b s
  | .hostRead h b => Sys2Proof.Machine.execHostRead h b s
  | .hostWrite h b => Sys2Proof.Machine.execHostWrite h b s
  | .syncPeriod p t1 => Sys2Proof.Machine.execSyncPeriod p t1 s
  | .sync p t2 => Sys2Proof.Machine.execSync p t2 s
  | .dreq p t4 => Sys2Proof.Machine.execDreq p t4 s
  | .dresp p sid => Sys2Proof.Machine.execDresp p sid s
  | .lsuDown pkg => Sys2Proof.Machine.execLsuDown pkg s
  | .lsuUp pkg => Sys2Proof.Machine.execLsuUp pkg s
  | .revoke pkg epoch restore => Sys2Proof.Machine.execRevoke pkg epoch restore s
  | .drain pkg round => Sys2Proof.Machine.execDrain pkg round s
  | .drainRoundEnd pkg => Sys2Proof.Machine.execDrainRoundEnd pkg s
  | .peerWordIngress p pkey h w => Sys2Proof.Machine.execPeerWordIngress p pkey h w s
  | .peerLinkTrain p ok delta w pkg => Sys2Proof.Machine.execPeerLinkTrain p ok delta w pkg s
  | .peerLinkWander p => Sys2Proof.Machine.execPeerLinkWander p s
  | .sensorRead d die temps rate => Sys2Proof.Machine.execSensorRead d die temps rate s
  | .nightfallSettled => Sys2Proof.Machine.execNightfallSettled s
  | .slotClockChange => Sys2Proof.Machine.execSlotClockChange s
  | .hbmRetrainEnd k => Sys2Proof.Machine.execHbmRetrainEnd k s
  | .supplyLoss => Sys2Proof.Machine.execSupplyLoss s
  | .supplyReturn => Sys2Proof.Machine.execSupplyReturn s
  | .patrolScrub k line bits => Sys2Proof.Machine.execPatrolScrub k line bits s
  | .pseudoChannelCopyEnd k c => Sys2Proof.Machine.execPseudoChannelCopyEnd k c s
  | .laneRepair d peer unit => Sys2Proof.Machine.execLaneRepair d peer unit s
  | .tileTransplant t => Sys2Proof.Machine.execTileTransplant t s
  | .dieLinkDown d => Sys2Proof.Machine.execDieLinkDown d s
  | .dieSplit d => Sys2Proof.Machine.execDieSplit d s
  | .illegalOp t => Sys2Proof.Machine.execIllegalOp t s
  | .fetchFault t => Sys2Proof.Machine.execFetchFault t s
  | .peerLinkFailure p => Sys2Proof.Machine.execPeerLinkFailure p s
  | .dieLinkHeal d => Sys2Proof.Machine.execDieLinkHeal d s
  | .slotDomainFormation w refPkg own up => Sys2Proof.Machine.execSlotDomainFormation w refPkg own up s
  | .tileTransplantEnd d => Sys2Proof.Machine.execTileTransplantEnd d s

end Sys2Proof.Machine
end

