-- ==== Sys2Proof/Machine/Step.lean ====
section
/-! DEFINITION. One step of the package: the head of the agenda, else the core of the current tile or what is under way. -/

namespace Sys2Proof.Machine

/-- A move of a tile's core; SIDCOUNT steps. Log 13: DESIGN CHOICE. -/
def State.moveCore (s : State) (t : TileId) : State := s.tick.coreMove exec t

/-- What would move next, the wheel apart: the head of the agenda; with an empty agenda, the core of the current tile at an even SIDCOUNT,
and at an odd one what is under way outside the cores, if anything. Log 13: DESIGN CHOICE. -/
def State.proposed (s : State) : Out :=
  match s.agenda with
  | .core t :: l => .next (({ s with agenda := l }).moveCore t)
  | .step i :: l => exec i { s with agenda := l }
  | [] =>
    if s.domain.sid % 2 = 0 then .next (s.moveCore s.cur)
    else match s.background with
      | some x => s.tick.doTask x
      | none => .next (s.moveCore s.cur)

/-- One step: what moves next, unless SIDCOUNT would pass what is due on the wheel, which then happens (R234, R238, R246).
Log 13: DESIGN CHOICE. -/
def step (s : State) : Host.Outcome State Fault Refusal := s.inTime s.proposed

/-- The state with a word stored where the next step fetches its instruction; its E bit is set, so that it is a bundle.
Log 43: DESIGN CHOICE. -/
def State.withFetchWord (s : State) (nbits w : Nat) : State :=
  let v := w % 2 ^ nbits
  s.placeWord (v % 2 ^ 31 + 2 ^ 31)

end Sys2Proof.Machine
end

