-- ==== Sys2Proof/Laws/PerInstr.lean ====
section
/-! SUPPORT. The families whose statements are made per instruction. -/

namespace Sys2Proof.Laws

/-! ### Fields -/

theorem gAt_of {w lo : Nat} {d : GReg} (h : bitsAt w lo 6 = d.val) : gAt w lo = d := Fin.ext h
theorem gLowAt_of {w lo : Nat} {d : GLow} (h : bitsAt w lo 5 = d.val) : gLowAt w lo = d := Fin.ext h
theorem vAt_of {w lo : Nat} {d : VReg} (h : bitsAt w lo 5 = d.val) : vAt w lo = d := Fin.ext h
theorem kAt_of {w lo : Nat} {d : KReg} (h : bitsAt w lo 3 = d.val) : kAt w lo = d := Fin.ext h
theorem accAt_of {w lo : Nat} {d : Acc} (h : bitsAt w lo 2 = d.val) : accAt w lo = d := Fin.ext h
theorem chanAt_of {w lo : Nat} {d : ChanId} (h : bitsAt w lo 2 = d.val) : chanAt w lo = d := Fin.ext h
theorem fin4At_of {w lo : Nat} {d : Fin 4} (h : bitsAt w lo 2 = d.val) : fin4At w lo = d := Fin.ext h
theorem fin16At_of {w lo : Nat} {d : Fin 16} (h : bitsAt w lo 4 = d.val) : fin16At w lo = d := Fin.ext h
theorem fin64At_of {w lo : Nat} {d : Fin 64} (h : bitsAt w lo 6 = d.val) : fin64At w lo = d := Fin.ext h
theorem v6At_of {w lo : Nat} {d : VReg} (h : bitsAt w lo 6 = d.val) : v6At w lo = some d := by
  have := d.isLt
  unfold v6At
  rw [dif_pos (by omega)]
  exact congrArg some (Fin.ext h)
theorem k5At_of {w lo : Nat} {d : KReg} (h : bitsAt w lo 5 = d.val) : k5At w lo = some d := by
  have := d.isLt
  unfold k5At
  rw [dif_pos (by omega)]
  exact congrArg some (Fin.ext h)
theorem bvAt_of {w lo n : Nat} {x : BitVec n} (h : bitsAt w lo n = x.toNat) : bvAt w lo n = x := by
  unfold bvAt
  rw [h]
  simp
theorem boolNat_lt (b : Bool) : boolNat b < 2 := by cases b <;> decide
theorem boolAt_of {w lo : Nat} {b : Bool} (h : bitsAt w lo 1 = boolNat b) : boolAt w lo = b := by
  unfold boolAt
  rw [h]
  cases b <;> rfl
theorem IType.code_lt (x : IType) : x.code < 7 := by cases x <;> decide
theorem IType.ofCode_code (x : IType) : IType.ofCode x.code = some x := by cases x <;> rfl
theorem Ord.code_lt (x : Ord) : x.code < 4 := by cases x <;> decide
theorem Ord.ofCode_code (x : Ord) : Ord.ofCode x.code = some x := by cases x <;> rfl
theorem Scope.code_lt (x : Scope) : x.code < 5 := by cases x <;> decide
theorem Scope.ofCode_code (x : Scope) : Scope.ofCode x.code = some x := by cases x <;> rfl
theorem W2.code_lt (x : W2) : x.code < 3 := by cases x <;> decide
theorem W2.ofCode_code (x : W2) : W2.ofCode x.code = some x := by cases x <;> rfl
theorem FP2.code_lt (x : FP2) : x.code < 3 := by cases x <;> decide
theorem FP2.ofCode_code (x : FP2) : FP2.ofCode x.code = some x := by cases x <;> rfl
theorem Rnd.code_lt (x : Rnd) : x.code < 6 := by cases x <;> decide
theorem Rnd.ofCode_code (x : Rnd) : Rnd.ofCode x.code = some x := by cases x <;> rfl
theorem CvtPair.code_lt (x : CvtPair) : x.code < 14 := by cases x <;> decide
theorem CvtPair.ofCode_code (x : CvtPair) : CvtPair.ofCode x.code = some x := by cases x <;> rfl
theorem BX.code_lt (x : BX) : x.code < 3 := by cases x <;> decide
theorem BX.ofCode_code (x : BX) : BX.ofCode x.code = some x := by cases x <;> rfl
theorem NarrowSel.code_lt (x : NarrowSel) : x.code < 4 := by cases x <;> decide
theorem NarrowSel.ofCode_code (x : NarrowSel) : NarrowSel.ofCode x.code = some x := by cases x <;> rfl
theorem WidenSel.code_lt (x : WidenSel) : x.code < 4 := by cases x <;> decide
theorem WidenSel.ofCode_code (x : WidenSel) : WidenSel.ofCode x.code = some x := by cases x <;> rfl
theorem RedSel.code_lt (x : RedSel) : x.code < 5 := by cases x <;> decide
theorem RedSel.ofCode_code (x : RedSel) : RedSel.ofCode x.code = some x := by cases x <;> rfl
theorem FRedSel.code_lt (x : FRedSel) : x.code < 3 := by cases x <;> decide
theorem FRedSel.ofCode_code (x : FRedSel) : FRedSel.ofCode x.code = some x := by cases x <;> rfl
theorem Cond.code_lt (x : Cond) : x.code < 6 := by cases x <;> decide
theorem Cond.ofCode_code (x : Cond) : Cond.ofCode x.code = some x := by cases x <;> rfl
theorem FCond.code_lt (x : FCond) : x.code < 4 := by cases x <;> decide
theorem FCond.ofCode_code (x : FCond) : FCond.ofCode x.code = some x := by cases x <;> rfl
theorem VAmoT.code_lt (x : VAmoT) : x.code < 2 := by cases x <;> decide
theorem VAmoT.ofCode_code (x : VAmoT) : VAmoT.ofCode x.code = some x := by cases x <;> rfl
theorem XPose.code_lt (x : XPose) : x.code < 3 := by cases x <;> decide
theorem XPose.ofCode_code (x : XPose) : XPose.ofCode x.code = some x := by cases x <;> rfl

/-! ### Decoding what was encoded -/

/-- The word of a well-formed instruction decodes to it (R80, R81). -/
def RoundTrip.Statement (i : Instr) : Prop :=
  ∀ n, encodeInstr i = some n → i.wellFormed = true → n < 2 ^ 29 ∧ decodeInstr n = .ok i

theorem RoundTrip.add (d a b) : RoundTrip.Statement (.add d a b) := by
  intro n enc hw
  have hn : 0x01000000 + d.val * 2 ^ 18 + a.val * 2 ^ 12 + b.val * 2 ^ 6 = n := Option.some.inj enc
  have l0 := d.isLt
  have l1 := a.isLt
  have l2 := b.isLt
  refine ⟨by omega, ?_⟩
  have hm : bitsAt n 24 5 = 1 := by unfold bitsAt; omega
  have t0_6 : bitsAt n 0 6 = 0 := by unfold bitsAt; omega
  have e_d : gAt n 18 = d := gAt_of (by unfold bitsAt; omega)
  have e_a : gAt n 12 = a := gAt_of (by unfold bitsAt; omega)
  have e_b : gAt n 6 = b := gAt_of (by unfold bitsAt; omega)
  simp [decodeInstr, decodeMaj01, hm, t0_6, e_d, e_a, e_b]

theorem RoundTrip.sub (d a b) : RoundTrip.Statement (.sub d a b) := by
  intro n enc hw
  have hn : 0x01000001 + d.val * 2 ^ 18 + a.val * 2 ^ 12 + b.val * 2 ^ 6 = n := Option.some.inj enc
  have l0 := d.isLt
  have l1 := a.isLt
  have l2 := b.isLt
  refine ⟨by omega, ?_⟩
  have hm : bitsAt n 24 5 = 1 := by unfold bitsAt; omega
  have t0_6 : bitsAt n 0 6 = 1 := by unfold bitsAt; omega
  have e_d : gAt n 18 = d := gAt_of (by unfold bitsAt; omega)
  have e_a : gAt n 12 = a := gAt_of (by unfold bitsAt; omega)
  have e_b : gAt n 6 = b := gAt_of (by unfold bitsAt; omega)
  simp [decodeInstr, decodeMaj01, hm, t0_6, e_d, e_a, e_b]

theorem RoundTrip.and (d a b) : RoundTrip.Statement (.and d a b) := by
  intro n enc hw
  have hn : 0x01000002 + d.val * 2 ^ 18 + a.val * 2 ^ 12 + b.val * 2 ^ 6 = n := Option.some.inj enc
  have l0 := d.isLt
  have l1 := a.isLt
  have l2 := b.isLt
  refine ⟨by omega, ?_⟩
  have hm : bitsAt n 24 5 = 1 := by unfold bitsAt; omega
  have t0_6 : bitsAt n 0 6 = 2 := by unfold bitsAt; omega
  have e_d : gAt n 18 = d := gAt_of (by unfold bitsAt; omega)
  have e_a : gAt n 12 = a := gAt_of (by unfold bitsAt; omega)
  have e_b : gAt n 6 = b := gAt_of (by unfold bitsAt; omega)
  simp [decodeInstr, decodeMaj01, hm, t0_6, e_d, e_a, e_b]

theorem RoundTrip.or (d a b) : RoundTrip.Statement (.or d a b) := by
  intro n enc hw
  have hn : 0x01000003 + d.val * 2 ^ 18 + a.val * 2 ^ 12 + b.val * 2 ^ 6 = n := Option.some.inj enc
  have l0 := d.isLt
  have l1 := a.isLt
  have l2 := b.isLt
  refine ⟨by omega, ?_⟩
  have hm : bitsAt n 24 5 = 1 := by unfold bitsAt; omega
  have t0_6 : bitsAt n 0 6 = 3 := by unfold bitsAt; omega
  have e_d : gAt n 18 = d := gAt_of (by unfold bitsAt; omega)
  have e_a : gAt n 12 = a := gAt_of (by unfold bitsAt; omega)
  have e_b : gAt n 6 = b := gAt_of (by unfold bitsAt; omega)
  simp [decodeInstr, decodeMaj01, hm, t0_6, e_d, e_a, e_b]

theorem RoundTrip.xor (d a b) : RoundTrip.Statement (.xor d a b) := by
  intro n enc hw
  have hn : 0x01000004 + d.val * 2 ^ 18 + a.val * 2 ^ 12 + b.val * 2 ^ 6 = n := Option.some.inj enc
  have l0 := d.isLt
  have l1 := a.isLt
  have l2 := b.isLt
  refine ⟨by omega, ?_⟩
  have hm : bitsAt n 24 5 = 1 := by unfold bitsAt; omega
  have t0_6 : bitsAt n 0 6 = 4 := by unfold bitsAt; omega
  have e_d : gAt n 18 = d := gAt_of (by unfold bitsAt; omega)
  have e_a : gAt n 12 = a := gAt_of (by unfold bitsAt; omega)
  have e_b : gAt n 6 = b := gAt_of (by unfold bitsAt; omega)
  simp [decodeInstr, decodeMaj01, hm, t0_6, e_d, e_a, e_b]

theorem RoundTrip.andn (d a b) : RoundTrip.Statement (.andn d a b) := by
  intro n enc hw
  have hn : 0x01000005 + d.val * 2 ^ 18 + a.val * 2 ^ 12 + b.val * 2 ^ 6 = n := Option.some.inj enc
  have l0 := d.isLt
  have l1 := a.isLt
  have l2 := b.isLt
  refine ⟨by omega, ?_⟩
  have hm : bitsAt n 24 5 = 1 := by unfold bitsAt; omega
  have t0_6 : bitsAt n 0 6 = 5 := by unfold bitsAt; omega
  have e_d : gAt n 18 = d := gAt_of (by unfold bitsAt; omega)
  have e_a : gAt n 12 = a := gAt_of (by unfold bitsAt; omega)
  have e_b : gAt n 6 = b := gAt_of (by unfold bitsAt; omega)
  simp [decodeInstr, decodeMaj01, hm, t0_6, e_d, e_a, e_b]

theorem RoundTrip.orn (d a b) : RoundTrip.Statement (.orn d a b) := by
  intro n enc hw
  have hn : 0x01000006 + d.val * 2 ^ 18 + a.val * 2 ^ 12 + b.val * 2 ^ 6 = n := Option.some.inj enc
  have l0 := d.isLt
  have l1 := a.isLt
  have l2 := b.isLt
  refine ⟨by omega, ?_⟩
  have hm : bitsAt n 24 5 = 1 := by unfold bitsAt; omega
  have t0_6 : bitsAt n 0 6 = 6 := by unfold bitsAt; omega
  have e_d : gAt n 18 = d := gAt_of (by unfold bitsAt; omega)
  have e_a : gAt n 12 = a := gAt_of (by unfold bitsAt; omega)
  have e_b : gAt n 6 = b := gAt_of (by unfold bitsAt; omega)
  simp [decodeInstr, decodeMaj01, hm, t0_6, e_d, e_a, e_b]

theorem RoundTrip.shl (d a b) : RoundTrip.Statement (.shl d a b) := by
  intro n enc hw
  have hn : 0x01000008 + d.val * 2 ^ 18 + a.val * 2 ^ 12 + b.val * 2 ^ 6 = n := Option.some.inj enc
  have l0 := d.isLt
  have l1 := a.isLt
  have l2 := b.isLt
  refine ⟨by omega, ?_⟩
  have hm : bitsAt n 24 5 = 1 := by unfold bitsAt; omega
  have t0_6 : bitsAt n 0 6 = 8 := by unfold bitsAt; omega
  have e_d : gAt n 18 = d := gAt_of (by unfold bitsAt; omega)
  have e_a : gAt n 12 = a := gAt_of (by unfold bitsAt; omega)
  have e_b : gAt n 6 = b := gAt_of (by unfold bitsAt; omega)
  simp [decodeInstr, decodeMaj01, hm, t0_6, e_d, e_a, e_b]

theorem RoundTrip.shr (d a b) : RoundTrip.Statement (.shr d a b) := by
  intro n enc hw
  have hn : 0x01000009 + d.val * 2 ^ 18 + a.val * 2 ^ 12 + b.val * 2 ^ 6 = n := Option.some.inj enc
  have l0 := d.isLt
  have l1 := a.isLt
  have l2 := b.isLt
  refine ⟨by omega, ?_⟩
  have hm : bitsAt n 24 5 = 1 := by unfold bitsAt; omega
  have t0_6 : bitsAt n 0 6 = 9 := by unfold bitsAt; omega
  have e_d : gAt n 18 = d := gAt_of (by unfold bitsAt; omega)
  have e_a : gAt n 12 = a := gAt_of (by unfold bitsAt; omega)
  have e_b : gAt n 6 = b := gAt_of (by unfold bitsAt; omega)
  simp [decodeInstr, decodeMaj01, hm, t0_6, e_d, e_a, e_b]

theorem RoundTrip.sha (d a b) : RoundTrip.Statement (.sha d a b) := by
  intro n enc hw
  have hn : 0x0100000A + d.val * 2 ^ 18 + a.val * 2 ^ 12 + b.val * 2 ^ 6 = n := Option.some.inj enc
  have l0 := d.isLt
  have l1 := a.isLt
  have l2 := b.isLt
  refine ⟨by omega, ?_⟩
  have hm : bitsAt n 24 5 = 1 := by unfold bitsAt; omega
  have t0_6 : bitsAt n 0 6 = 10 := by unfold bitsAt; omega
  have e_d : gAt n 18 = d := gAt_of (by unfold bitsAt; omega)
  have e_a : gAt n 12 = a := gAt_of (by unfold bitsAt; omega)
  have e_b : gAt n 6 = b := gAt_of (by unfold bitsAt; omega)
  simp [decodeInstr, decodeMaj01, hm, t0_6, e_d, e_a, e_b]

theorem RoundTrip.rol (d a b) : RoundTrip.Statement (.rol d a b) := by
  intro n enc hw
  have hn : 0x0100000B + d.val * 2 ^ 18 + a.val * 2 ^ 12 + b.val * 2 ^ 6 = n := Option.some.inj enc
  have l0 := d.isLt
  have l1 := a.isLt
  have l2 := b.isLt
  refine ⟨by omega, ?_⟩
  have hm : bitsAt n 24 5 = 1 := by unfold bitsAt; omega
  have t0_6 : bitsAt n 0 6 = 11 := by unfold bitsAt; omega
  have e_d : gAt n 18 = d := gAt_of (by unfold bitsAt; omega)
  have e_a : gAt n 12 = a := gAt_of (by unfold bitsAt; omega)
  have e_b : gAt n 6 = b := gAt_of (by unfold bitsAt; omega)
  simp [decodeInstr, decodeMaj01, hm, t0_6, e_d, e_a, e_b]

theorem RoundTrip.slt (d a b) : RoundTrip.Statement (.slt d a b) := by
  intro n enc hw
  have hn : 0x01000010 + d.val * 2 ^ 18 + a.val * 2 ^ 12 + b.val * 2 ^ 6 = n := Option.some.inj enc
  have l0 := d.isLt
  have l1 := a.isLt
  have l2 := b.isLt
  refine ⟨by omega, ?_⟩
  have hm : bitsAt n 24 5 = 1 := by unfold bitsAt; omega
  have t0_6 : bitsAt n 0 6 = 16 := by unfold bitsAt; omega
  have e_d : gAt n 18 = d := gAt_of (by unfold bitsAt; omega)
  have e_a : gAt n 12 = a := gAt_of (by unfold bitsAt; omega)
  have e_b : gAt n 6 = b := gAt_of (by unfold bitsAt; omega)
  simp [decodeInstr, decodeMaj01, hm, t0_6, e_d, e_a, e_b]

theorem RoundTrip.sltn (d a b) : RoundTrip.Statement (.sltn d a b) := by
  intro n enc hw
  have hn : 0x01000011 + d.val * 2 ^ 18 + a.val * 2 ^ 12 + b.val * 2 ^ 6 = n := Option.some.inj enc
  have l0 := d.isLt
  have l1 := a.isLt
  have l2 := b.isLt
  refine ⟨by omega, ?_⟩
  have hm : bitsAt n 24 5 = 1 := by unfold bitsAt; omega
  have t0_6 : bitsAt n 0 6 = 17 := by unfold bitsAt; omega
  have e_d : gAt n 18 = d := gAt_of (by unfold bitsAt; omega)
  have e_a : gAt n 12 = a := gAt_of (by unfold bitsAt; omega)
  have e_b : gAt n 6 = b := gAt_of (by unfold bitsAt; omega)
  simp [decodeInstr, decodeMaj01, hm, t0_6, e_d, e_a, e_b]

theorem RoundTrip.seq (d a b) : RoundTrip.Statement (.seq d a b) := by
  intro n enc hw
  have hn : 0x01000012 + d.val * 2 ^ 18 + a.val * 2 ^ 12 + b.val * 2 ^ 6 = n := Option.some.inj enc
  have l0 := d.isLt
  have l1 := a.isLt
  have l2 := b.isLt
  refine ⟨by omega, ?_⟩
  have hm : bitsAt n 24 5 = 1 := by unfold bitsAt; omega
  have t0_6 : bitsAt n 0 6 = 18 := by unfold bitsAt; omega
  have e_d : gAt n 18 = d := gAt_of (by unfold bitsAt; omega)
  have e_a : gAt n 12 = a := gAt_of (by unfold bitsAt; omega)
  have e_b : gAt n 6 = b := gAt_of (by unfold bitsAt; omega)
  simp [decodeInstr, decodeMaj01, hm, t0_6, e_d, e_a, e_b]

theorem RoundTrip.sne (d a b) : RoundTrip.Statement (.sne d a b) := by
  intro n enc hw
  have hn : 0x01000013 + d.val * 2 ^ 18 + a.val * 2 ^ 12 + b.val * 2 ^ 6 = n := Option.some.inj enc
  have l0 := d.isLt
  have l1 := a.isLt
  have l2 := b.isLt
  refine ⟨by omega, ?_⟩
  have hm : bitsAt n 24 5 = 1 := by unfold bitsAt; omega
  have t0_6 : bitsAt n 0 6 = 19 := by unfold bitsAt; omega
  have e_d : gAt n 18 = d := gAt_of (by unfold bitsAt; omega)
  have e_a : gAt n 12 = a := gAt_of (by unfold bitsAt; omega)
  have e_b : gAt n 6 = b := gAt_of (by unfold bitsAt; omega)
  simp [decodeInstr, decodeMaj01, hm, t0_6, e_d, e_a, e_b]

theorem RoundTrip.min (d a b) : RoundTrip.Statement (.min d a b) := by
  intro n enc hw
  have hn : 0x01000014 + d.val * 2 ^ 18 + a.val * 2 ^ 12 + b.val * 2 ^ 6 = n := Option.some.inj enc
  have l0 := d.isLt
  have l1 := a.isLt
  have l2 := b.isLt
  refine ⟨by omega, ?_⟩
  have hm : bitsAt n 24 5 = 1 := by unfold bitsAt; omega
  have t0_6 : bitsAt n 0 6 = 20 := by unfold bitsAt; omega
  have e_d : gAt n 18 = d := gAt_of (by unfold bitsAt; omega)
  have e_a : gAt n 12 = a := gAt_of (by unfold bitsAt; omega)
  have e_b : gAt n 6 = b := gAt_of (by unfold bitsAt; omega)
  simp [decodeInstr, decodeMaj01, hm, t0_6, e_d, e_a, e_b]

theorem RoundTrip.max (d a b) : RoundTrip.Statement (.max d a b) := by
  intro n enc hw
  have hn : 0x01000015 + d.val * 2 ^ 18 + a.val * 2 ^ 12 + b.val * 2 ^ 6 = n := Option.some.inj enc
  have l0 := d.isLt
  have l1 := a.isLt
  have l2 := b.isLt
  refine ⟨by omega, ?_⟩
  have hm : bitsAt n 24 5 = 1 := by unfold bitsAt; omega
  have t0_6 : bitsAt n 0 6 = 21 := by unfold bitsAt; omega
  have e_d : gAt n 18 = d := gAt_of (by unfold bitsAt; omega)
  have e_a : gAt n 12 = a := gAt_of (by unfold bitsAt; omega)
  have e_b : gAt n 6 = b := gAt_of (by unfold bitsAt; omega)
  simp [decodeInstr, decodeMaj01, hm, t0_6, e_d, e_a, e_b]

theorem RoundTrip.minn (d a b) : RoundTrip.Statement (.minn d a b) := by
  intro n enc hw
  have hn : 0x01000016 + d.val * 2 ^ 18 + a.val * 2 ^ 12 + b.val * 2 ^ 6 = n := Option.some.inj enc
  have l0 := d.isLt
  have l1 := a.isLt
  have l2 := b.isLt
  refine ⟨by omega, ?_⟩
  have hm : bitsAt n 24 5 = 1 := by unfold bitsAt; omega
  have t0_6 : bitsAt n 0 6 = 22 := by unfold bitsAt; omega
  have e_d : gAt n 18 = d := gAt_of (by unfold bitsAt; omega)
  have e_a : gAt n 12 = a := gAt_of (by unfold bitsAt; omega)
  have e_b : gAt n 6 = b := gAt_of (by unfold bitsAt; omega)
  simp [decodeInstr, decodeMaj01, hm, t0_6, e_d, e_a, e_b]

theorem RoundTrip.maxn (d a b) : RoundTrip.Statement (.maxn d a b) := by
  intro n enc hw
  have hn : 0x01000017 + d.val * 2 ^ 18 + a.val * 2 ^ 12 + b.val * 2 ^ 6 = n := Option.some.inj enc
  have l0 := d.isLt
  have l1 := a.isLt
  have l2 := b.isLt
  refine ⟨by omega, ?_⟩
  have hm : bitsAt n 24 5 = 1 := by unfold bitsAt; omega
  have t0_6 : bitsAt n 0 6 = 23 := by unfold bitsAt; omega
  have e_d : gAt n 18 = d := gAt_of (by unfold bitsAt; omega)
  have e_a : gAt n 12 = a := gAt_of (by unfold bitsAt; omega)
  have e_b : gAt n 6 = b := gAt_of (by unfold bitsAt; omega)
  simp [decodeInstr, decodeMaj01, hm, t0_6, e_d, e_a, e_b]

theorem RoundTrip.csel (d a b) : RoundTrip.Statement (.csel d a b) := by
  intro n enc hw
  have hn : 0x01000018 + d.val * 2 ^ 18 + a.val * 2 ^ 12 + b.val * 2 ^ 6 = n := Option.some.inj enc
  have l0 := d.isLt
  have l1 := a.isLt
  have l2 := b.isLt
  refine ⟨by omega, ?_⟩
  have hm : bitsAt n 24 5 = 1 := by unfold bitsAt; omega
  have t0_6 : bitsAt n 0 6 = 24 := by unfold bitsAt; omega
  have e_d : gAt n 18 = d := gAt_of (by unfold bitsAt; omega)
  have e_a : gAt n 12 = a := gAt_of (by unfold bitsAt; omega)
  have e_b : gAt n 6 = b := gAt_of (by unfold bitsAt; omega)
  simp [decodeInstr, decodeMaj01, hm, t0_6, e_d, e_a, e_b]

theorem RoundTrip.extr (d a b) : RoundTrip.Statement (.extr d a b) := by
  intro n enc hw
  have hn : 0x0100001C + d.val * 2 ^ 18 + a.val * 2 ^ 12 + b.val * 2 ^ 6 = n := Option.some.inj enc
  have l0 := d.isLt
  have l1 := a.isLt
  have l2 := b.isLt
  refine ⟨by omega, ?_⟩
  have hm : bitsAt n 24 5 = 1 := by unfold bitsAt; omega
  have t0_6 : bitsAt n 0 6 = 28 := by unfold bitsAt; omega
  have e_d : gAt n 18 = d := gAt_of (by unfold bitsAt; omega)
  have e_a : gAt n 12 = a := gAt_of (by unfold bitsAt; omega)
  have e_b : gAt n 6 = b := gAt_of (by unfold bitsAt; omega)
  simp [decodeInstr, decodeMaj01, hm, t0_6, e_d, e_a, e_b]

theorem RoundTrip.insr (d a b) : RoundTrip.Statement (.insr d a b) := by
  intro n enc hw
  have hn : 0x0100001D + d.val * 2 ^ 18 + a.val * 2 ^ 12 + b.val * 2 ^ 6 = n := Option.some.inj enc
  have l0 := d.isLt
  have l1 := a.isLt
  have l2 := b.isLt
  refine ⟨by omega, ?_⟩
  have hm : bitsAt n 24 5 = 1 := by unfold bitsAt; omega
  have t0_6 : bitsAt n 0 6 = 29 := by unfold bitsAt; omega
  have e_d : gAt n 18 = d := gAt_of (by unfold bitsAt; omega)
  have e_a : gAt n 12 = a := gAt_of (by unfold bitsAt; omega)
  have e_b : gAt n 6 = b := gAt_of (by unfold bitsAt; omega)
  simp [decodeInstr, decodeMaj01, hm, t0_6, e_d, e_a, e_b]

theorem RoundTrip.lea (d a b) : RoundTrip.Statement (.lea d a b) := by
  intro n enc hw
  have hn : 0x0100001E + d.val * 2 ^ 18 + a.val * 2 ^ 12 + b.val * 2 ^ 6 = n := Option.some.inj enc
  have l0 := d.isLt
  have l1 := a.isLt
  have l2 := b.isLt
  refine ⟨by omega, ?_⟩
  have hm : bitsAt n 24 5 = 1 := by unfold bitsAt; omega
  have t0_6 : bitsAt n 0 6 = 30 := by unfold bitsAt; omega
  have e_d : gAt n 18 = d := gAt_of (by unfold bitsAt; omega)
  have e_a : gAt n 12 = a := gAt_of (by unfold bitsAt; omega)
  have e_b : gAt n 6 = b := gAt_of (by unfold bitsAt; omega)
  simp [decodeInstr, decodeMaj01, hm, t0_6, e_d, e_a, e_b]

theorem RoundTrip.clz (d a) : RoundTrip.Statement (.clz d a) := by
  intro n enc hw
  have hn : 0x01000020 + d.val * 2 ^ 18 + a.val * 2 ^ 12 = n := Option.some.inj enc
  have l0 := d.isLt
  have l1 := a.isLt
  refine ⟨by omega, ?_⟩
  have hm : bitsAt n 24 5 = 1 := by unfold bitsAt; omega
  have t0_6 : bitsAt n 0 6 = 32 := by unfold bitsAt; omega
  have t6_6 : bitsAt n 6 6 = 0 := by unfold bitsAt; omega
  have e_d : gAt n 18 = d := gAt_of (by unfold bitsAt; omega)
  have e_a : gAt n 12 = a := gAt_of (by unfold bitsAt; omega)
  simp [decodeInstr, decodeMaj01, zeroField, hm, t0_6, t6_6, e_d, e_a]

theorem RoundTrip.ctz (d a) : RoundTrip.Statement (.ctz d a) := by
  intro n enc hw
  have hn : 0x01000021 + d.val * 2 ^ 18 + a.val * 2 ^ 12 = n := Option.some.inj enc
  have l0 := d.isLt
  have l1 := a.isLt
  refine ⟨by omega, ?_⟩
  have hm : bitsAt n 24 5 = 1 := by unfold bitsAt; omega
  have t0_6 : bitsAt n 0 6 = 33 := by unfold bitsAt; omega
  have t6_6 : bitsAt n 6 6 = 0 := by unfold bitsAt; omega
  have e_d : gAt n 18 = d := gAt_of (by unfold bitsAt; omega)
  have e_a : gAt n 12 = a := gAt_of (by unfold bitsAt; omega)
  simp [decodeInstr, decodeMaj01, zeroField, hm, t0_6, t6_6, e_d, e_a]

theorem RoundTrip.popc (d a) : RoundTrip.Statement (.popc d a) := by
  intro n enc hw
  have hn : 0x01000022 + d.val * 2 ^ 18 + a.val * 2 ^ 12 = n := Option.some.inj enc
  have l0 := d.isLt
  have l1 := a.isLt
  refine ⟨by omega, ?_⟩
  have hm : bitsAt n 24 5 = 1 := by unfold bitsAt; omega
  have t0_6 : bitsAt n 0 6 = 34 := by unfold bitsAt; omega
  have t6_6 : bitsAt n 6 6 = 0 := by unfold bitsAt; omega
  have e_d : gAt n 18 = d := gAt_of (by unfold bitsAt; omega)
  have e_a : gAt n 12 = a := gAt_of (by unfold bitsAt; omega)
  simp [decodeInstr, decodeMaj01, zeroField, hm, t0_6, t6_6, e_d, e_a]

theorem RoundTrip.brev (d a) : RoundTrip.Statement (.brev d a) := by
  intro n enc hw
  have hn : 0x01000023 + d.val * 2 ^ 18 + a.val * 2 ^ 12 = n := Option.some.inj enc
  have l0 := d.isLt
  have l1 := a.isLt
  refine ⟨by omega, ?_⟩
  have hm : bitsAt n 24 5 = 1 := by unfold bitsAt; omega
  have t0_6 : bitsAt n 0 6 = 35 := by unfold bitsAt; omega
  have t6_6 : bitsAt n 6 6 = 0 := by unfold bitsAt; omega
  have e_d : gAt n 18 = d := gAt_of (by unfold bitsAt; omega)
  have e_a : gAt n 12 = a := gAt_of (by unfold bitsAt; omega)
  simp [decodeInstr, decodeMaj01, zeroField, hm, t0_6, t6_6, e_d, e_a]

theorem RoundTrip.addi (d a i) : RoundTrip.Statement (.addi d a i) := by
  intro n enc hw
  have hn : 0x02000000 + d.val * 2 ^ 18 + a.val * 2 ^ 12 + i.toNat * 2 ^ 0 = n := Option.some.inj enc
  have l0 := d.isLt
  have l1 := a.isLt
  have l2 := i.isLt
  refine ⟨by omega, ?_⟩
  have hm : bitsAt n 24 5 = 2 := by unfold bitsAt; omega
  have e_d : gAt n 18 = d := gAt_of (by unfold bitsAt; omega)
  have e_a : gAt n 12 = a := gAt_of (by unfold bitsAt; omega)
  have e_i : bvAt n 0 12 = i := bvAt_of (by unfold bitsAt; omega)
  simp [decodeInstr, decodeMaj02, hm, e_d, e_a, e_i]

theorem RoundTrip.andi (d a i) : RoundTrip.Statement (.andi d a i) := by
  intro n enc hw
  have hn : 0x03000000 + d.val * 2 ^ 18 + a.val * 2 ^ 12 + i.toNat * 2 ^ 0 = n := Option.some.inj enc
  have l0 := d.isLt
  have l1 := a.isLt
  have l2 := i.isLt
  refine ⟨by omega, ?_⟩
  have hm : bitsAt n 24 5 = 3 := by unfold bitsAt; omega
  have t9_3 : bitsAt n 9 3 = 0 := by unfold bitsAt; omega
  have e_d : gAt n 18 = d := gAt_of (by unfold bitsAt; omega)
  have e_a : gAt n 12 = a := gAt_of (by unfold bitsAt; omega)
  have e_i : bvAt n 0 9 = i := bvAt_of (by unfold bitsAt; omega)
  simp [decodeInstr, decodeMaj03, hm, t9_3, e_d, e_a, e_i]

theorem RoundTrip.ori (d a i) : RoundTrip.Statement (.ori d a i) := by
  intro n enc hw
  have hn : 0x03000200 + d.val * 2 ^ 18 + a.val * 2 ^ 12 + i.toNat * 2 ^ 0 = n := Option.some.inj enc
  have l0 := d.isLt
  have l1 := a.isLt
  have l2 := i.isLt
  refine ⟨by omega, ?_⟩
  have hm : bitsAt n 24 5 = 3 := by unfold bitsAt; omega
  have t9_3 : bitsAt n 9 3 = 1 := by unfold bitsAt; omega
  have e_d : gAt n 18 = d := gAt_of (by unfold bitsAt; omega)
  have e_a : gAt n 12 = a := gAt_of (by unfold bitsAt; omega)
  have e_i : bvAt n 0 9 = i := bvAt_of (by unfold bitsAt; omega)
  simp [decodeInstr, decodeMaj03, hm, t9_3, e_d, e_a, e_i]

theorem RoundTrip.xori (d a i) : RoundTrip.Statement (.xori d a i) := by
  intro n enc hw
  have hn : 0x03000400 + d.val * 2 ^ 18 + a.val * 2 ^ 12 + i.toNat * 2 ^ 0 = n := Option.some.inj enc
  have l0 := d.isLt
  have l1 := a.isLt
  have l2 := i.isLt
  refine ⟨by omega, ?_⟩
  have hm : bitsAt n 24 5 = 3 := by unfold bitsAt; omega
  have t9_3 : bitsAt n 9 3 = 2 := by unfold bitsAt; omega
  have e_d : gAt n 18 = d := gAt_of (by unfold bitsAt; omega)
  have e_a : gAt n 12 = a := gAt_of (by unfold bitsAt; omega)
  have e_i : bvAt n 0 9 = i := bvAt_of (by unfold bitsAt; omega)
  simp [decodeInstr, decodeMaj03, hm, t9_3, e_d, e_a, e_i]

theorem RoundTrip.shli (d a i) : RoundTrip.Statement (.shli d a i) := by
  intro n enc hw
  have hn : 0x04000000 + d.val * 2 ^ 18 + a.val * 2 ^ 12 + i.toNat * 2 ^ 0 = n := Option.some.inj enc
  have l0 := d.isLt
  have l1 := a.isLt
  have l2 := i.isLt
  refine ⟨by omega, ?_⟩
  have hm : bitsAt n 24 5 = 4 := by unfold bitsAt; omega
  have t6_3 : bitsAt n 6 3 = 0 := by unfold bitsAt; omega
  have t9_3 : bitsAt n 9 3 = 0 := by unfold bitsAt; omega
  have e_d : gAt n 18 = d := gAt_of (by unfold bitsAt; omega)
  have e_a : gAt n 12 = a := gAt_of (by unfold bitsAt; omega)
  have e_i : bvAt n 0 6 = i := bvAt_of (by unfold bitsAt; omega)
  simp [decodeInstr, decodeMaj04, zeroField, hm, t6_3, t9_3, e_d, e_a, e_i]

theorem RoundTrip.shri (d a i) : RoundTrip.Statement (.shri d a i) := by
  intro n enc hw
  have hn : 0x04000200 + d.val * 2 ^ 18 + a.val * 2 ^ 12 + i.toNat * 2 ^ 0 = n := Option.some.inj enc
  have l0 := d.isLt
  have l1 := a.isLt
  have l2 := i.isLt
  refine ⟨by omega, ?_⟩
  have hm : bitsAt n 24 5 = 4 := by unfold bitsAt; omega
  have t6_3 : bitsAt n 6 3 = 0 := by unfold bitsAt; omega
  have t9_3 : bitsAt n 9 3 = 1 := by unfold bitsAt; omega
  have e_d : gAt n 18 = d := gAt_of (by unfold bitsAt; omega)
  have e_a : gAt n 12 = a := gAt_of (by unfold bitsAt; omega)
  have e_i : bvAt n 0 6 = i := bvAt_of (by unfold bitsAt; omega)
  simp [decodeInstr, decodeMaj04, zeroField, hm, t6_3, t9_3, e_d, e_a, e_i]

theorem RoundTrip.shai (d a i) : RoundTrip.Statement (.shai d a i) := by
  intro n enc hw
  have hn : 0x04000400 + d.val * 2 ^ 18 + a.val * 2 ^ 12 + i.toNat * 2 ^ 0 = n := Option.some.inj enc
  have l0 := d.isLt
  have l1 := a.isLt
  have l2 := i.isLt
  refine ⟨by omega, ?_⟩
  have hm : bitsAt n 24 5 = 4 := by unfold bitsAt; omega
  have t6_3 : bitsAt n 6 3 = 0 := by unfold bitsAt; omega
  have t9_3 : bitsAt n 9 3 = 2 := by unfold bitsAt; omega
  have e_d : gAt n 18 = d := gAt_of (by unfold bitsAt; omega)
  have e_a : gAt n 12 = a := gAt_of (by unfold bitsAt; omega)
  have e_i : bvAt n 0 6 = i := bvAt_of (by unfold bitsAt; omega)
  simp [decodeInstr, decodeMaj04, zeroField, hm, t6_3, t9_3, e_d, e_a, e_i]

theorem RoundTrip.slti (d a i) : RoundTrip.Statement (.slti d a i) := by
  intro n enc hw
  have hn : 0x04000600 + d.val * 2 ^ 18 + a.val * 2 ^ 12 + i.toNat * 2 ^ 0 = n := Option.some.inj enc
  have l0 := d.isLt
  have l1 := a.isLt
  have l2 := i.isLt
  refine ⟨by omega, ?_⟩
  have hm : bitsAt n 24 5 = 4 := by unfold bitsAt; omega
  have t9_3 : bitsAt n 9 3 = 3 := by unfold bitsAt; omega
  have e_d : gAt n 18 = d := gAt_of (by unfold bitsAt; omega)
  have e_a : gAt n 12 = a := gAt_of (by unfold bitsAt; omega)
  have e_i : bvAt n 0 9 = i := bvAt_of (by unfold bitsAt; omega)
  simp [decodeInstr, decodeMaj04, hm, t9_3, e_d, e_a, e_i]

theorem RoundTrip.sltni (d a i) : RoundTrip.Statement (.sltni d a i) := by
  intro n enc hw
  have hn : 0x04000800 + d.val * 2 ^ 18 + a.val * 2 ^ 12 + i.toNat * 2 ^ 0 = n := Option.some.inj enc
  have l0 := d.isLt
  have l1 := a.isLt
  have l2 := i.isLt
  refine ⟨by omega, ?_⟩
  have hm : bitsAt n 24 5 = 4 := by unfold bitsAt; omega
  have t9_3 : bitsAt n 9 3 = 4 := by unfold bitsAt; omega
  have e_d : gAt n 18 = d := gAt_of (by unfold bitsAt; omega)
  have e_a : gAt n 12 = a := gAt_of (by unfold bitsAt; omega)
  have e_i : bvAt n 0 9 = i := bvAt_of (by unfold bitsAt; omega)
  simp [decodeInstr, decodeMaj04, hm, t9_3, e_d, e_a, e_i]

theorem RoundTrip.seqi (d a i) : RoundTrip.Statement (.seqi d a i) := by
  intro n enc hw
  have hn : 0x04000A00 + d.val * 2 ^ 18 + a.val * 2 ^ 12 + i.toNat * 2 ^ 0 = n := Option.some.inj enc
  have l0 := d.isLt
  have l1 := a.isLt
  have l2 := i.isLt
  refine ⟨by omega, ?_⟩
  have hm : bitsAt n 24 5 = 4 := by unfold bitsAt; omega
  have t9_3 : bitsAt n 9 3 = 5 := by unfold bitsAt; omega
  have e_d : gAt n 18 = d := gAt_of (by unfold bitsAt; omega)
  have e_a : gAt n 12 = a := gAt_of (by unfold bitsAt; omega)
  have e_i : bvAt n 0 9 = i := bvAt_of (by unfold bitsAt; omega)
  simp [decodeInstr, decodeMaj04, hm, t9_3, e_d, e_a, e_i]

theorem RoundTrip.limm (d i) : RoundTrip.Statement (.limm d i) := by
  intro n enc hw
  have hn : 0x05000000 + d.val * 2 ^ 18 + i.toNat * 2 ^ 0 = n := Option.some.inj enc
  have l0 := d.isLt
  have l1 := i.isLt
  refine ⟨by omega, ?_⟩
  have hm : bitsAt n 24 5 = 5 := by unfold bitsAt; omega
  have t16_2 : bitsAt n 16 2 = 0 := by unfold bitsAt; omega
  have e_d : gAt n 18 = d := gAt_of (by unfold bitsAt; omega)
  have e_i : bvAt n 0 16 = i := bvAt_of (by unfold bitsAt; omega)
  simp [decodeInstr, decodeMaj05, hm, t16_2, e_d, e_i]

theorem RoundTrip.addpc (d i) : RoundTrip.Statement (.addpc d i) := by
  intro n enc hw
  have hn : 0x05010000 + d.val * 2 ^ 18 + i.toNat * 2 ^ 0 = n := Option.some.inj enc
  have l0 := d.isLt
  have l1 := i.isLt
  refine ⟨by omega, ?_⟩
  have hm : bitsAt n 24 5 = 5 := by unfold bitsAt; omega
  have t16_2 : bitsAt n 16 2 = 1 := by unfold bitsAt; omega
  have e_d : gAt n 18 = d := gAt_of (by unfold bitsAt; omega)
  have e_i : bvAt n 0 16 = i := bvAt_of (by unfold bitsAt; omega)
  simp [decodeInstr, decodeMaj05, hm, t16_2, e_d, e_i]

theorem RoundTrip.mul (d a b) : RoundTrip.Statement (.mul d a b) := by
  intro n enc hw
  have hn : 0x06000000 + d.val * 2 ^ 18 + a.val * 2 ^ 12 + b.val * 2 ^ 6 = n := Option.some.inj enc
  have l0 := d.isLt
  have l1 := a.isLt
  have l2 := b.isLt
  refine ⟨by omega, ?_⟩
  have hm : bitsAt n 24 5 = 6 := by unfold bitsAt; omega
  have t0_6 : bitsAt n 0 6 = 0 := by unfold bitsAt; omega
  have e_d : gAt n 18 = d := gAt_of (by unfold bitsAt; omega)
  have e_a : gAt n 12 = a := gAt_of (by unfold bitsAt; omega)
  have e_b : gAt n 6 = b := gAt_of (by unfold bitsAt; omega)
  simp [decodeInstr, decodeMaj06, hm, t0_6, e_d, e_a, e_b]

theorem RoundTrip.mulh (d a b) : RoundTrip.Statement (.mulh d a b) := by
  intro n enc hw
  have hn : 0x06000001 + d.val * 2 ^ 18 + a.val * 2 ^ 12 + b.val * 2 ^ 6 = n := Option.some.inj enc
  have l0 := d.isLt
  have l1 := a.isLt
  have l2 := b.isLt
  refine ⟨by omega, ?_⟩
  have hm : bitsAt n 24 5 = 6 := by unfold bitsAt; omega
  have t0_6 : bitsAt n 0 6 = 1 := by unfold bitsAt; omega
  have e_d : gAt n 18 = d := gAt_of (by unfold bitsAt; omega)
  have e_a : gAt n 12 = a := gAt_of (by unfold bitsAt; omega)
  have e_b : gAt n 6 = b := gAt_of (by unfold bitsAt; omega)
  simp [decodeInstr, decodeMaj06, hm, t0_6, e_d, e_a, e_b]

theorem RoundTrip.mulhn (d a b) : RoundTrip.Statement (.mulhn d a b) := by
  intro n enc hw
  have hn : 0x06000002 + d.val * 2 ^ 18 + a.val * 2 ^ 12 + b.val * 2 ^ 6 = n := Option.some.inj enc
  have l0 := d.isLt
  have l1 := a.isLt
  have l2 := b.isLt
  refine ⟨by omega, ?_⟩
  have hm : bitsAt n 24 5 = 6 := by unfold bitsAt; omega
  have t0_6 : bitsAt n 0 6 = 2 := by unfold bitsAt; omega
  have e_d : gAt n 18 = d := gAt_of (by unfold bitsAt; omega)
  have e_a : gAt n 12 = a := gAt_of (by unfold bitsAt; omega)
  have e_b : gAt n 6 = b := gAt_of (by unfold bitsAt; omega)
  simp [decodeInstr, decodeMaj06, hm, t0_6, e_d, e_a, e_b]

theorem RoundTrip.div (d a b) : RoundTrip.Statement (.div d a b) := by
  intro n enc hw
  have hn : 0x06000008 + d.val * 2 ^ 18 + a.val * 2 ^ 12 + b.val * 2 ^ 6 = n := Option.some.inj enc
  have l0 := d.isLt
  have l1 := a.isLt
  have l2 := b.isLt
  refine ⟨by omega, ?_⟩
  have hm : bitsAt n 24 5 = 6 := by unfold bitsAt; omega
  have t0_6 : bitsAt n 0 6 = 8 := by unfold bitsAt; omega
  have e_d : gAt n 18 = d := gAt_of (by unfold bitsAt; omega)
  have e_a : gAt n 12 = a := gAt_of (by unfold bitsAt; omega)
  have e_b : gAt n 6 = b := gAt_of (by unfold bitsAt; omega)
  simp [decodeInstr, decodeMaj06, hm, t0_6, e_d, e_a, e_b]

theorem RoundTrip.divn (d a b) : RoundTrip.Statement (.divn d a b) := by
  intro n enc hw
  have hn : 0x06000009 + d.val * 2 ^ 18 + a.val * 2 ^ 12 + b.val * 2 ^ 6 = n := Option.some.inj enc
  have l0 := d.isLt
  have l1 := a.isLt
  have l2 := b.isLt
  refine ⟨by omega, ?_⟩
  have hm : bitsAt n 24 5 = 6 := by unfold bitsAt; omega
  have t0_6 : bitsAt n 0 6 = 9 := by unfold bitsAt; omega
  have e_d : gAt n 18 = d := gAt_of (by unfold bitsAt; omega)
  have e_a : gAt n 12 = a := gAt_of (by unfold bitsAt; omega)
  have e_b : gAt n 6 = b := gAt_of (by unfold bitsAt; omega)
  simp [decodeInstr, decodeMaj06, hm, t0_6, e_d, e_a, e_b]

theorem RoundTrip.rem (d a b) : RoundTrip.Statement (.rem d a b) := by
  intro n enc hw
  have hn : 0x0600000A + d.val * 2 ^ 18 + a.val * 2 ^ 12 + b.val * 2 ^ 6 = n := Option.some.inj enc
  have l0 := d.isLt
  have l1 := a.isLt
  have l2 := b.isLt
  refine ⟨by omega, ?_⟩
  have hm : bitsAt n 24 5 = 6 := by unfold bitsAt; omega
  have t0_6 : bitsAt n 0 6 = 10 := by unfold bitsAt; omega
  have e_d : gAt n 18 = d := gAt_of (by unfold bitsAt; omega)
  have e_a : gAt n 12 = a := gAt_of (by unfold bitsAt; omega)
  have e_b : gAt n 6 = b := gAt_of (by unfold bitsAt; omega)
  simp [decodeInstr, decodeMaj06, hm, t0_6, e_d, e_a, e_b]

theorem RoundTrip.remn (d a b) : RoundTrip.Statement (.remn d a b) := by
  intro n enc hw
  have hn : 0x0600000B + d.val * 2 ^ 18 + a.val * 2 ^ 12 + b.val * 2 ^ 6 = n := Option.some.inj enc
  have l0 := d.isLt
  have l1 := a.isLt
  have l2 := b.isLt
  refine ⟨by omega, ?_⟩
  have hm : bitsAt n 24 5 = 6 := by unfold bitsAt; omega
  have t0_6 : bitsAt n 0 6 = 11 := by unfold bitsAt; omega
  have e_d : gAt n 18 = d := gAt_of (by unfold bitsAt; omega)
  have e_a : gAt n 12 = a := gAt_of (by unfold bitsAt; omega)
  have e_b : gAt n 6 = b := gAt_of (by unfold bitsAt; omega)
  simp [decodeInstr, decodeMaj06, hm, t0_6, e_d, e_a, e_b]

theorem RoundTrip.beq (a b o) : RoundTrip.Statement (.beq a b o) := by
  intro n enc hw
  have hn : 0x07000000 + a.val * 2 ^ 18 + b.val * 2 ^ 12 + o.toNat * 2 ^ 0 = n := Option.some.inj enc
  have l0 := a.isLt
  have l1 := b.isLt
  have l2 := o.isLt
  refine ⟨by omega, ?_⟩
  have hm : bitsAt n 24 5 = 7 := by unfold bitsAt; omega
  have t9_3 : bitsAt n 9 3 = 0 := by unfold bitsAt; omega
  have e_a : gAt n 18 = a := gAt_of (by unfold bitsAt; omega)
  have e_b : gAt n 12 = b := gAt_of (by unfold bitsAt; omega)
  have e_o : bvAt n 0 9 = o := bvAt_of (by unfold bitsAt; omega)
  simp [decodeInstr, decodeMaj07, hm, t9_3, e_a, e_b, e_o]

theorem RoundTrip.bne (a b o) : RoundTrip.Statement (.bne a b o) := by
  intro n enc hw
  have hn : 0x07000200 + a.val * 2 ^ 18 + b.val * 2 ^ 12 + o.toNat * 2 ^ 0 = n := Option.some.inj enc
  have l0 := a.isLt
  have l1 := b.isLt
  have l2 := o.isLt
  refine ⟨by omega, ?_⟩
  have hm : bitsAt n 24 5 = 7 := by unfold bitsAt; omega
  have t9_3 : bitsAt n 9 3 = 1 := by unfold bitsAt; omega
  have e_a : gAt n 18 = a := gAt_of (by unfold bitsAt; omega)
  have e_b : gAt n 12 = b := gAt_of (by unfold bitsAt; omega)
  have e_o : bvAt n 0 9 = o := bvAt_of (by unfold bitsAt; omega)
  simp [decodeInstr, decodeMaj07, hm, t9_3, e_a, e_b, e_o]

theorem RoundTrip.blt (a b o) : RoundTrip.Statement (.blt a b o) := by
  intro n enc hw
  have hn : 0x07000400 + a.val * 2 ^ 18 + b.val * 2 ^ 12 + o.toNat * 2 ^ 0 = n := Option.some.inj enc
  have l0 := a.isLt
  have l1 := b.isLt
  have l2 := o.isLt
  refine ⟨by omega, ?_⟩
  have hm : bitsAt n 24 5 = 7 := by unfold bitsAt; omega
  have t9_3 : bitsAt n 9 3 = 2 := by unfold bitsAt; omega
  have e_a : gAt n 18 = a := gAt_of (by unfold bitsAt; omega)
  have e_b : gAt n 12 = b := gAt_of (by unfold bitsAt; omega)
  have e_o : bvAt n 0 9 = o := bvAt_of (by unfold bitsAt; omega)
  simp [decodeInstr, decodeMaj07, hm, t9_3, e_a, e_b, e_o]

theorem RoundTrip.bge (a b o) : RoundTrip.Statement (.bge a b o) := by
  intro n enc hw
  have hn : 0x07000600 + a.val * 2 ^ 18 + b.val * 2 ^ 12 + o.toNat * 2 ^ 0 = n := Option.some.inj enc
  have l0 := a.isLt
  have l1 := b.isLt
  have l2 := o.isLt
  refine ⟨by omega, ?_⟩
  have hm : bitsAt n 24 5 = 7 := by unfold bitsAt; omega
  have t9_3 : bitsAt n 9 3 = 3 := by unfold bitsAt; omega
  have e_a : gAt n 18 = a := gAt_of (by unfold bitsAt; omega)
  have e_b : gAt n 12 = b := gAt_of (by unfold bitsAt; omega)
  have e_o : bvAt n 0 9 = o := bvAt_of (by unfold bitsAt; omega)
  simp [decodeInstr, decodeMaj07, hm, t9_3, e_a, e_b, e_o]

theorem RoundTrip.bltn (a b o) : RoundTrip.Statement (.bltn a b o) := by
  intro n enc hw
  have hn : 0x07000800 + a.val * 2 ^ 18 + b.val * 2 ^ 12 + o.toNat * 2 ^ 0 = n := Option.some.inj enc
  have l0 := a.isLt
  have l1 := b.isLt
  have l2 := o.isLt
  refine ⟨by omega, ?_⟩
  have hm : bitsAt n 24 5 = 7 := by unfold bitsAt; omega
  have t9_3 : bitsAt n 9 3 = 4 := by unfold bitsAt; omega
  have e_a : gAt n 18 = a := gAt_of (by unfold bitsAt; omega)
  have e_b : gAt n 12 = b := gAt_of (by unfold bitsAt; omega)
  have e_o : bvAt n 0 9 = o := bvAt_of (by unfold bitsAt; omega)
  simp [decodeInstr, decodeMaj07, hm, t9_3, e_a, e_b, e_o]

theorem RoundTrip.bgen (a b o) : RoundTrip.Statement (.bgen a b o) := by
  intro n enc hw
  have hn : 0x07000A00 + a.val * 2 ^ 18 + b.val * 2 ^ 12 + o.toNat * 2 ^ 0 = n := Option.some.inj enc
  have l0 := a.isLt
  have l1 := b.isLt
  have l2 := o.isLt
  refine ⟨by omega, ?_⟩
  have hm : bitsAt n 24 5 = 7 := by unfold bitsAt; omega
  have t9_3 : bitsAt n 9 3 = 5 := by unfold bitsAt; omega
  have e_a : gAt n 18 = a := gAt_of (by unfold bitsAt; omega)
  have e_b : gAt n 12 = b := gAt_of (by unfold bitsAt; omega)
  have e_o : bvAt n 0 9 = o := bvAt_of (by unfold bitsAt; omega)
  simp [decodeInstr, decodeMaj07, hm, t9_3, e_a, e_b, e_o]

theorem RoundTrip.bz (a o) : RoundTrip.Statement (.bz a o) := by
  intro n enc hw
  have hn : 0x08000000 + a.val * 2 ^ 16 + o.toNat * 2 ^ 0 = n := Option.some.inj enc
  have l0 := a.isLt
  have l1 := o.isLt
  refine ⟨by omega, ?_⟩
  have hm : bitsAt n 24 5 = 8 := by unfold bitsAt; omega
  have t22_2 : bitsAt n 22 2 = 0 := by unfold bitsAt; omega
  have e_a : gAt n 16 = a := gAt_of (by unfold bitsAt; omega)
  have e_o : bvAt n 0 16 = o := bvAt_of (by unfold bitsAt; omega)
  simp [decodeInstr, decodeMaj08, hm, t22_2, e_a, e_o]

theorem RoundTrip.bnz (a o) : RoundTrip.Statement (.bnz a o) := by
  intro n enc hw
  have hn : 0x08400000 + a.val * 2 ^ 16 + o.toNat * 2 ^ 0 = n := Option.some.inj enc
  have l0 := a.isLt
  have l1 := o.isLt
  refine ⟨by omega, ?_⟩
  have hm : bitsAt n 24 5 = 8 := by unfold bitsAt; omega
  have t22_2 : bitsAt n 22 2 = 1 := by unfold bitsAt; omega
  have e_a : gAt n 16 = a := gAt_of (by unfold bitsAt; omega)
  have e_o : bvAt n 0 16 = o := bvAt_of (by unfold bitsAt; omega)
  simp [decodeInstr, decodeMaj08, hm, t22_2, e_a, e_o]

theorem RoundTrip.jmp (o) : RoundTrip.Statement (.jmp o) := by
  intro n enc hw
  have hn : 0x08800000 + o.toNat * 2 ^ 0 = n := Option.some.inj enc
  have l0 := o.isLt
  refine ⟨by omega, ?_⟩
  have hm : bitsAt n 24 5 = 8 := by unfold bitsAt; omega
  have t22_2 : bitsAt n 22 2 = 2 := by unfold bitsAt; omega
  have e_o : bvAt n 0 22 = o := bvAt_of (by unfold bitsAt; omega)
  simp [decodeInstr, decodeMaj08, hm, t22_2, e_o]

theorem RoundTrip.call (o) : RoundTrip.Statement (.call o) := by
  intro n enc hw
  have hn : 0x08C00000 + o.toNat * 2 ^ 0 = n := Option.some.inj enc
  have l0 := o.isLt
  refine ⟨by omega, ?_⟩
  have hm : bitsAt n 24 5 = 8 := by unfold bitsAt; omega
  have t22_2 : bitsAt n 22 2 = 3 := by unfold bitsAt; omega
  have e_o : bvAt n 0 22 = o := bvAt_of (by unfold bitsAt; omega)
  simp [decodeInstr, decodeMaj08, hm, t22_2, e_o]

theorem RoundTrip.nop : RoundTrip.Statement (.nop) := by
  intro n enc hw
  have hn : 0x09000000 = n := Option.some.inj enc
  refine ⟨by omega, ?_⟩
  have hm : bitsAt n 24 5 = 9 := by unfold bitsAt; omega
  have t0_6 : bitsAt n 0 6 = 0 := by unfold bitsAt; omega
  have t6_18 : bitsAt n 6 18 = 0 := by unfold bitsAt; omega
  simp [decodeInstr, decodeMaj09, zeroField, hm, t0_6, t6_18]

theorem RoundTrip.jr (a) : RoundTrip.Statement (.jr a) := by
  intro n enc hw
  have hn : 0x09000001 + a.val * 2 ^ 12 = n := Option.some.inj enc
  have l0 := a.isLt
  refine ⟨by omega, ?_⟩
  have hm : bitsAt n 24 5 = 9 := by unfold bitsAt; omega
  have t0_6 : bitsAt n 0 6 = 1 := by unfold bitsAt; omega
  have t6_6 : bitsAt n 6 6 = 0 := by unfold bitsAt; omega
  have t18_6 : bitsAt n 18 6 = 0 := by unfold bitsAt; omega
  have e_a : gAt n 12 = a := gAt_of (by unfold bitsAt; omega)
  simp [decodeInstr, decodeMaj09, zeroField, hm, t0_6, t6_6, t18_6, e_a]

theorem RoundTrip.callr (d a) : RoundTrip.Statement (.callr d a) := by
  intro n enc hw
  have hn : 0x09000002 + d.val * 2 ^ 18 + a.val * 2 ^ 12 = n := Option.some.inj enc
  have l0 := d.isLt
  have l1 := a.isLt
  refine ⟨by omega, ?_⟩
  have hm : bitsAt n 24 5 = 9 := by unfold bitsAt; omega
  have t0_6 : bitsAt n 0 6 = 2 := by unfold bitsAt; omega
  have t6_6 : bitsAt n 6 6 = 0 := by unfold bitsAt; omega
  have e_d : gAt n 18 = d := gAt_of (by unfold bitsAt; omega)
  have e_a : gAt n 12 = a := gAt_of (by unfold bitsAt; omega)
  simp [decodeInstr, decodeMaj09, zeroField, hm, t0_6, t6_6, e_d, e_a]

theorem RoundTrip.loop (l a) : RoundTrip.Statement (.loop l a) := by
  intro n enc hw
  have hn : 0x09000004 + l.toNat * 2 ^ 18 + a.val * 2 ^ 12 = n := Option.some.inj enc
  have l0 := l.isLt
  have l1 := a.isLt
  refine ⟨by omega, ?_⟩
  have hm : bitsAt n 24 5 = 9 := by unfold bitsAt; omega
  have t0_6 : bitsAt n 0 6 = 4 := by unfold bitsAt; omega
  have t6_6 : bitsAt n 6 6 = 0 := by unfold bitsAt; omega
  have e_l : bvAt n 18 6 = l := bvAt_of (by unfold bitsAt; omega)
  have e_a : gAt n 12 = a := gAt_of (by unfold bitsAt; omega)
  simp [decodeInstr, decodeMaj09, zeroField, checked, hw, hm, t0_6, t6_6, e_l, e_a]

theorem RoundTrip.loopi (l c) : RoundTrip.Statement (.loopi l c) := by
  intro n enc hw
  have hn : 0x09000005 + l.toNat * 2 ^ 18 + c.toNat * 2 ^ 6 = n := Option.some.inj enc
  have l0 := l.isLt
  have l1 := c.isLt
  refine ⟨by omega, ?_⟩
  have hm : bitsAt n 24 5 = 9 := by unfold bitsAt; omega
  have t0_6 : bitsAt n 0 6 = 5 := by unfold bitsAt; omega
  have e_l : bvAt n 18 6 = l := bvAt_of (by unfold bitsAt; omega)
  have e_c : bvAt n 6 12 = c := bvAt_of (by unfold bitsAt; omega)
  simp [decodeInstr, decodeMaj09, checked, hw, hm, t0_6, e_l, e_c]

theorem RoundTrip.trap (c) : RoundTrip.Statement (.trap c) := by
  intro n enc hw
  have hn : 0x09000010 + c.toNat * 2 ^ 6 = n := Option.some.inj enc
  have l0 := c.isLt
  refine ⟨by omega, ?_⟩
  have hm : bitsAt n 24 5 = 9 := by unfold bitsAt; omega
  have t0_6 : bitsAt n 0 6 = 16 := by unfold bitsAt; omega
  have t18_6 : bitsAt n 18 6 = 0 := by unfold bitsAt; omega
  have e_c : bvAt n 6 12 = c := bvAt_of (by unfold bitsAt; omega)
  simp [decodeInstr, decodeMaj09, zeroField, hm, t0_6, t18_6, e_c]

theorem RoundTrip.eret : RoundTrip.Statement (.eret) := by
  intro n enc hw
  have hn : 0x09000011 = n := Option.some.inj enc
  refine ⟨by omega, ?_⟩
  have hm : bitsAt n 24 5 = 9 := by unfold bitsAt; omega
  have t0_6 : bitsAt n 0 6 = 17 := by unfold bitsAt; omega
  have t6_18 : bitsAt n 6 18 = 0 := by unfold bitsAt; omega
  simp [decodeInstr, decodeMaj09, zeroField, hm, t0_6, t6_18]

theorem RoundTrip.wfe : RoundTrip.Statement (.wfe) := by
  intro n enc hw
  have hn : 0x09000012 = n := Option.some.inj enc
  refine ⟨by omega, ?_⟩
  have hm : bitsAt n 24 5 = 9 := by unfold bitsAt; omega
  have t0_6 : bitsAt n 0 6 = 18 := by unfold bitsAt; omega
  have t6_18 : bitsAt n 6 18 = 0 := by unfold bitsAt; omega
  simp [decodeInstr, decodeMaj09, zeroField, hm, t0_6, t6_18]

theorem RoundTrip.yield : RoundTrip.Statement (.yield) := by
  intro n enc hw
  have hn : 0x09000013 = n := Option.some.inj enc
  refine ⟨by omega, ?_⟩
  have hm : bitsAt n 24 5 = 9 := by unfold bitsAt; omega
  have t0_6 : bitsAt n 0 6 = 19 := by unfold bitsAt; omega
  have t6_18 : bitsAt n 6 18 = 0 := by unfold bitsAt; omega
  simp [decodeInstr, decodeMaj09, zeroField, hm, t0_6, t6_18]

theorem RoundTrip.safe : RoundTrip.Statement (.safe) := by
  intro n enc hw
  have hn : 0x09000014 = n := Option.some.inj enc
  refine ⟨by omega, ?_⟩
  have hm : bitsAt n 24 5 = 9 := by unfold bitsAt; omega
  have t0_6 : bitsAt n 0 6 = 20 := by unfold bitsAt; omega
  have t6_18 : bitsAt n 6 18 = 0 := by unfold bitsAt; omega
  simp [decodeInstr, decodeMaj09, zeroField, hm, t0_6, t6_18]

theorem RoundTrip.halt : RoundTrip.Statement (.halt) := by
  intro n enc hw
  have hn : 0x09000015 = n := Option.some.inj enc
  refine ⟨by omega, ?_⟩
  have hm : bitsAt n 24 5 = 9 := by unfold bitsAt; omega
  have t0_6 : bitsAt n 0 6 = 21 := by unfold bitsAt; omega
  have t6_18 : bitsAt n 6 18 = 0 := by unfold bitsAt; omega
  simp [decodeInstr, decodeMaj09, zeroField, hm, t0_6, t6_18]

theorem RoundTrip.bkpt : RoundTrip.Statement (.bkpt) := by
  intro n enc hw
  have hn : 0x09000016 = n := Option.some.inj enc
  refine ⟨by omega, ?_⟩
  have hm : bitsAt n 24 5 = 9 := by unfold bitsAt; omega
  have t0_6 : bitsAt n 0 6 = 22 := by unfold bitsAt; omega
  have t6_18 : bitsAt n 6 18 = 0 := by unfold bitsAt; omega
  simp [decodeInstr, decodeMaj09, zeroField, hm, t0_6, t6_18]

theorem RoundTrip.tlbi (a b) : RoundTrip.Statement (.tlbi a b) := by
  intro n enc hw
  have hn : 0x09000018 + a.val * 2 ^ 12 + b.val * 2 ^ 6 = n := Option.some.inj enc
  have l0 := a.isLt
  have l1 := b.isLt
  refine ⟨by omega, ?_⟩
  have hm : bitsAt n 24 5 = 9 := by unfold bitsAt; omega
  have t0_6 : bitsAt n 0 6 = 24 := by unfold bitsAt; omega
  have t18_6 : bitsAt n 18 6 = 0 := by unfold bitsAt; omega
  have e_a : gAt n 12 = a := gAt_of (by unfold bitsAt; omega)
  have e_b : gAt n 6 = b := gAt_of (by unfold bitsAt; omega)
  simp [decodeInstr, decodeMaj09, zeroField, hm, t0_6, t18_6, e_a, e_b]

theorem RoundTrip.keyop (d a b) : RoundTrip.Statement (.keyop d a b) := by
  intro n enc hw
  have hn : 0x09000019 + d.val * 2 ^ 18 + a.val * 2 ^ 12 + b.val * 2 ^ 6 = n := Option.some.inj enc
  have l0 := d.isLt
  have l1 := a.isLt
  have l2 := b.isLt
  refine ⟨by omega, ?_⟩
  have hm : bitsAt n 24 5 = 9 := by unfold bitsAt; omega
  have t0_6 : bitsAt n 0 6 = 25 := by unfold bitsAt; omega
  have e_d : gAt n 18 = d := gAt_of (by unfold bitsAt; omega)
  have e_a : gAt n 12 = a := gAt_of (by unfold bitsAt; omega)
  have e_b : gAt n 6 = b := gAt_of (by unfold bitsAt; omega)
  simp [decodeInstr, decodeMaj09, hm, t0_6, e_d, e_a, e_b]

theorem RoundTrip.faultinj (a b) : RoundTrip.Statement (.faultinj a b) := by
  intro n enc hw
  have hn : 0x0900001A + a.val * 2 ^ 12 + b.val * 2 ^ 6 = n := Option.some.inj enc
  have l0 := a.isLt
  have l1 := b.isLt
  refine ⟨by omega, ?_⟩
  have hm : bitsAt n 24 5 = 9 := by unfold bitsAt; omega
  have t0_6 : bitsAt n 0 6 = 26 := by unfold bitsAt; omega
  have t18_6 : bitsAt n 18 6 = 0 := by unfold bitsAt; omega
  have e_a : gAt n 12 = a := gAt_of (by unfold bitsAt; omega)
  have e_b : gAt n 6 = b := gAt_of (by unfold bitsAt; omega)
  simp [decodeInstr, decodeMaj09, zeroField, hm, t0_6, t18_6, e_a, e_b]

theorem RoundTrip.crr (d c) : RoundTrip.Statement (.crr d c) := by
  intro n enc hw
  have hn : 0x0A000000 + d.val * 2 ^ 18 + c.toNat * 2 ^ 0 = n := Option.some.inj enc
  have l0 := d.isLt
  have l1 := c.isLt
  refine ⟨by omega, ?_⟩
  have hm : bitsAt n 24 5 = 10 := by unfold bitsAt; omega
  have t10_2 : bitsAt n 10 2 = 0 := by unfold bitsAt; omega
  have t12_6 : bitsAt n 12 6 = 0 := by unfold bitsAt; omega
  have e_d : gAt n 18 = d := gAt_of (by unfold bitsAt; omega)
  have e_c : bvAt n 0 10 = c := bvAt_of (by unfold bitsAt; omega)
  simp [decodeInstr, decodeMaj0A, zeroField, hm, t10_2, t12_6, e_d, e_c]

theorem RoundTrip.crw (a c) : RoundTrip.Statement (.crw a c) := by
  intro n enc hw
  have hn : 0x0A000400 + a.val * 2 ^ 12 + c.toNat * 2 ^ 0 = n := Option.some.inj enc
  have l0 := a.isLt
  have l1 := c.isLt
  refine ⟨by omega, ?_⟩
  have hm : bitsAt n 24 5 = 10 := by unfold bitsAt; omega
  have t10_2 : bitsAt n 10 2 = 1 := by unfold bitsAt; omega
  have t18_6 : bitsAt n 18 6 = 0 := by unfold bitsAt; omega
  have e_a : gAt n 12 = a := gAt_of (by unfold bitsAt; omega)
  have e_c : bvAt n 0 10 = c := bvAt_of (by unfold bitsAt; omega)
  simp [decodeInstr, decodeMaj0A, zeroField, hm, t10_2, t18_6, e_a, e_c]

theorem RoundTrip.crx (d a c) : RoundTrip.Statement (.crx d a c) := by
  intro n enc hw
  have hn : 0x0A000800 + d.val * 2 ^ 18 + a.val * 2 ^ 12 + c.toNat * 2 ^ 0 = n := Option.some.inj enc
  have l0 := d.isLt
  have l1 := a.isLt
  have l2 := c.isLt
  refine ⟨by omega, ?_⟩
  have hm : bitsAt n 24 5 = 10 := by unfold bitsAt; omega
  have t10_2 : bitsAt n 10 2 = 2 := by unfold bitsAt; omega
  have e_d : gAt n 18 = d := gAt_of (by unfold bitsAt; omega)
  have e_a : gAt n 12 = a := gAt_of (by unfold bitsAt; omega)
  have e_c : bvAt n 0 10 = c := bvAt_of (by unfold bitsAt; omega)
  simp [decodeInstr, decodeMaj0A, hm, t10_2, e_d, e_a, e_c]

theorem RoundTrip.ld (d a t i) : RoundTrip.Statement (.ld d a t i) := by
  intro n enc hw
  have hn : 0x0B000000 + d.val * 2 ^ 18 + a.val * 2 ^ 12 + t.code * 2 ^ 9 + i.toNat * 2 ^ 0 = n := Option.some.inj enc
  have l0 := d.isLt
  have l1 := a.isLt
  have l2 := IType.code_lt t
  have l3 := i.isLt
  refine ⟨by omega, ?_⟩
  have hm : bitsAt n 24 5 = 11 := by unfold bitsAt; omega
  have e_d : gAt n 18 = d := gAt_of (by unfold bitsAt; omega)
  have e_a : gAt n 12 = a := gAt_of (by unfold bitsAt; omega)
  have e_t : bitsAt n 9 3 = t.code := by unfold bitsAt; omega
  have e_i : bvAt n 0 9 = i := bvAt_of (by unfold bitsAt; omega)
  simp [decodeInstr, decodeMaj0B, value, IType.ofCode_code, hm, e_d, e_a, e_t, e_i]

theorem RoundTrip.st (s a t i) : RoundTrip.Statement (.st s a t i) := by
  intro n enc hw
  have hn : 0x0C000000 + s.val * 2 ^ 18 + a.val * 2 ^ 12 + t.code * 2 ^ 9 + i.toNat * 2 ^ 0 = n := Option.some.inj enc
  have l0 := s.isLt
  have l1 := a.isLt
  have l2 := IType.code_lt t
  have l3 := i.isLt
  refine ⟨by omega, ?_⟩
  have hm : bitsAt n 24 5 = 12 := by unfold bitsAt; omega
  have e_s : gAt n 18 = s := gAt_of (by unfold bitsAt; omega)
  have e_a : gAt n 12 = a := gAt_of (by unfold bitsAt; omega)
  have e_t : bitsAt n 9 3 = t.code := by unfold bitsAt; omega
  have e_i : bvAt n 0 9 = i := bvAt_of (by unfold bitsAt; omega)
  simp [decodeInstr, decodeMaj0C, value, IType.ofCode_code, hm, e_s, e_a, e_t, e_i]

theorem RoundTrip.lda (d a t) : RoundTrip.Statement (.lda d a t) := by
  intro n enc hw
  have hn : 0x0D000000 + d.val * 2 ^ 18 + a.val * 2 ^ 12 + t.code * 2 ^ 0 = n := Option.some.inj enc
  have l0 := d.isLt
  have l1 := a.isLt
  have l2 := IType.code_lt t
  refine ⟨by omega, ?_⟩
  have hm : bitsAt n 24 5 = 13 := by unfold bitsAt; omega
  have t3_3 : bitsAt n 3 3 = 0 := by unfold bitsAt; omega
  have t6_6 : bitsAt n 6 6 = 0 := by unfold bitsAt; omega
  have e_d : gAt n 18 = d := gAt_of (by unfold bitsAt; omega)
  have e_a : gAt n 12 = a := gAt_of (by unfold bitsAt; omega)
  have e_t : bitsAt n 0 3 = t.code := by unfold bitsAt; omega
  simp [decodeInstr, decodeMaj0D, zeroField, value, IType.ofCode_code, hm, t3_3, t6_6, e_d, e_a, e_t]

theorem RoundTrip.str (a s t) : RoundTrip.Statement (.str a s t) := by
  intro n enc hw
  have hn : 0x0D000008 + a.val * 2 ^ 12 + s.val * 2 ^ 6 + t.code * 2 ^ 0 = n := Option.some.inj enc
  have l0 := a.isLt
  have l1 := s.isLt
  have l2 := IType.code_lt t
  refine ⟨by omega, ?_⟩
  have hm : bitsAt n 24 5 = 13 := by unfold bitsAt; omega
  have t3_3 : bitsAt n 3 3 = 1 := by unfold bitsAt; omega
  have t18_6 : bitsAt n 18 6 = 0 := by unfold bitsAt; omega
  have e_a : gAt n 12 = a := gAt_of (by unfold bitsAt; omega)
  have e_s : gAt n 6 = s := gAt_of (by unfold bitsAt; omega)
  have e_t : bitsAt n 0 3 = t.code := by unfold bitsAt; omega
  simp [decodeInstr, decodeMaj0D, zeroField, value, IType.ofCode_code, hm, t3_3, t18_6, e_a, e_s, e_t]

theorem RoundTrip.pref (a) : RoundTrip.Statement (.pref a) := by
  intro n enc hw
  have hn : 0x0D000010 + a.val * 2 ^ 12 = n := Option.some.inj enc
  have l0 := a.isLt
  refine ⟨by omega, ?_⟩
  have hm : bitsAt n 24 5 = 13 := by unfold bitsAt; omega
  have t0_3 : bitsAt n 0 3 = 0 := by unfold bitsAt; omega
  have t0_6 : bitsAt n 0 6 = 16 := by unfold bitsAt; omega
  have t3_3 : bitsAt n 3 3 = 2 := by unfold bitsAt; omega
  have t6_6 : bitsAt n 6 6 = 0 := by unfold bitsAt; omega
  have t18_6 : bitsAt n 18 6 = 0 := by unfold bitsAt; omega
  have e_a : gAt n 12 = a := gAt_of (by unfold bitsAt; omega)
  simp [decodeInstr, decodeMaj0D, zeroField, hm, t0_6, t3_3, t6_6, t18_6, e_a]

theorem RoundTrip.fence (s) : RoundTrip.Statement (.fence s) := by
  intro n enc hw
  have hn : 0x0D000020 + s.code * 2 ^ 0 = n := Option.some.inj enc
  have l0 := Scope.code_lt s
  refine ⟨by omega, ?_⟩
  have hm : bitsAt n 24 5 = 13 := by unfold bitsAt; omega
  have t3_3 : bitsAt n 3 3 = 4 := by unfold bitsAt; omega
  have t6_18 : bitsAt n 6 18 = 0 := by unfold bitsAt; omega
  have e_s : bitsAt n 0 3 = s.code := by unfold bitsAt; omega
  have t0_6 : bitsAt n 0 6 = s.code + 32 := by unfold bitsAt; omega
  simp [decodeInstr, decodeMaj0D, zeroField, value, Scope.ofCode_code, hm, t3_3, t6_18, e_s, t0_6]

theorem RoundTrip.fenceI : RoundTrip.Statement (.fenceI) := by
  intro n enc hw
  have hn : 0x0D000028 = n := Option.some.inj enc
  refine ⟨by omega, ?_⟩
  have hm : bitsAt n 24 5 = 13 := by unfold bitsAt; omega
  have t0_3 : bitsAt n 0 3 = 0 := by unfold bitsAt; omega
  have t0_6 : bitsAt n 0 6 = 40 := by unfold bitsAt; omega
  have t3_3 : bitsAt n 3 3 = 5 := by unfold bitsAt; omega
  have t6_18 : bitsAt n 6 18 = 0 := by unfold bitsAt; omega
  simp [decodeInstr, decodeMaj0D, zeroField, hm, t0_6, t3_3, t6_18]

theorem RoundTrip.amoaddI64 (d a b o) : RoundTrip.Statement (.amoaddI64 d a b o) := by
  intro n enc hw
  have hn : 0x0E000000 + d.val * 2 ^ 18 + a.val * 2 ^ 12 + b.val * 2 ^ 6 + o.code * 2 ^ 0 = n := Option.some.inj enc
  have l0 := d.isLt
  have l1 := a.isLt
  have l2 := b.isLt
  have l3 := Ord.code_lt o
  refine ⟨by omega, ?_⟩
  have hm : bitsAt n 24 5 = 14 := by unfold bitsAt; omega
  have t2_4 : bitsAt n 2 4 = 0 := by unfold bitsAt; omega
  have e_d : gAt n 18 = d := gAt_of (by unfold bitsAt; omega)
  have e_a : gAt n 12 = a := gAt_of (by unfold bitsAt; omega)
  have e_b : gAt n 6 = b := gAt_of (by unfold bitsAt; omega)
  have e_o : bitsAt n 0 2 = o.code := by unfold bitsAt; omega
  simp [decodeInstr, decodeMaj0E, value, Ord.ofCode_code, hm, t2_4, e_d, e_a, e_b, e_o]

theorem RoundTrip.amoand (d a b o) : RoundTrip.Statement (.amoand d a b o) := by
  intro n enc hw
  have hn : 0x0E000004 + d.val * 2 ^ 18 + a.val * 2 ^ 12 + b.val * 2 ^ 6 + o.code * 2 ^ 0 = n := Option.some.inj enc
  have l0 := d.isLt
  have l1 := a.isLt
  have l2 := b.isLt
  have l3 := Ord.code_lt o
  refine ⟨by omega, ?_⟩
  have hm : bitsAt n 24 5 = 14 := by unfold bitsAt; omega
  have t2_4 : bitsAt n 2 4 = 1 := by unfold bitsAt; omega
  have e_d : gAt n 18 = d := gAt_of (by unfold bitsAt; omega)
  have e_a : gAt n 12 = a := gAt_of (by unfold bitsAt; omega)
  have e_b : gAt n 6 = b := gAt_of (by unfold bitsAt; omega)
  have e_o : bitsAt n 0 2 = o.code := by unfold bitsAt; omega
  simp [decodeInstr, decodeMaj0E, value, Ord.ofCode_code, hm, t2_4, e_d, e_a, e_b, e_o]

theorem RoundTrip.amoor (d a b o) : RoundTrip.Statement (.amoor d a b o) := by
  intro n enc hw
  have hn : 0x0E000008 + d.val * 2 ^ 18 + a.val * 2 ^ 12 + b.val * 2 ^ 6 + o.code * 2 ^ 0 = n := Option.some.inj enc
  have l0 := d.isLt
  have l1 := a.isLt
  have l2 := b.isLt
  have l3 := Ord.code_lt o
  refine ⟨by omega, ?_⟩
  have hm : bitsAt n 24 5 = 14 := by unfold bitsAt; omega
  have t2_4 : bitsAt n 2 4 = 2 := by unfold bitsAt; omega
  have e_d : gAt n 18 = d := gAt_of (by unfold bitsAt; omega)
  have e_a : gAt n 12 = a := gAt_of (by unfold bitsAt; omega)
  have e_b : gAt n 6 = b := gAt_of (by unfold bitsAt; omega)
  have e_o : bitsAt n 0 2 = o.code := by unfold bitsAt; omega
  simp [decodeInstr, decodeMaj0E, value, Ord.ofCode_code, hm, t2_4, e_d, e_a, e_b, e_o]

theorem RoundTrip.amoxor (d a b o) : RoundTrip.Statement (.amoxor d a b o) := by
  intro n enc hw
  have hn : 0x0E00000C + d.val * 2 ^ 18 + a.val * 2 ^ 12 + b.val * 2 ^ 6 + o.code * 2 ^ 0 = n := Option.some.inj enc
  have l0 := d.isLt
  have l1 := a.isLt
  have l2 := b.isLt
  have l3 := Ord.code_lt o
  refine ⟨by omega, ?_⟩
  have hm : bitsAt n 24 5 = 14 := by unfold bitsAt; omega
  have t2_4 : bitsAt n 2 4 = 3 := by unfold bitsAt; omega
  have e_d : gAt n 18 = d := gAt_of (by unfold bitsAt; omega)
  have e_a : gAt n 12 = a := gAt_of (by unfold bitsAt; omega)
  have e_b : gAt n 6 = b := gAt_of (by unfold bitsAt; omega)
  have e_o : bitsAt n 0 2 = o.code := by unfold bitsAt; omega
  simp [decodeInstr, decodeMaj0E, value, Ord.ofCode_code, hm, t2_4, e_d, e_a, e_b, e_o]

theorem RoundTrip.amomin (d a b o) : RoundTrip.Statement (.amomin d a b o) := by
  intro n enc hw
  have hn : 0x0E000010 + d.val * 2 ^ 18 + a.val * 2 ^ 12 + b.val * 2 ^ 6 + o.code * 2 ^ 0 = n := Option.some.inj enc
  have l0 := d.isLt
  have l1 := a.isLt
  have l2 := b.isLt
  have l3 := Ord.code_lt o
  refine ⟨by omega, ?_⟩
  have hm : bitsAt n 24 5 = 14 := by unfold bitsAt; omega
  have t2_4 : bitsAt n 2 4 = 4 := by unfold bitsAt; omega
  have e_d : gAt n 18 = d := gAt_of (by unfold bitsAt; omega)
  have e_a : gAt n 12 = a := gAt_of (by unfold bitsAt; omega)
  have e_b : gAt n 6 = b := gAt_of (by unfold bitsAt; omega)
  have e_o : bitsAt n 0 2 = o.code := by unfold bitsAt; omega
  simp [decodeInstr, decodeMaj0E, value, Ord.ofCode_code, hm, t2_4, e_d, e_a, e_b, e_o]

theorem RoundTrip.amomax (d a b o) : RoundTrip.Statement (.amomax d a b o) := by
  intro n enc hw
  have hn : 0x0E000014 + d.val * 2 ^ 18 + a.val * 2 ^ 12 + b.val * 2 ^ 6 + o.code * 2 ^ 0 = n := Option.some.inj enc
  have l0 := d.isLt
  have l1 := a.isLt
  have l2 := b.isLt
  have l3 := Ord.code_lt o
  refine ⟨by omega, ?_⟩
  have hm : bitsAt n 24 5 = 14 := by unfold bitsAt; omega
  have t2_4 : bitsAt n 2 4 = 5 := by unfold bitsAt; omega
  have e_d : gAt n 18 = d := gAt_of (by unfold bitsAt; omega)
  have e_a : gAt n 12 = a := gAt_of (by unfold bitsAt; omega)
  have e_b : gAt n 6 = b := gAt_of (by unfold bitsAt; omega)
  have e_o : bitsAt n 0 2 = o.code := by unfold bitsAt; omega
  simp [decodeInstr, decodeMaj0E, value, Ord.ofCode_code, hm, t2_4, e_d, e_a, e_b, e_o]

theorem RoundTrip.amominn (d a b o) : RoundTrip.Statement (.amominn d a b o) := by
  intro n enc hw
  have hn : 0x0E000018 + d.val * 2 ^ 18 + a.val * 2 ^ 12 + b.val * 2 ^ 6 + o.code * 2 ^ 0 = n := Option.some.inj enc
  have l0 := d.isLt
  have l1 := a.isLt
  have l2 := b.isLt
  have l3 := Ord.code_lt o
  refine ⟨by omega, ?_⟩
  have hm : bitsAt n 24 5 = 14 := by unfold bitsAt; omega
  have t2_4 : bitsAt n 2 4 = 6 := by unfold bitsAt; omega
  have e_d : gAt n 18 = d := gAt_of (by unfold bitsAt; omega)
  have e_a : gAt n 12 = a := gAt_of (by unfold bitsAt; omega)
  have e_b : gAt n 6 = b := gAt_of (by unfold bitsAt; omega)
  have e_o : bitsAt n 0 2 = o.code := by unfold bitsAt; omega
  simp [decodeInstr, decodeMaj0E, value, Ord.ofCode_code, hm, t2_4, e_d, e_a, e_b, e_o]

theorem RoundTrip.amomaxn (d a b o) : RoundTrip.Statement (.amomaxn d a b o) := by
  intro n enc hw
  have hn : 0x0E00001C + d.val * 2 ^ 18 + a.val * 2 ^ 12 + b.val * 2 ^ 6 + o.code * 2 ^ 0 = n := Option.some.inj enc
  have l0 := d.isLt
  have l1 := a.isLt
  have l2 := b.isLt
  have l3 := Ord.code_lt o
  refine ⟨by omega, ?_⟩
  have hm : bitsAt n 24 5 = 14 := by unfold bitsAt; omega
  have t2_4 : bitsAt n 2 4 = 7 := by unfold bitsAt; omega
  have e_d : gAt n 18 = d := gAt_of (by unfold bitsAt; omega)
  have e_a : gAt n 12 = a := gAt_of (by unfold bitsAt; omega)
  have e_b : gAt n 6 = b := gAt_of (by unfold bitsAt; omega)
  have e_o : bitsAt n 0 2 = o.code := by unfold bitsAt; omega
  simp [decodeInstr, decodeMaj0E, value, Ord.ofCode_code, hm, t2_4, e_d, e_a, e_b, e_o]

theorem RoundTrip.amoswapI64 (d a b o) : RoundTrip.Statement (.amoswapI64 d a b o) := by
  intro n enc hw
  have hn : 0x0E000020 + d.val * 2 ^ 18 + a.val * 2 ^ 12 + b.val * 2 ^ 6 + o.code * 2 ^ 0 = n := Option.some.inj enc
  have l0 := d.isLt
  have l1 := a.isLt
  have l2 := b.isLt
  have l3 := Ord.code_lt o
  refine ⟨by omega, ?_⟩
  have hm : bitsAt n 24 5 = 14 := by unfold bitsAt; omega
  have t2_4 : bitsAt n 2 4 = 8 := by unfold bitsAt; omega
  have e_d : gAt n 18 = d := gAt_of (by unfold bitsAt; omega)
  have e_a : gAt n 12 = a := gAt_of (by unfold bitsAt; omega)
  have e_b : gAt n 6 = b := gAt_of (by unfold bitsAt; omega)
  have e_o : bitsAt n 0 2 = o.code := by unfold bitsAt; omega
  simp [decodeInstr, decodeMaj0E, value, Ord.ofCode_code, hm, t2_4, e_d, e_a, e_b, e_o]

theorem RoundTrip.casI64 (d a b o) : RoundTrip.Statement (.casI64 d a b o) := by
  intro n enc hw
  have hn : 0x0E000024 + d.val * 2 ^ 18 + a.val * 2 ^ 12 + b.val * 2 ^ 6 + o.code * 2 ^ 0 = n := Option.some.inj enc
  have l0 := d.isLt
  have l1 := a.isLt
  have l2 := b.isLt
  have l3 := Ord.code_lt o
  refine ⟨by omega, ?_⟩
  have hm : bitsAt n 24 5 = 14 := by unfold bitsAt; omega
  have t2_4 : bitsAt n 2 4 = 9 := by unfold bitsAt; omega
  have e_d : gAt n 18 = d := gAt_of (by unfold bitsAt; omega)
  have e_a : gAt n 12 = a := gAt_of (by unfold bitsAt; omega)
  have e_b : gAt n 6 = b := gAt_of (by unfold bitsAt; omega)
  have e_o : bitsAt n 0 2 = o.code := by unfold bitsAt; omega
  simp [decodeInstr, decodeMaj0E, value, Ord.ofCode_code, hm, t2_4, e_d, e_a, e_b, e_o]

theorem RoundTrip.amoaddI32 (d a b o) : RoundTrip.Statement (.amoaddI32 d a b o) := by
  intro n enc hw
  have hn : 0x0E000028 + d.val * 2 ^ 18 + a.val * 2 ^ 12 + b.val * 2 ^ 6 + o.code * 2 ^ 0 = n := Option.some.inj enc
  have l0 := d.isLt
  have l1 := a.isLt
  have l2 := b.isLt
  have l3 := Ord.code_lt o
  refine ⟨by omega, ?_⟩
  have hm : bitsAt n 24 5 = 14 := by unfold bitsAt; omega
  have t2_4 : bitsAt n 2 4 = 10 := by unfold bitsAt; omega
  have e_d : gAt n 18 = d := gAt_of (by unfold bitsAt; omega)
  have e_a : gAt n 12 = a := gAt_of (by unfold bitsAt; omega)
  have e_b : gAt n 6 = b := gAt_of (by unfold bitsAt; omega)
  have e_o : bitsAt n 0 2 = o.code := by unfold bitsAt; omega
  simp [decodeInstr, decodeMaj0E, value, Ord.ofCode_code, hm, t2_4, e_d, e_a, e_b, e_o]

theorem RoundTrip.amoswapI32 (d a b o) : RoundTrip.Statement (.amoswapI32 d a b o) := by
  intro n enc hw
  have hn : 0x0E00002C + d.val * 2 ^ 18 + a.val * 2 ^ 12 + b.val * 2 ^ 6 + o.code * 2 ^ 0 = n := Option.some.inj enc
  have l0 := d.isLt
  have l1 := a.isLt
  have l2 := b.isLt
  have l3 := Ord.code_lt o
  refine ⟨by omega, ?_⟩
  have hm : bitsAt n 24 5 = 14 := by unfold bitsAt; omega
  have t2_4 : bitsAt n 2 4 = 11 := by unfold bitsAt; omega
  have e_d : gAt n 18 = d := gAt_of (by unfold bitsAt; omega)
  have e_a : gAt n 12 = a := gAt_of (by unfold bitsAt; omega)
  have e_b : gAt n 6 = b := gAt_of (by unfold bitsAt; omega)
  have e_o : bitsAt n 0 2 = o.code := by unfold bitsAt; omega
  simp [decodeInstr, decodeMaj0E, value, Ord.ofCode_code, hm, t2_4, e_d, e_a, e_b, e_o]

theorem RoundTrip.casI32 (d a b o) : RoundTrip.Statement (.casI32 d a b o) := by
  intro n enc hw
  have hn : 0x0E000030 + d.val * 2 ^ 18 + a.val * 2 ^ 12 + b.val * 2 ^ 6 + o.code * 2 ^ 0 = n := Option.some.inj enc
  have l0 := d.isLt
  have l1 := a.isLt
  have l2 := b.isLt
  have l3 := Ord.code_lt o
  refine ⟨by omega, ?_⟩
  have hm : bitsAt n 24 5 = 14 := by unfold bitsAt; omega
  have t2_4 : bitsAt n 2 4 = 12 := by unfold bitsAt; omega
  have e_d : gAt n 18 = d := gAt_of (by unfold bitsAt; omega)
  have e_a : gAt n 12 = a := gAt_of (by unfold bitsAt; omega)
  have e_b : gAt n 6 = b := gAt_of (by unfold bitsAt; omega)
  have e_o : bitsAt n 0 2 = o.code := by unfold bitsAt; omega
  simp [decodeInstr, decodeMaj0E, value, Ord.ofCode_code, hm, t2_4, e_d, e_a, e_b, e_o]

theorem RoundTrip.amofadd (d a b o) : RoundTrip.Statement (.amofadd d a b o) := by
  intro n enc hw
  have hn : 0x0E000034 + d.val * 2 ^ 18 + a.val * 2 ^ 12 + b.val * 2 ^ 6 + o.code * 2 ^ 0 = n := Option.some.inj enc
  have l0 := d.isLt
  have l1 := a.isLt
  have l2 := b.isLt
  have l3 := Ord.code_lt o
  refine ⟨by omega, ?_⟩
  have hm : bitsAt n 24 5 = 14 := by unfold bitsAt; omega
  have t2_4 : bitsAt n 2 4 = 13 := by unfold bitsAt; omega
  have e_d : gAt n 18 = d := gAt_of (by unfold bitsAt; omega)
  have e_a : gAt n 12 = a := gAt_of (by unfold bitsAt; omega)
  have e_b : gAt n 6 = b := gAt_of (by unfold bitsAt; omega)
  have e_o : bitsAt n 0 2 = o.code := by unfold bitsAt; omega
  simp [decodeInstr, decodeMaj0E, value, Ord.ofCode_code, hm, t2_4, e_d, e_a, e_b, e_o]

theorem RoundTrip.pgive (a) : RoundTrip.Statement (.pgive a) := by
  intro n enc hw
  have hn : 0x0F000000 + a.val * 2 ^ 12 = n := Option.some.inj enc
  have l0 := a.isLt
  refine ⟨by omega, ?_⟩
  have hm : bitsAt n 24 5 = 15 := by unfold bitsAt; omega
  have t0_6 : bitsAt n 0 6 = 0 := by unfold bitsAt; omega
  have t6_6 : bitsAt n 6 6 = 0 := by unfold bitsAt; omega
  have t18_6 : bitsAt n 18 6 = 0 := by unfold bitsAt; omega
  have e_a : gAt n 12 = a := gAt_of (by unfold bitsAt; omega)
  simp [decodeInstr, decodeMaj0F, zeroField, hm, t0_6, t6_6, t18_6, e_a]

theorem RoundTrip.ptake (a) : RoundTrip.Statement (.ptake a) := by
  intro n enc hw
  have hn : 0x0F000001 + a.val * 2 ^ 12 = n := Option.some.inj enc
  have l0 := a.isLt
  refine ⟨by omega, ?_⟩
  have hm : bitsAt n 24 5 = 15 := by unfold bitsAt; omega
  have t0_6 : bitsAt n 0 6 = 1 := by unfold bitsAt; omega
  have t6_6 : bitsAt n 6 6 = 0 := by unfold bitsAt; omega
  have t18_6 : bitsAt n 18 6 = 0 := by unfold bitsAt; omega
  have e_a : gAt n 12 = a := gAt_of (by unfold bitsAt; omega)
  simp [decodeInstr, decodeMaj0F, zeroField, hm, t0_6, t6_6, t18_6, e_a]

theorem RoundTrip.pstat (d a) : RoundTrip.Statement (.pstat d a) := by
  intro n enc hw
  have hn : 0x0F000002 + d.val * 2 ^ 18 + a.val * 2 ^ 12 = n := Option.some.inj enc
  have l0 := d.isLt
  have l1 := a.isLt
  refine ⟨by omega, ?_⟩
  have hm : bitsAt n 24 5 = 15 := by unfold bitsAt; omega
  have t0_6 : bitsAt n 0 6 = 2 := by unfold bitsAt; omega
  have t6_6 : bitsAt n 6 6 = 0 := by unfold bitsAt; omega
  have e_d : gAt n 18 = d := gAt_of (by unfold bitsAt; omega)
  have e_a : gAt n 12 = a := gAt_of (by unfold bitsAt; omega)
  simp [decodeInstr, decodeMaj0F, zeroField, hm, t0_6, t6_6, e_d, e_a]

theorem RoundTrip.binit (a b) : RoundTrip.Statement (.binit a b) := by
  intro n enc hw
  have hn : 0x0F000008 + a.val * 2 ^ 12 + b.val * 2 ^ 6 = n := Option.some.inj enc
  have l0 := a.isLt
  have l1 := b.isLt
  refine ⟨by omega, ?_⟩
  have hm : bitsAt n 24 5 = 15 := by unfold bitsAt; omega
  have t0_6 : bitsAt n 0 6 = 8 := by unfold bitsAt; omega
  have t18_6 : bitsAt n 18 6 = 0 := by unfold bitsAt; omega
  have e_a : gAt n 12 = a := gAt_of (by unfold bitsAt; omega)
  have e_b : gAt n 6 = b := gAt_of (by unfold bitsAt; omega)
  simp [decodeInstr, decodeMaj0F, zeroField, hm, t0_6, t18_6, e_a, e_b]

theorem RoundTrip.barrive (d a) : RoundTrip.Statement (.barrive d a) := by
  intro n enc hw
  have hn : 0x0F000009 + d.val * 2 ^ 18 + a.val * 2 ^ 12 = n := Option.some.inj enc
  have l0 := d.isLt
  have l1 := a.isLt
  refine ⟨by omega, ?_⟩
  have hm : bitsAt n 24 5 = 15 := by unfold bitsAt; omega
  have t0_6 : bitsAt n 0 6 = 9 := by unfold bitsAt; omega
  have t6_6 : bitsAt n 6 6 = 0 := by unfold bitsAt; omega
  have e_d : gAt n 18 = d := gAt_of (by unfold bitsAt; omega)
  have e_a : gAt n 12 = a := gAt_of (by unfold bitsAt; omega)
  simp [decodeInstr, decodeMaj0F, zeroField, hm, t0_6, t6_6, e_d, e_a]

theorem RoundTrip.bexpect (a b) : RoundTrip.Statement (.bexpect a b) := by
  intro n enc hw
  have hn : 0x0F00000A + a.val * 2 ^ 12 + b.val * 2 ^ 6 = n := Option.some.inj enc
  have l0 := a.isLt
  have l1 := b.isLt
  refine ⟨by omega, ?_⟩
  have hm : bitsAt n 24 5 = 15 := by unfold bitsAt; omega
  have t0_6 : bitsAt n 0 6 = 10 := by unfold bitsAt; omega
  have t18_6 : bitsAt n 18 6 = 0 := by unfold bitsAt; omega
  have e_a : gAt n 12 = a := gAt_of (by unfold bitsAt; omega)
  have e_b : gAt n 6 = b := gAt_of (by unfold bitsAt; omega)
  simp [decodeInstr, decodeMaj0F, zeroField, hm, t0_6, t18_6, e_a, e_b]

theorem RoundTrip.bwait (a b) : RoundTrip.Statement (.bwait a b) := by
  intro n enc hw
  have hn : 0x0F00000B + a.val * 2 ^ 12 + b.val * 2 ^ 6 = n := Option.some.inj enc
  have l0 := a.isLt
  have l1 := b.isLt
  refine ⟨by omega, ?_⟩
  have hm : bitsAt n 24 5 = 15 := by unfold bitsAt; omega
  have t0_6 : bitsAt n 0 6 = 11 := by unfold bitsAt; omega
  have t18_6 : bitsAt n 18 6 = 0 := by unfold bitsAt; omega
  have e_a : gAt n 12 = a := gAt_of (by unfold bitsAt; omega)
  have e_b : gAt n 6 = b := gAt_of (by unfold bitsAt; omega)
  simp [decodeInstr, decodeMaj0F, zeroField, hm, t0_6, t18_6, e_a, e_b]

theorem RoundTrip.btry (d a b) : RoundTrip.Statement (.btry d a b) := by
  intro n enc hw
  have hn : 0x0F00000C + d.val * 2 ^ 18 + a.val * 2 ^ 12 + b.val * 2 ^ 6 = n := Option.some.inj enc
  have l0 := d.isLt
  have l1 := a.isLt
  have l2 := b.isLt
  refine ⟨by omega, ?_⟩
  have hm : bitsAt n 24 5 = 15 := by unfold bitsAt; omega
  have t0_6 : bitsAt n 0 6 = 12 := by unfold bitsAt; omega
  have e_d : gAt n 18 = d := gAt_of (by unfold bitsAt; omega)
  have e_a : gAt n 12 = a := gAt_of (by unfold bitsAt; omega)
  have e_b : gAt n 6 = b := gAt_of (by unfold bitsAt; omega)
  simp [decodeInstr, decodeMaj0F, hm, t0_6, e_d, e_a, e_b]

theorem RoundTrip.vld (v a k z) : RoundTrip.Statement (.vld v a k z) := by
  intro n enc hw
  have hn : 0x10000000 + v.val * 2 ^ 19 + a.val * 2 ^ 13 + k.val * 2 ^ 4 + z.code * 2 ^ 0 = n := Option.some.inj enc
  have l0 := v.isLt
  have l1 := a.isLt
  have l2 := k.isLt
  have l3 := W2.code_lt z
  refine ⟨by omega, ?_⟩
  have hm : bitsAt n 24 5 = 16 := by unfold bitsAt; omega
  have t2_2 : bitsAt n 2 2 = 0 := by unfold bitsAt; omega
  have t7_6 : bitsAt n 7 6 = 0 := by unfold bitsAt; omega
  have e_v : vAt n 19 = v := vAt_of (by unfold bitsAt; omega)
  have e_a : gAt n 13 = a := gAt_of (by unfold bitsAt; omega)
  have e_k : kAt n 4 = k := kAt_of (by unfold bitsAt; omega)
  have e_z : bitsAt n 0 2 = z.code := by unfold bitsAt; omega
  simp [decodeInstr, decodeMaj10, zeroField, value, W2.ofCode_code, hm, t2_2, t7_6, e_v, e_a, e_k, e_z]

theorem RoundTrip.vst (v a k z) : RoundTrip.Statement (.vst v a k z) := by
  intro n enc hw
  have hn : 0x10000004 + v.val * 2 ^ 19 + a.val * 2 ^ 13 + k.val * 2 ^ 4 + z.code * 2 ^ 0 = n := Option.some.inj enc
  have l0 := v.isLt
  have l1 := a.isLt
  have l2 := k.isLt
  have l3 := W2.code_lt z
  refine ⟨by omega, ?_⟩
  have hm : bitsAt n 24 5 = 16 := by unfold bitsAt; omega
  have t2_2 : bitsAt n 2 2 = 1 := by unfold bitsAt; omega
  have t7_6 : bitsAt n 7 6 = 0 := by unfold bitsAt; omega
  have e_v : vAt n 19 = v := vAt_of (by unfold bitsAt; omega)
  have e_a : gAt n 13 = a := gAt_of (by unfold bitsAt; omega)
  have e_k : kAt n 4 = k := kAt_of (by unfold bitsAt; omega)
  have e_z : bitsAt n 0 2 = z.code := by unfold bitsAt; omega
  simp [decodeInstr, decodeMaj10, zeroField, value, W2.ofCode_code, hm, t2_2, t7_6, e_v, e_a, e_k, e_z]

theorem RoundTrip.vldm (v a) : RoundTrip.Statement (.vldm v a) := by
  intro n enc hw
  have hn : 0x10000008 + v.val * 2 ^ 19 + a.val * 2 ^ 13 = n := Option.some.inj enc
  have l0 := v.isLt
  have l1 := a.isLt
  refine ⟨by omega, ?_⟩
  have hm : bitsAt n 24 5 = 16 := by unfold bitsAt; omega
  have t0_2 : bitsAt n 0 2 = 0 := by unfold bitsAt; omega
  have t0_4 : bitsAt n 0 4 = 8 := by unfold bitsAt; omega
  have t2_2 : bitsAt n 2 2 = 2 := by unfold bitsAt; omega
  have t4_9 : bitsAt n 4 9 = 0 := by unfold bitsAt; omega
  have e_v : k5At n 19 = some v := k5At_of (by unfold bitsAt; omega)
  have e_a : gAt n 13 = a := gAt_of (by unfold bitsAt; omega)
  simp [decodeInstr, decodeMaj10, zeroField, value, hm, t0_4, t2_2, t4_9, e_v, e_a]

theorem RoundTrip.vstm (v a) : RoundTrip.Statement (.vstm v a) := by
  intro n enc hw
  have hn : 0x1000000C + v.val * 2 ^ 19 + a.val * 2 ^ 13 = n := Option.some.inj enc
  have l0 := v.isLt
  have l1 := a.isLt
  refine ⟨by omega, ?_⟩
  have hm : bitsAt n 24 5 = 16 := by unfold bitsAt; omega
  have t0_2 : bitsAt n 0 2 = 0 := by unfold bitsAt; omega
  have t0_4 : bitsAt n 0 4 = 12 := by unfold bitsAt; omega
  have t2_2 : bitsAt n 2 2 = 3 := by unfold bitsAt; omega
  have t4_9 : bitsAt n 4 9 = 0 := by unfold bitsAt; omega
  have e_v : k5At n 19 = some v := k5At_of (by unfold bitsAt; omega)
  have e_a : gAt n 13 = a := gAt_of (by unfold bitsAt; omega)
  simp [decodeInstr, decodeMaj10, zeroField, value, hm, t0_4, t2_2, t4_9, e_v, e_a]

theorem RoundTrip.vlds (v a b k z) : RoundTrip.Statement (.vlds v a b k z) := by
  intro n enc hw
  have hn : 0x11000000 + v.val * 2 ^ 19 + a.val * 2 ^ 13 + b.val * 2 ^ 7 + k.val * 2 ^ 4 + z.code * 2 ^ 0 = n := Option.some.inj enc
  have l0 := v.isLt
  have l1 := a.isLt
  have l2 := b.isLt
  have l3 := k.isLt
  have l4 := W2.code_lt z
  refine ⟨by omega, ?_⟩
  have hm : bitsAt n 24 5 = 17 := by unfold bitsAt; omega
  have t2_2 : bitsAt n 2 2 = 0 := by unfold bitsAt; omega
  have e_v : vAt n 19 = v := vAt_of (by unfold bitsAt; omega)
  have e_a : gAt n 13 = a := gAt_of (by unfold bitsAt; omega)
  have e_b : gAt n 7 = b := gAt_of (by unfold bitsAt; omega)
  have e_k : kAt n 4 = k := kAt_of (by unfold bitsAt; omega)
  have e_z : bitsAt n 0 2 = z.code := by unfold bitsAt; omega
  simp [decodeInstr, decodeMaj11, value, W2.ofCode_code, hm, t2_2, e_v, e_a, e_b, e_k, e_z]

theorem RoundTrip.vsts (v a b k z) : RoundTrip.Statement (.vsts v a b k z) := by
  intro n enc hw
  have hn : 0x11000004 + v.val * 2 ^ 19 + a.val * 2 ^ 13 + b.val * 2 ^ 7 + k.val * 2 ^ 4 + z.code * 2 ^ 0 = n := Option.some.inj enc
  have l0 := v.isLt
  have l1 := a.isLt
  have l2 := b.isLt
  have l3 := k.isLt
  have l4 := W2.code_lt z
  refine ⟨by omega, ?_⟩
  have hm : bitsAt n 24 5 = 17 := by unfold bitsAt; omega
  have t2_2 : bitsAt n 2 2 = 1 := by unfold bitsAt; omega
  have e_v : vAt n 19 = v := vAt_of (by unfold bitsAt; omega)
  have e_a : gAt n 13 = a := gAt_of (by unfold bitsAt; omega)
  have e_b : gAt n 7 = b := gAt_of (by unfold bitsAt; omega)
  have e_k : kAt n 4 = k := kAt_of (by unfold bitsAt; omega)
  have e_z : bitsAt n 0 2 = z.code := by unfold bitsAt; omega
  simp [decodeInstr, decodeMaj11, value, W2.ofCode_code, hm, t2_2, e_v, e_a, e_b, e_k, e_z]

theorem RoundTrip.vldb (v a k z) : RoundTrip.Statement (.vldb v a k z) := by
  intro n enc hw
  have hn : 0x11000008 + v.val * 2 ^ 19 + a.val * 2 ^ 13 + k.val * 2 ^ 4 + z.code * 2 ^ 0 = n := Option.some.inj enc
  have l0 := v.isLt
  have l1 := a.isLt
  have l2 := k.isLt
  have l3 := W2.code_lt z
  refine ⟨by omega, ?_⟩
  have hm : bitsAt n 24 5 = 17 := by unfold bitsAt; omega
  have t2_2 : bitsAt n 2 2 = 2 := by unfold bitsAt; omega
  have t7_6 : bitsAt n 7 6 = 0 := by unfold bitsAt; omega
  have e_v : vAt n 19 = v := vAt_of (by unfold bitsAt; omega)
  have e_a : gAt n 13 = a := gAt_of (by unfold bitsAt; omega)
  have e_k : kAt n 4 = k := kAt_of (by unfold bitsAt; omega)
  have e_z : bitsAt n 0 2 = z.code := by unfold bitsAt; omega
  simp [decodeInstr, decodeMaj11, zeroField, value, W2.ofCode_code, hm, t2_2, t7_6, e_v, e_a, e_k, e_z]

theorem RoundTrip.vgath (v a x k z) : RoundTrip.Statement (.vgath v a x k z) := by
  intro n enc hw
  have hn : 0x12000000 + v.val * 2 ^ 19 + a.val * 2 ^ 13 + x.val * 2 ^ 7 + k.val * 2 ^ 4 + z.code * 2 ^ 0 = n := Option.some.inj enc
  have l0 := v.isLt
  have l1 := a.isLt
  have l2 := x.isLt
  have l3 := k.isLt
  have l4 := W2.code_lt z
  refine ⟨by omega, ?_⟩
  have hm : bitsAt n 24 5 = 18 := by unfold bitsAt; omega
  have t2_2 : bitsAt n 2 2 = 0 := by unfold bitsAt; omega
  have e_v : vAt n 19 = v := vAt_of (by unfold bitsAt; omega)
  have e_a : gAt n 13 = a := gAt_of (by unfold bitsAt; omega)
  have e_x : v6At n 7 = some x := v6At_of (by unfold bitsAt; omega)
  have e_k : kAt n 4 = k := kAt_of (by unfold bitsAt; omega)
  have e_z : bitsAt n 0 2 = z.code := by unfold bitsAt; omega
  simp [decodeInstr, decodeMaj12, value, W2.ofCode_code, hm, t2_2, e_v, e_a, e_x, e_k, e_z]

theorem RoundTrip.vscat (v a x k z) : RoundTrip.Statement (.vscat v a x k z) := by
  intro n enc hw
  have hn : 0x12000004 + v.val * 2 ^ 19 + a.val * 2 ^ 13 + x.val * 2 ^ 7 + k.val * 2 ^ 4 + z.code * 2 ^ 0 = n := Option.some.inj enc
  have l0 := v.isLt
  have l1 := a.isLt
  have l2 := x.isLt
  have l3 := k.isLt
  have l4 := W2.code_lt z
  refine ⟨by omega, ?_⟩
  have hm : bitsAt n 24 5 = 18 := by unfold bitsAt; omega
  have t2_2 : bitsAt n 2 2 = 1 := by unfold bitsAt; omega
  have e_v : vAt n 19 = v := vAt_of (by unfold bitsAt; omega)
  have e_a : gAt n 13 = a := gAt_of (by unfold bitsAt; omega)
  have e_x : v6At n 7 = some x := v6At_of (by unfold bitsAt; omega)
  have e_k : kAt n 4 = k := kAt_of (by unfold bitsAt; omega)
  have e_z : bitsAt n 0 2 = z.code := by unfold bitsAt; omega
  simp [decodeInstr, decodeMaj12, value, W2.ofCode_code, hm, t2_2, e_v, e_a, e_x, e_k, e_z]

theorem RoundTrip.vamo (v a x k t) : RoundTrip.Statement (.vamo v a x k t) := by
  intro n enc hw
  have hn : 0x12000008 + v.val * 2 ^ 19 + a.val * 2 ^ 13 + x.val * 2 ^ 7 + k.val * 2 ^ 4 + t.code * 2 ^ 0 = n := Option.some.inj enc
  have l0 := v.isLt
  have l1 := a.isLt
  have l2 := x.isLt
  have l3 := k.isLt
  have l4 := VAmoT.code_lt t
  refine ⟨by omega, ?_⟩
  have hm : bitsAt n 24 5 = 18 := by unfold bitsAt; omega
  have t1_3 : bitsAt n 1 3 = 4 := by unfold bitsAt; omega
  have t2_2 : bitsAt n 2 2 = 2 := by unfold bitsAt; omega
  have e_v : vAt n 19 = v := vAt_of (by unfold bitsAt; omega)
  have e_a : gAt n 13 = a := gAt_of (by unfold bitsAt; omega)
  have e_x : v6At n 7 = some x := v6At_of (by unfold bitsAt; omega)
  have e_k : kAt n 4 = k := kAt_of (by unfold bitsAt; omega)
  have e_t : bitsAt n 0 1 = t.code := by unfold bitsAt; omega
  simp [decodeInstr, decodeMaj12, value, VAmoT.ofCode_code, hm, t1_3, t2_2, e_v, e_a, e_x, e_k, e_t]

theorem RoundTrip.vadd (d a b k z) : RoundTrip.Statement (.vadd d a b k z) := by
  intro n enc hw
  have hn : 0x13000000 + d.val * 2 ^ 19 + a.val * 2 ^ 14 + b.val * 2 ^ 9 + k.val * 2 ^ 6 + z.code * 2 ^ 4 = n := Option.some.inj enc
  have l0 := d.isLt
  have l1 := a.isLt
  have l2 := b.isLt
  have l3 := k.isLt
  have l4 := W2.code_lt z
  refine ⟨by omega, ?_⟩
  have hm : bitsAt n 24 5 = 19 := by unfold bitsAt; omega
  have t0_2 : bitsAt n 0 2 = 0 := by unfold bitsAt; omega
  have t0_4 : bitsAt n 0 4 = 0 := by unfold bitsAt; omega
  have t2_2 : bitsAt n 2 2 = 0 := by unfold bitsAt; omega
  have e_d : vAt n 19 = d := vAt_of (by unfold bitsAt; omega)
  have e_a : vAt n 14 = a := vAt_of (by unfold bitsAt; omega)
  have e_b : vAt n 9 = b := vAt_of (by unfold bitsAt; omega)
  have e_k : kAt n 6 = k := kAt_of (by unfold bitsAt; omega)
  have e_z : bitsAt n 4 2 = z.code := by unfold bitsAt; omega
  cases z <;> simp only [W2.code] at e_z <;> simp [decodeInstr, decodeMaj13, value, W2.ofCode, hm, t0_4, e_d, e_a, e_b, e_k, e_z]

theorem RoundTrip.vsub (d a b k z) : RoundTrip.Statement (.vsub d a b k z) := by
  intro n enc hw
  have hn : 0x13000001 + d.val * 2 ^ 19 + a.val * 2 ^ 14 + b.val * 2 ^ 9 + k.val * 2 ^ 6 + z.code * 2 ^ 4 = n := Option.some.inj enc
  have l0 := d.isLt
  have l1 := a.isLt
  have l2 := b.isLt
  have l3 := k.isLt
  have l4 := W2.code_lt z
  refine ⟨by omega, ?_⟩
  have hm : bitsAt n 24 5 = 19 := by unfold bitsAt; omega
  have t0_2 : bitsAt n 0 2 = 1 := by unfold bitsAt; omega
  have t0_4 : bitsAt n 0 4 = 1 := by unfold bitsAt; omega
  have t2_2 : bitsAt n 2 2 = 0 := by unfold bitsAt; omega
  have e_d : vAt n 19 = d := vAt_of (by unfold bitsAt; omega)
  have e_a : vAt n 14 = a := vAt_of (by unfold bitsAt; omega)
  have e_b : vAt n 9 = b := vAt_of (by unfold bitsAt; omega)
  have e_k : kAt n 6 = k := kAt_of (by unfold bitsAt; omega)
  have e_z : bitsAt n 4 2 = z.code := by unfold bitsAt; omega
  cases z <;> simp only [W2.code] at e_z <;> simp [decodeInstr, decodeMaj13, value, W2.ofCode, hm, t0_4, e_d, e_a, e_b, e_k, e_z]

theorem RoundTrip.vmul (d a b k z) : RoundTrip.Statement (.vmul d a b k z) := by
  intro n enc hw
  have hn : 0x13000002 + d.val * 2 ^ 19 + a.val * 2 ^ 14 + b.val * 2 ^ 9 + k.val * 2 ^ 6 + z.code * 2 ^ 4 = n := Option.some.inj enc
  have l0 := d.isLt
  have l1 := a.isLt
  have l2 := b.isLt
  have l3 := k.isLt
  have l4 := W2.code_lt z
  refine ⟨by omega, ?_⟩
  have hm : bitsAt n 24 5 = 19 := by unfold bitsAt; omega
  have t0_2 : bitsAt n 0 2 = 2 := by unfold bitsAt; omega
  have t0_4 : bitsAt n 0 4 = 2 := by unfold bitsAt; omega
  have t2_2 : bitsAt n 2 2 = 0 := by unfold bitsAt; omega
  have e_d : vAt n 19 = d := vAt_of (by unfold bitsAt; omega)
  have e_a : vAt n 14 = a := vAt_of (by unfold bitsAt; omega)
  have e_b : vAt n 9 = b := vAt_of (by unfold bitsAt; omega)
  have e_k : kAt n 6 = k := kAt_of (by unfold bitsAt; omega)
  have e_z : bitsAt n 4 2 = z.code := by unfold bitsAt; omega
  cases z <;> simp only [W2.code] at e_z <;> simp [decodeInstr, decodeMaj13, value, W2.ofCode, hm, t0_4, e_d, e_a, e_b, e_k, e_z]

theorem RoundTrip.vmulh (d a b k z) : RoundTrip.Statement (.vmulh d a b k z) := by
  intro n enc hw
  have hn : 0x13000003 + d.val * 2 ^ 19 + a.val * 2 ^ 14 + b.val * 2 ^ 9 + k.val * 2 ^ 6 + z.code * 2 ^ 4 = n := Option.some.inj enc
  have l0 := d.isLt
  have l1 := a.isLt
  have l2 := b.isLt
  have l3 := k.isLt
  have l4 := W2.code_lt z
  refine ⟨by omega, ?_⟩
  have hm : bitsAt n 24 5 = 19 := by unfold bitsAt; omega
  have t0_2 : bitsAt n 0 2 = 3 := by unfold bitsAt; omega
  have t0_4 : bitsAt n 0 4 = 3 := by unfold bitsAt; omega
  have t2_2 : bitsAt n 2 2 = 0 := by unfold bitsAt; omega
  have e_d : vAt n 19 = d := vAt_of (by unfold bitsAt; omega)
  have e_a : vAt n 14 = a := vAt_of (by unfold bitsAt; omega)
  have e_b : vAt n 9 = b := vAt_of (by unfold bitsAt; omega)
  have e_k : kAt n 6 = k := kAt_of (by unfold bitsAt; omega)
  have e_z : bitsAt n 4 2 = z.code := by unfold bitsAt; omega
  cases z <;> simp only [W2.code] at e_z <;> simp [decodeInstr, decodeMaj13, value, W2.ofCode, hm, t0_4, e_d, e_a, e_b, e_k, e_z]

theorem RoundTrip.vmin (d a b k z) : RoundTrip.Statement (.vmin d a b k z) := by
  intro n enc hw
  have hn : 0x13000004 + d.val * 2 ^ 19 + a.val * 2 ^ 14 + b.val * 2 ^ 9 + k.val * 2 ^ 6 + z.code * 2 ^ 4 = n := Option.some.inj enc
  have l0 := d.isLt
  have l1 := a.isLt
  have l2 := b.isLt
  have l3 := k.isLt
  have l4 := W2.code_lt z
  refine ⟨by omega, ?_⟩
  have hm : bitsAt n 24 5 = 19 := by unfold bitsAt; omega
  have t0_2 : bitsAt n 0 2 = 0 := by unfold bitsAt; omega
  have t0_4 : bitsAt n 0 4 = 4 := by unfold bitsAt; omega
  have t2_2 : bitsAt n 2 2 = 1 := by unfold bitsAt; omega
  have e_d : vAt n 19 = d := vAt_of (by unfold bitsAt; omega)
  have e_a : vAt n 14 = a := vAt_of (by unfold bitsAt; omega)
  have e_b : vAt n 9 = b := vAt_of (by unfold bitsAt; omega)
  have e_k : kAt n 6 = k := kAt_of (by unfold bitsAt; omega)
  have e_z : bitsAt n 4 2 = z.code := by unfold bitsAt; omega
  cases z <;> simp only [W2.code] at e_z <;> simp [decodeInstr, decodeMaj13, value, W2.ofCode, hm, t0_4, e_d, e_a, e_b, e_k, e_z]

theorem RoundTrip.vmax (d a b k z) : RoundTrip.Statement (.vmax d a b k z) := by
  intro n enc hw
  have hn : 0x13000005 + d.val * 2 ^ 19 + a.val * 2 ^ 14 + b.val * 2 ^ 9 + k.val * 2 ^ 6 + z.code * 2 ^ 4 = n := Option.some.inj enc
  have l0 := d.isLt
  have l1 := a.isLt
  have l2 := b.isLt
  have l3 := k.isLt
  have l4 := W2.code_lt z
  refine ⟨by omega, ?_⟩
  have hm : bitsAt n 24 5 = 19 := by unfold bitsAt; omega
  have t0_2 : bitsAt n 0 2 = 1 := by unfold bitsAt; omega
  have t0_4 : bitsAt n 0 4 = 5 := by unfold bitsAt; omega
  have t2_2 : bitsAt n 2 2 = 1 := by unfold bitsAt; omega
  have e_d : vAt n 19 = d := vAt_of (by unfold bitsAt; omega)
  have e_a : vAt n 14 = a := vAt_of (by unfold bitsAt; omega)
  have e_b : vAt n 9 = b := vAt_of (by unfold bitsAt; omega)
  have e_k : kAt n 6 = k := kAt_of (by unfold bitsAt; omega)
  have e_z : bitsAt n 4 2 = z.code := by unfold bitsAt; omega
  cases z <;> simp only [W2.code] at e_z <;> simp [decodeInstr, decodeMaj13, value, W2.ofCode, hm, t0_4, e_d, e_a, e_b, e_k, e_z]

theorem RoundTrip.vminn (d a b k z) : RoundTrip.Statement (.vminn d a b k z) := by
  intro n enc hw
  have hn : 0x13000006 + d.val * 2 ^ 19 + a.val * 2 ^ 14 + b.val * 2 ^ 9 + k.val * 2 ^ 6 + z.code * 2 ^ 4 = n := Option.some.inj enc
  have l0 := d.isLt
  have l1 := a.isLt
  have l2 := b.isLt
  have l3 := k.isLt
  have l4 := W2.code_lt z
  refine ⟨by omega, ?_⟩
  have hm : bitsAt n 24 5 = 19 := by unfold bitsAt; omega
  have t0_2 : bitsAt n 0 2 = 2 := by unfold bitsAt; omega
  have t0_4 : bitsAt n 0 4 = 6 := by unfold bitsAt; omega
  have t2_2 : bitsAt n 2 2 = 1 := by unfold bitsAt; omega
  have e_d : vAt n 19 = d := vAt_of (by unfold bitsAt; omega)
  have e_a : vAt n 14 = a := vAt_of (by unfold bitsAt; omega)
  have e_b : vAt n 9 = b := vAt_of (by unfold bitsAt; omega)
  have e_k : kAt n 6 = k := kAt_of (by unfold bitsAt; omega)
  have e_z : bitsAt n 4 2 = z.code := by unfold bitsAt; omega
  cases z <;> simp only [W2.code] at e_z <;> simp [decodeInstr, decodeMaj13, value, W2.ofCode, hm, t0_4, e_d, e_a, e_b, e_k, e_z]

theorem RoundTrip.vmaxn (d a b k z) : RoundTrip.Statement (.vmaxn d a b k z) := by
  intro n enc hw
  have hn : 0x13000007 + d.val * 2 ^ 19 + a.val * 2 ^ 14 + b.val * 2 ^ 9 + k.val * 2 ^ 6 + z.code * 2 ^ 4 = n := Option.some.inj enc
  have l0 := d.isLt
  have l1 := a.isLt
  have l2 := b.isLt
  have l3 := k.isLt
  have l4 := W2.code_lt z
  refine ⟨by omega, ?_⟩
  have hm : bitsAt n 24 5 = 19 := by unfold bitsAt; omega
  have t0_2 : bitsAt n 0 2 = 3 := by unfold bitsAt; omega
  have t0_4 : bitsAt n 0 4 = 7 := by unfold bitsAt; omega
  have t2_2 : bitsAt n 2 2 = 1 := by unfold bitsAt; omega
  have e_d : vAt n 19 = d := vAt_of (by unfold bitsAt; omega)
  have e_a : vAt n 14 = a := vAt_of (by unfold bitsAt; omega)
  have e_b : vAt n 9 = b := vAt_of (by unfold bitsAt; omega)
  have e_k : kAt n 6 = k := kAt_of (by unfold bitsAt; omega)
  have e_z : bitsAt n 4 2 = z.code := by unfold bitsAt; omega
  cases z <;> simp only [W2.code] at e_z <;> simp [decodeInstr, decodeMaj13, value, W2.ofCode, hm, t0_4, e_d, e_a, e_b, e_k, e_z]

theorem RoundTrip.vshl (d a b k z) : RoundTrip.Statement (.vshl d a b k z) := by
  intro n enc hw
  have hn : 0x13000008 + d.val * 2 ^ 19 + a.val * 2 ^ 14 + b.val * 2 ^ 9 + k.val * 2 ^ 6 + z.code * 2 ^ 4 = n := Option.some.inj enc
  have l0 := d.isLt
  have l1 := a.isLt
  have l2 := b.isLt
  have l3 := k.isLt
  have l4 := W2.code_lt z
  refine ⟨by omega, ?_⟩
  have hm : bitsAt n 24 5 = 19 := by unfold bitsAt; omega
  have t0_2 : bitsAt n 0 2 = 0 := by unfold bitsAt; omega
  have t0_4 : bitsAt n 0 4 = 8 := by unfold bitsAt; omega
  have t2_2 : bitsAt n 2 2 = 2 := by unfold bitsAt; omega
  have e_d : vAt n 19 = d := vAt_of (by unfold bitsAt; omega)
  have e_a : vAt n 14 = a := vAt_of (by unfold bitsAt; omega)
  have e_b : vAt n 9 = b := vAt_of (by unfold bitsAt; omega)
  have e_k : kAt n 6 = k := kAt_of (by unfold bitsAt; omega)
  have e_z : bitsAt n 4 2 = z.code := by unfold bitsAt; omega
  cases z <;> simp only [W2.code] at e_z <;> simp [decodeInstr, decodeMaj13, value, W2.ofCode, hm, t0_4, e_d, e_a, e_b, e_k, e_z]

theorem RoundTrip.vshr (d a b k z) : RoundTrip.Statement (.vshr d a b k z) := by
  intro n enc hw
  have hn : 0x13000009 + d.val * 2 ^ 19 + a.val * 2 ^ 14 + b.val * 2 ^ 9 + k.val * 2 ^ 6 + z.code * 2 ^ 4 = n := Option.some.inj enc
  have l0 := d.isLt
  have l1 := a.isLt
  have l2 := b.isLt
  have l3 := k.isLt
  have l4 := W2.code_lt z
  refine ⟨by omega, ?_⟩
  have hm : bitsAt n 24 5 = 19 := by unfold bitsAt; omega
  have t0_2 : bitsAt n 0 2 = 1 := by unfold bitsAt; omega
  have t0_4 : bitsAt n 0 4 = 9 := by unfold bitsAt; omega
  have t2_2 : bitsAt n 2 2 = 2 := by unfold bitsAt; omega
  have e_d : vAt n 19 = d := vAt_of (by unfold bitsAt; omega)
  have e_a : vAt n 14 = a := vAt_of (by unfold bitsAt; omega)
  have e_b : vAt n 9 = b := vAt_of (by unfold bitsAt; omega)
  have e_k : kAt n 6 = k := kAt_of (by unfold bitsAt; omega)
  have e_z : bitsAt n 4 2 = z.code := by unfold bitsAt; omega
  cases z <;> simp only [W2.code] at e_z <;> simp [decodeInstr, decodeMaj13, value, W2.ofCode, hm, t0_4, e_d, e_a, e_b, e_k, e_z]

theorem RoundTrip.vsha (d a b k z) : RoundTrip.Statement (.vsha d a b k z) := by
  intro n enc hw
  have hn : 0x1300000A + d.val * 2 ^ 19 + a.val * 2 ^ 14 + b.val * 2 ^ 9 + k.val * 2 ^ 6 + z.code * 2 ^ 4 = n := Option.some.inj enc
  have l0 := d.isLt
  have l1 := a.isLt
  have l2 := b.isLt
  have l3 := k.isLt
  have l4 := W2.code_lt z
  refine ⟨by omega, ?_⟩
  have hm : bitsAt n 24 5 = 19 := by unfold bitsAt; omega
  have t0_2 : bitsAt n 0 2 = 2 := by unfold bitsAt; omega
  have t0_4 : bitsAt n 0 4 = 10 := by unfold bitsAt; omega
  have t2_2 : bitsAt n 2 2 = 2 := by unfold bitsAt; omega
  have e_d : vAt n 19 = d := vAt_of (by unfold bitsAt; omega)
  have e_a : vAt n 14 = a := vAt_of (by unfold bitsAt; omega)
  have e_b : vAt n 9 = b := vAt_of (by unfold bitsAt; omega)
  have e_k : kAt n 6 = k := kAt_of (by unfold bitsAt; omega)
  have e_z : bitsAt n 4 2 = z.code := by unfold bitsAt; omega
  cases z <;> simp only [W2.code] at e_z <;> simp [decodeInstr, decodeMaj13, value, W2.ofCode, hm, t0_4, e_d, e_a, e_b, e_k, e_z]

theorem RoundTrip.vabs (d a k z) : RoundTrip.Statement (.vabs d a k z) := by
  intro n enc hw
  have hn : 0x1300000B + d.val * 2 ^ 19 + a.val * 2 ^ 14 + k.val * 2 ^ 6 + z.code * 2 ^ 4 = n := Option.some.inj enc
  have l0 := d.isLt
  have l1 := a.isLt
  have l2 := k.isLt
  have l3 := W2.code_lt z
  refine ⟨by omega, ?_⟩
  have hm : bitsAt n 24 5 = 19 := by unfold bitsAt; omega
  have t0_2 : bitsAt n 0 2 = 3 := by unfold bitsAt; omega
  have t0_4 : bitsAt n 0 4 = 11 := by unfold bitsAt; omega
  have t2_2 : bitsAt n 2 2 = 2 := by unfold bitsAt; omega
  have t9_5 : bitsAt n 9 5 = 0 := by unfold bitsAt; omega
  have e_d : vAt n 19 = d := vAt_of (by unfold bitsAt; omega)
  have e_a : vAt n 14 = a := vAt_of (by unfold bitsAt; omega)
  have e_k : kAt n 6 = k := kAt_of (by unfold bitsAt; omega)
  have e_z : bitsAt n 4 2 = z.code := by unfold bitsAt; omega
  cases z <;> simp only [W2.code] at e_z <;> simp [decodeInstr, decodeMaj13, zeroField, value, W2.ofCode, hm, t0_4, t9_5, e_d, e_a, e_k, e_z]

theorem RoundTrip.vneg (d a k z) : RoundTrip.Statement (.vneg d a k z) := by
  intro n enc hw
  have hn : 0x1300000C + d.val * 2 ^ 19 + a.val * 2 ^ 14 + k.val * 2 ^ 6 + z.code * 2 ^ 4 = n := Option.some.inj enc
  have l0 := d.isLt
  have l1 := a.isLt
  have l2 := k.isLt
  have l3 := W2.code_lt z
  refine ⟨by omega, ?_⟩
  have hm : bitsAt n 24 5 = 19 := by unfold bitsAt; omega
  have t0_2 : bitsAt n 0 2 = 0 := by unfold bitsAt; omega
  have t0_4 : bitsAt n 0 4 = 12 := by unfold bitsAt; omega
  have t2_2 : bitsAt n 2 2 = 3 := by unfold bitsAt; omega
  have t9_5 : bitsAt n 9 5 = 0 := by unfold bitsAt; omega
  have e_d : vAt n 19 = d := vAt_of (by unfold bitsAt; omega)
  have e_a : vAt n 14 = a := vAt_of (by unfold bitsAt; omega)
  have e_k : kAt n 6 = k := kAt_of (by unfold bitsAt; omega)
  have e_z : bitsAt n 4 2 = z.code := by unfold bitsAt; omega
  cases z <;> simp only [W2.code] at e_z <;> simp [decodeInstr, decodeMaj13, zeroField, value, W2.ofCode, hm, t0_4, t9_5, e_d, e_a, e_k, e_z]

theorem RoundTrip.vsat (d a b k z) : RoundTrip.Statement (.vsat d a b k z) := by
  intro n enc hw
  have hn : 0x1300000D + d.val * 2 ^ 19 + a.val * 2 ^ 14 + b.val * 2 ^ 9 + k.val * 2 ^ 6 + z.code * 2 ^ 4 = n := Option.some.inj enc
  have l0 := d.isLt
  have l1 := a.isLt
  have l2 := b.isLt
  have l3 := k.isLt
  have l4 := W2.code_lt z
  refine ⟨by omega, ?_⟩
  have hm : bitsAt n 24 5 = 19 := by unfold bitsAt; omega
  have t0_2 : bitsAt n 0 2 = 1 := by unfold bitsAt; omega
  have t0_4 : bitsAt n 0 4 = 13 := by unfold bitsAt; omega
  have t2_2 : bitsAt n 2 2 = 3 := by unfold bitsAt; omega
  have e_d : vAt n 19 = d := vAt_of (by unfold bitsAt; omega)
  have e_a : vAt n 14 = a := vAt_of (by unfold bitsAt; omega)
  have e_b : vAt n 9 = b := vAt_of (by unfold bitsAt; omega)
  have e_k : kAt n 6 = k := kAt_of (by unfold bitsAt; omega)
  have e_z : bitsAt n 4 2 = z.code := by unfold bitsAt; omega
  cases z <;> simp only [W2.code] at e_z <;> simp [decodeInstr, decodeMaj13, value, W2.ofCode, hm, t0_4, e_d, e_a, e_b, e_k, e_z]

theorem RoundTrip.vclz (d a k z) : RoundTrip.Statement (.vclz d a k z) := by
  intro n enc hw
  have hn : 0x1300000E + d.val * 2 ^ 19 + a.val * 2 ^ 14 + k.val * 2 ^ 6 + z.code * 2 ^ 4 = n := Option.some.inj enc
  have l0 := d.isLt
  have l1 := a.isLt
  have l2 := k.isLt
  have l3 := W2.code_lt z
  refine ⟨by omega, ?_⟩
  have hm : bitsAt n 24 5 = 19 := by unfold bitsAt; omega
  have t0_2 : bitsAt n 0 2 = 2 := by unfold bitsAt; omega
  have t0_4 : bitsAt n 0 4 = 14 := by unfold bitsAt; omega
  have t2_2 : bitsAt n 2 2 = 3 := by unfold bitsAt; omega
  have t9_5 : bitsAt n 9 5 = 0 := by unfold bitsAt; omega
  have e_d : vAt n 19 = d := vAt_of (by unfold bitsAt; omega)
  have e_a : vAt n 14 = a := vAt_of (by unfold bitsAt; omega)
  have e_k : kAt n 6 = k := kAt_of (by unfold bitsAt; omega)
  have e_z : bitsAt n 4 2 = z.code := by unfold bitsAt; omega
  cases z <;> simp only [W2.code] at e_z <;> simp [decodeInstr, decodeMaj13, zeroField, value, W2.ofCode, hm, t0_4, t9_5, e_d, e_a, e_k, e_z]

theorem RoundTrip.vpopc (d a k z) : RoundTrip.Statement (.vpopc d a k z) := by
  intro n enc hw
  have hn : 0x1300000F + d.val * 2 ^ 19 + a.val * 2 ^ 14 + k.val * 2 ^ 6 + z.code * 2 ^ 4 = n := Option.some.inj enc
  have l0 := d.isLt
  have l1 := a.isLt
  have l2 := k.isLt
  have l3 := W2.code_lt z
  refine ⟨by omega, ?_⟩
  have hm : bitsAt n 24 5 = 19 := by unfold bitsAt; omega
  have t0_2 : bitsAt n 0 2 = 3 := by unfold bitsAt; omega
  have t0_4 : bitsAt n 0 4 = 15 := by unfold bitsAt; omega
  have t2_2 : bitsAt n 2 2 = 3 := by unfold bitsAt; omega
  have t9_5 : bitsAt n 9 5 = 0 := by unfold bitsAt; omega
  have e_d : vAt n 19 = d := vAt_of (by unfold bitsAt; omega)
  have e_a : vAt n 14 = a := vAt_of (by unfold bitsAt; omega)
  have e_k : kAt n 6 = k := kAt_of (by unfold bitsAt; omega)
  have e_z : bitsAt n 4 2 = z.code := by unfold bitsAt; omega
  cases z <;> simp only [W2.code] at e_z <;> simp [decodeInstr, decodeMaj13, zeroField, value, W2.ofCode, hm, t0_4, t9_5, e_d, e_a, e_k, e_z]

theorem RoundTrip.vand (d a b k z) : RoundTrip.Statement (.vand d a b k z) := by
  intro n enc hw
  have hn : 0x13000030 + d.val * 2 ^ 19 + a.val * 2 ^ 14 + b.val * 2 ^ 9 + k.val * 2 ^ 6 + z.code * 2 ^ 2 = n := Option.some.inj enc
  have l0 := d.isLt
  have l1 := a.isLt
  have l2 := b.isLt
  have l3 := k.isLt
  have l4 := W2.code_lt z
  refine ⟨by omega, ?_⟩
  have hm : bitsAt n 24 5 = 19 := by unfold bitsAt; omega
  have t0_2 : bitsAt n 0 2 = 0 := by unfold bitsAt; omega
  have t4_2 : bitsAt n 4 2 = 3 := by unfold bitsAt; omega
  have e_d : vAt n 19 = d := vAt_of (by unfold bitsAt; omega)
  have e_a : vAt n 14 = a := vAt_of (by unfold bitsAt; omega)
  have e_b : vAt n 9 = b := vAt_of (by unfold bitsAt; omega)
  have e_k : kAt n 6 = k := kAt_of (by unfold bitsAt; omega)
  have e_z : bitsAt n 2 2 = z.code := by unfold bitsAt; omega
  cases z <;> simp only [W2.code] at e_z <;> simp [decodeInstr, decodeMaj13, value, W2.ofCode, hm, t0_2, t4_2, e_d, e_a, e_b, e_k, e_z]

theorem RoundTrip.vor (d a b k z) : RoundTrip.Statement (.vor d a b k z) := by
  intro n enc hw
  have hn : 0x13000031 + d.val * 2 ^ 19 + a.val * 2 ^ 14 + b.val * 2 ^ 9 + k.val * 2 ^ 6 + z.code * 2 ^ 2 = n := Option.some.inj enc
  have l0 := d.isLt
  have l1 := a.isLt
  have l2 := b.isLt
  have l3 := k.isLt
  have l4 := W2.code_lt z
  refine ⟨by omega, ?_⟩
  have hm : bitsAt n 24 5 = 19 := by unfold bitsAt; omega
  have t0_2 : bitsAt n 0 2 = 1 := by unfold bitsAt; omega
  have t4_2 : bitsAt n 4 2 = 3 := by unfold bitsAt; omega
  have e_d : vAt n 19 = d := vAt_of (by unfold bitsAt; omega)
  have e_a : vAt n 14 = a := vAt_of (by unfold bitsAt; omega)
  have e_b : vAt n 9 = b := vAt_of (by unfold bitsAt; omega)
  have e_k : kAt n 6 = k := kAt_of (by unfold bitsAt; omega)
  have e_z : bitsAt n 2 2 = z.code := by unfold bitsAt; omega
  cases z <;> simp only [W2.code] at e_z <;> simp [decodeInstr, decodeMaj13, value, W2.ofCode, hm, t0_2, t4_2, e_d, e_a, e_b, e_k, e_z]

theorem RoundTrip.vxor (d a b k z) : RoundTrip.Statement (.vxor d a b k z) := by
  intro n enc hw
  have hn : 0x13000032 + d.val * 2 ^ 19 + a.val * 2 ^ 14 + b.val * 2 ^ 9 + k.val * 2 ^ 6 + z.code * 2 ^ 2 = n := Option.some.inj enc
  have l0 := d.isLt
  have l1 := a.isLt
  have l2 := b.isLt
  have l3 := k.isLt
  have l4 := W2.code_lt z
  refine ⟨by omega, ?_⟩
  have hm : bitsAt n 24 5 = 19 := by unfold bitsAt; omega
  have t0_2 : bitsAt n 0 2 = 2 := by unfold bitsAt; omega
  have t4_2 : bitsAt n 4 2 = 3 := by unfold bitsAt; omega
  have e_d : vAt n 19 = d := vAt_of (by unfold bitsAt; omega)
  have e_a : vAt n 14 = a := vAt_of (by unfold bitsAt; omega)
  have e_b : vAt n 9 = b := vAt_of (by unfold bitsAt; omega)
  have e_k : kAt n 6 = k := kAt_of (by unfold bitsAt; omega)
  have e_z : bitsAt n 2 2 = z.code := by unfold bitsAt; omega
  cases z <;> simp only [W2.code] at e_z <;> simp [decodeInstr, decodeMaj13, value, W2.ofCode, hm, t0_2, t4_2, e_d, e_a, e_b, e_k, e_z]

theorem RoundTrip.vandn (d a b k z) : RoundTrip.Statement (.vandn d a b k z) := by
  intro n enc hw
  have hn : 0x13000033 + d.val * 2 ^ 19 + a.val * 2 ^ 14 + b.val * 2 ^ 9 + k.val * 2 ^ 6 + z.code * 2 ^ 2 = n := Option.some.inj enc
  have l0 := d.isLt
  have l1 := a.isLt
  have l2 := b.isLt
  have l3 := k.isLt
  have l4 := W2.code_lt z
  refine ⟨by omega, ?_⟩
  have hm : bitsAt n 24 5 = 19 := by unfold bitsAt; omega
  have t0_2 : bitsAt n 0 2 = 3 := by unfold bitsAt; omega
  have t4_2 : bitsAt n 4 2 = 3 := by unfold bitsAt; omega
  have e_d : vAt n 19 = d := vAt_of (by unfold bitsAt; omega)
  have e_a : vAt n 14 = a := vAt_of (by unfold bitsAt; omega)
  have e_b : vAt n 9 = b := vAt_of (by unfold bitsAt; omega)
  have e_k : kAt n 6 = k := kAt_of (by unfold bitsAt; omega)
  have e_z : bitsAt n 2 2 = z.code := by unfold bitsAt; omega
  cases z <;> simp only [W2.code] at e_z <;> simp [decodeInstr, decodeMaj13, value, W2.ofCode, hm, t0_2, t4_2, e_d, e_a, e_b, e_k, e_z]

theorem RoundTrip.vfadd (d a b k t) : RoundTrip.Statement (.vfadd d a b k t) := by
  intro n enc hw
  have hn : 0x14000000 + d.val * 2 ^ 19 + a.val * 2 ^ 14 + b.val * 2 ^ 9 + k.val * 2 ^ 6 + t.code * 2 ^ 4 = n := Option.some.inj enc
  have l0 := d.isLt
  have l1 := a.isLt
  have l2 := b.isLt
  have l3 := k.isLt
  have l4 := FP2.code_lt t
  refine ⟨by omega, ?_⟩
  have hm : bitsAt n 24 5 = 20 := by unfold bitsAt; omega
  have t0_4 : bitsAt n 0 4 = 0 := by unfold bitsAt; omega
  have e_d : vAt n 19 = d := vAt_of (by unfold bitsAt; omega)
  have e_a : vAt n 14 = a := vAt_of (by unfold bitsAt; omega)
  have e_b : vAt n 9 = b := vAt_of (by unfold bitsAt; omega)
  have e_k : kAt n 6 = k := kAt_of (by unfold bitsAt; omega)
  have e_t : bitsAt n 4 2 = t.code := by unfold bitsAt; omega
  simp [decodeInstr, decodeMaj14, value, FP2.ofCode_code, hm, t0_4, e_d, e_a, e_b, e_k, e_t]

theorem RoundTrip.vfsub (d a b k t) : RoundTrip.Statement (.vfsub d a b k t) := by
  intro n enc hw
  have hn : 0x14000001 + d.val * 2 ^ 19 + a.val * 2 ^ 14 + b.val * 2 ^ 9 + k.val * 2 ^ 6 + t.code * 2 ^ 4 = n := Option.some.inj enc
  have l0 := d.isLt
  have l1 := a.isLt
  have l2 := b.isLt
  have l3 := k.isLt
  have l4 := FP2.code_lt t
  refine ⟨by omega, ?_⟩
  have hm : bitsAt n 24 5 = 20 := by unfold bitsAt; omega
  have t0_4 : bitsAt n 0 4 = 1 := by unfold bitsAt; omega
  have e_d : vAt n 19 = d := vAt_of (by unfold bitsAt; omega)
  have e_a : vAt n 14 = a := vAt_of (by unfold bitsAt; omega)
  have e_b : vAt n 9 = b := vAt_of (by unfold bitsAt; omega)
  have e_k : kAt n 6 = k := kAt_of (by unfold bitsAt; omega)
  have e_t : bitsAt n 4 2 = t.code := by unfold bitsAt; omega
  simp [decodeInstr, decodeMaj14, value, FP2.ofCode_code, hm, t0_4, e_d, e_a, e_b, e_k, e_t]

theorem RoundTrip.vfmul (d a b k t) : RoundTrip.Statement (.vfmul d a b k t) := by
  intro n enc hw
  have hn : 0x14000002 + d.val * 2 ^ 19 + a.val * 2 ^ 14 + b.val * 2 ^ 9 + k.val * 2 ^ 6 + t.code * 2 ^ 4 = n := Option.some.inj enc
  have l0 := d.isLt
  have l1 := a.isLt
  have l2 := b.isLt
  have l3 := k.isLt
  have l4 := FP2.code_lt t
  refine ⟨by omega, ?_⟩
  have hm : bitsAt n 24 5 = 20 := by unfold bitsAt; omega
  have t0_4 : bitsAt n 0 4 = 2 := by unfold bitsAt; omega
  have e_d : vAt n 19 = d := vAt_of (by unfold bitsAt; omega)
  have e_a : vAt n 14 = a := vAt_of (by unfold bitsAt; omega)
  have e_b : vAt n 9 = b := vAt_of (by unfold bitsAt; omega)
  have e_k : kAt n 6 = k := kAt_of (by unfold bitsAt; omega)
  have e_t : bitsAt n 4 2 = t.code := by unfold bitsAt; omega
  simp [decodeInstr, decodeMaj14, value, FP2.ofCode_code, hm, t0_4, e_d, e_a, e_b, e_k, e_t]

theorem RoundTrip.vfmin (d a b k t) : RoundTrip.Statement (.vfmin d a b k t) := by
  intro n enc hw
  have hn : 0x14000003 + d.val * 2 ^ 19 + a.val * 2 ^ 14 + b.val * 2 ^ 9 + k.val * 2 ^ 6 + t.code * 2 ^ 4 = n := Option.some.inj enc
  have l0 := d.isLt
  have l1 := a.isLt
  have l2 := b.isLt
  have l3 := k.isLt
  have l4 := FP2.code_lt t
  refine ⟨by omega, ?_⟩
  have hm : bitsAt n 24 5 = 20 := by unfold bitsAt; omega
  have t0_4 : bitsAt n 0 4 = 3 := by unfold bitsAt; omega
  have e_d : vAt n 19 = d := vAt_of (by unfold bitsAt; omega)
  have e_a : vAt n 14 = a := vAt_of (by unfold bitsAt; omega)
  have e_b : vAt n 9 = b := vAt_of (by unfold bitsAt; omega)
  have e_k : kAt n 6 = k := kAt_of (by unfold bitsAt; omega)
  have e_t : bitsAt n 4 2 = t.code := by unfold bitsAt; omega
  simp [decodeInstr, decodeMaj14, value, FP2.ofCode_code, hm, t0_4, e_d, e_a, e_b, e_k, e_t]

theorem RoundTrip.vfmax (d a b k t) : RoundTrip.Statement (.vfmax d a b k t) := by
  intro n enc hw
  have hn : 0x14000004 + d.val * 2 ^ 19 + a.val * 2 ^ 14 + b.val * 2 ^ 9 + k.val * 2 ^ 6 + t.code * 2 ^ 4 = n := Option.some.inj enc
  have l0 := d.isLt
  have l1 := a.isLt
  have l2 := b.isLt
  have l3 := k.isLt
  have l4 := FP2.code_lt t
  refine ⟨by omega, ?_⟩
  have hm : bitsAt n 24 5 = 20 := by unfold bitsAt; omega
  have t0_4 : bitsAt n 0 4 = 4 := by unfold bitsAt; omega
  have e_d : vAt n 19 = d := vAt_of (by unfold bitsAt; omega)
  have e_a : vAt n 14 = a := vAt_of (by unfold bitsAt; omega)
  have e_b : vAt n 9 = b := vAt_of (by unfold bitsAt; omega)
  have e_k : kAt n 6 = k := kAt_of (by unfold bitsAt; omega)
  have e_t : bitsAt n 4 2 = t.code := by unfold bitsAt; omega
  simp [decodeInstr, decodeMaj14, value, FP2.ofCode_code, hm, t0_4, e_d, e_a, e_b, e_k, e_t]

theorem RoundTrip.vfabs (d a k t) : RoundTrip.Statement (.vfabs d a k t) := by
  intro n enc hw
  have hn : 0x14000005 + d.val * 2 ^ 19 + a.val * 2 ^ 14 + k.val * 2 ^ 6 + t.code * 2 ^ 4 = n := Option.some.inj enc
  have l0 := d.isLt
  have l1 := a.isLt
  have l2 := k.isLt
  have l3 := FP2.code_lt t
  refine ⟨by omega, ?_⟩
  have hm : bitsAt n 24 5 = 20 := by unfold bitsAt; omega
  have t0_4 : bitsAt n 0 4 = 5 := by unfold bitsAt; omega
  have t9_5 : bitsAt n 9 5 = 0 := by unfold bitsAt; omega
  have e_d : vAt n 19 = d := vAt_of (by unfold bitsAt; omega)
  have e_a : vAt n 14 = a := vAt_of (by unfold bitsAt; omega)
  have e_k : kAt n 6 = k := kAt_of (by unfold bitsAt; omega)
  have e_t : bitsAt n 4 2 = t.code := by unfold bitsAt; omega
  simp [decodeInstr, decodeMaj14, zeroField, value, FP2.ofCode_code, hm, t0_4, t9_5, e_d, e_a, e_k, e_t]

theorem RoundTrip.vfneg (d a k t) : RoundTrip.Statement (.vfneg d a k t) := by
  intro n enc hw
  have hn : 0x14000006 + d.val * 2 ^ 19 + a.val * 2 ^ 14 + k.val * 2 ^ 6 + t.code * 2 ^ 4 = n := Option.some.inj enc
  have l0 := d.isLt
  have l1 := a.isLt
  have l2 := k.isLt
  have l3 := FP2.code_lt t
  refine ⟨by omega, ?_⟩
  have hm : bitsAt n 24 5 = 20 := by unfold bitsAt; omega
  have t0_4 : bitsAt n 0 4 = 6 := by unfold bitsAt; omega
  have t9_5 : bitsAt n 9 5 = 0 := by unfold bitsAt; omega
  have e_d : vAt n 19 = d := vAt_of (by unfold bitsAt; omega)
  have e_a : vAt n 14 = a := vAt_of (by unfold bitsAt; omega)
  have e_k : kAt n 6 = k := kAt_of (by unfold bitsAt; omega)
  have e_t : bitsAt n 4 2 = t.code := by unfold bitsAt; omega
  simp [decodeInstr, decodeMaj14, zeroField, value, FP2.ofCode_code, hm, t0_4, t9_5, e_d, e_a, e_k, e_t]

theorem RoundTrip.vfrnd (d a k t) : RoundTrip.Statement (.vfrnd d a k t) := by
  intro n enc hw
  have hn : 0x14000007 + d.val * 2 ^ 19 + a.val * 2 ^ 14 + k.val * 2 ^ 6 + t.code * 2 ^ 4 = n := Option.some.inj enc
  have l0 := d.isLt
  have l1 := a.isLt
  have l2 := k.isLt
  have l3 := FP2.code_lt t
  refine ⟨by omega, ?_⟩
  have hm : bitsAt n 24 5 = 20 := by unfold bitsAt; omega
  have t0_4 : bitsAt n 0 4 = 7 := by unfold bitsAt; omega
  have t9_5 : bitsAt n 9 5 = 0 := by unfold bitsAt; omega
  have e_d : vAt n 19 = d := vAt_of (by unfold bitsAt; omega)
  have e_a : vAt n 14 = a := vAt_of (by unfold bitsAt; omega)
  have e_k : kAt n 6 = k := kAt_of (by unfold bitsAt; omega)
  have e_t : bitsAt n 4 2 = t.code := by unfold bitsAt; omega
  simp [decodeInstr, decodeMaj14, zeroField, value, FP2.ofCode_code, hm, t0_4, t9_5, e_d, e_a, e_k, e_t]

theorem RoundTrip.vfclass (d a k t) : RoundTrip.Statement (.vfclass d a k t) := by
  intro n enc hw
  have hn : 0x14000008 + d.val * 2 ^ 19 + a.val * 2 ^ 14 + k.val * 2 ^ 6 + t.code * 2 ^ 4 = n := Option.some.inj enc
  have l0 := d.isLt
  have l1 := a.isLt
  have l2 := k.isLt
  have l3 := FP2.code_lt t
  refine ⟨by omega, ?_⟩
  have hm : bitsAt n 24 5 = 20 := by unfold bitsAt; omega
  have t0_4 : bitsAt n 0 4 = 8 := by unfold bitsAt; omega
  have t9_5 : bitsAt n 9 5 = 0 := by unfold bitsAt; omega
  have e_d : vAt n 19 = d := vAt_of (by unfold bitsAt; omega)
  have e_a : vAt n 14 = a := vAt_of (by unfold bitsAt; omega)
  have e_k : kAt n 6 = k := kAt_of (by unfold bitsAt; omega)
  have e_t : bitsAt n 4 2 = t.code := by unfold bitsAt; omega
  simp [decodeInstr, decodeMaj14, zeroField, value, FP2.ofCode_code, hm, t0_4, t9_5, e_d, e_a, e_k, e_t]

theorem RoundTrip.vfrcp (d a k) : RoundTrip.Statement (.vfrcp d a k) := by
  intro n enc hw
  have hn : 0x14000009 + d.val * 2 ^ 19 + a.val * 2 ^ 14 + k.val * 2 ^ 6 = n := Option.some.inj enc
  have l0 := d.isLt
  have l1 := a.isLt
  have l2 := k.isLt
  refine ⟨by omega, ?_⟩
  have hm : bitsAt n 24 5 = 20 := by unfold bitsAt; omega
  have t0_4 : bitsAt n 0 4 = 9 := by unfold bitsAt; omega
  have t0_6 : bitsAt n 0 6 = 9 := by unfold bitsAt; omega
  have t4_2 : bitsAt n 4 2 = 0 := by unfold bitsAt; omega
  have t9_5 : bitsAt n 9 5 = 0 := by unfold bitsAt; omega
  have e_d : vAt n 19 = d := vAt_of (by unfold bitsAt; omega)
  have e_a : vAt n 14 = a := vAt_of (by unfold bitsAt; omega)
  have e_k : kAt n 6 = k := kAt_of (by unfold bitsAt; omega)
  simp [decodeInstr, decodeMaj14, zeroField, hm, t0_4, t0_6, t9_5, e_d, e_a, e_k]

theorem RoundTrip.vfrsq (d a k) : RoundTrip.Statement (.vfrsq d a k) := by
  intro n enc hw
  have hn : 0x1400000A + d.val * 2 ^ 19 + a.val * 2 ^ 14 + k.val * 2 ^ 6 = n := Option.some.inj enc
  have l0 := d.isLt
  have l1 := a.isLt
  have l2 := k.isLt
  refine ⟨by omega, ?_⟩
  have hm : bitsAt n 24 5 = 20 := by unfold bitsAt; omega
  have t0_4 : bitsAt n 0 4 = 10 := by unfold bitsAt; omega
  have t0_6 : bitsAt n 0 6 = 10 := by unfold bitsAt; omega
  have t4_2 : bitsAt n 4 2 = 0 := by unfold bitsAt; omega
  have t9_5 : bitsAt n 9 5 = 0 := by unfold bitsAt; omega
  have e_d : vAt n 19 = d := vAt_of (by unfold bitsAt; omega)
  have e_a : vAt n 14 = a := vAt_of (by unfold bitsAt; omega)
  have e_k : kAt n 6 = k := kAt_of (by unfold bitsAt; omega)
  simp [decodeInstr, decodeMaj14, zeroField, hm, t0_4, t0_6, t9_5, e_d, e_a, e_k]

theorem RoundTrip.vfexp2 (d a k) : RoundTrip.Statement (.vfexp2 d a k) := by
  intro n enc hw
  have hn : 0x1400000B + d.val * 2 ^ 19 + a.val * 2 ^ 14 + k.val * 2 ^ 6 = n := Option.some.inj enc
  have l0 := d.isLt
  have l1 := a.isLt
  have l2 := k.isLt
  refine ⟨by omega, ?_⟩
  have hm : bitsAt n 24 5 = 20 := by unfold bitsAt; omega
  have t0_4 : bitsAt n 0 4 = 11 := by unfold bitsAt; omega
  have t0_6 : bitsAt n 0 6 = 11 := by unfold bitsAt; omega
  have t4_2 : bitsAt n 4 2 = 0 := by unfold bitsAt; omega
  have t9_5 : bitsAt n 9 5 = 0 := by unfold bitsAt; omega
  have e_d : vAt n 19 = d := vAt_of (by unfold bitsAt; omega)
  have e_a : vAt n 14 = a := vAt_of (by unfold bitsAt; omega)
  have e_k : kAt n 6 = k := kAt_of (by unfold bitsAt; omega)
  simp [decodeInstr, decodeMaj14, zeroField, hm, t0_4, t0_6, t9_5, e_d, e_a, e_k]

theorem RoundTrip.vflog2 (d a k) : RoundTrip.Statement (.vflog2 d a k) := by
  intro n enc hw
  have hn : 0x1400000C + d.val * 2 ^ 19 + a.val * 2 ^ 14 + k.val * 2 ^ 6 = n := Option.some.inj enc
  have l0 := d.isLt
  have l1 := a.isLt
  have l2 := k.isLt
  refine ⟨by omega, ?_⟩
  have hm : bitsAt n 24 5 = 20 := by unfold bitsAt; omega
  have t0_4 : bitsAt n 0 4 = 12 := by unfold bitsAt; omega
  have t0_6 : bitsAt n 0 6 = 12 := by unfold bitsAt; omega
  have t4_2 : bitsAt n 4 2 = 0 := by unfold bitsAt; omega
  have t9_5 : bitsAt n 9 5 = 0 := by unfold bitsAt; omega
  have e_d : vAt n 19 = d := vAt_of (by unfold bitsAt; omega)
  have e_a : vAt n 14 = a := vAt_of (by unfold bitsAt; omega)
  have e_k : kAt n 6 = k := kAt_of (by unfold bitsAt; omega)
  simp [decodeInstr, decodeMaj14, zeroField, hm, t0_4, t0_6, t9_5, e_d, e_a, e_k]

theorem RoundTrip.vfma (d a b k t) : RoundTrip.Statement (.vfma d a b k t) := by
  intro n enc hw
  have hn : 0x15000000 + d.val * 2 ^ 19 + a.val * 2 ^ 14 + b.val * 2 ^ 9 + k.val * 2 ^ 6 + t.code * 2 ^ 4 = n := Option.some.inj enc
  have l0 := d.isLt
  have l1 := a.isLt
  have l2 := b.isLt
  have l3 := k.isLt
  have l4 := FP2.code_lt t
  refine ⟨by omega, ?_⟩
  have hm : bitsAt n 24 5 = 21 := by unfold bitsAt; omega
  have t0_4 : bitsAt n 0 4 = 0 := by unfold bitsAt; omega
  have e_d : vAt n 19 = d := vAt_of (by unfold bitsAt; omega)
  have e_a : vAt n 14 = a := vAt_of (by unfold bitsAt; omega)
  have e_b : vAt n 9 = b := vAt_of (by unfold bitsAt; omega)
  have e_k : kAt n 6 = k := kAt_of (by unfold bitsAt; omega)
  have e_t : bitsAt n 4 2 = t.code := by unfold bitsAt; omega
  simp [decodeInstr, decodeMaj15, value, FP2.ofCode_code, hm, t0_4, e_d, e_a, e_b, e_k, e_t]

theorem RoundTrip.vfms (d a b k t) : RoundTrip.Statement (.vfms d a b k t) := by
  intro n enc hw
  have hn : 0x15000001 + d.val * 2 ^ 19 + a.val * 2 ^ 14 + b.val * 2 ^ 9 + k.val * 2 ^ 6 + t.code * 2 ^ 4 = n := Option.some.inj enc
  have l0 := d.isLt
  have l1 := a.isLt
  have l2 := b.isLt
  have l3 := k.isLt
  have l4 := FP2.code_lt t
  refine ⟨by omega, ?_⟩
  have hm : bitsAt n 24 5 = 21 := by unfold bitsAt; omega
  have t0_4 : bitsAt n 0 4 = 1 := by unfold bitsAt; omega
  have e_d : vAt n 19 = d := vAt_of (by unfold bitsAt; omega)
  have e_a : vAt n 14 = a := vAt_of (by unfold bitsAt; omega)
  have e_b : vAt n 9 = b := vAt_of (by unfold bitsAt; omega)
  have e_k : kAt n 6 = k := kAt_of (by unfold bitsAt; omega)
  have e_t : bitsAt n 4 2 = t.code := by unfold bitsAt; omega
  simp [decodeInstr, decodeMaj15, value, FP2.ofCode_code, hm, t0_4, e_d, e_a, e_b, e_k, e_t]

theorem RoundTrip.vfnma (d a b k t) : RoundTrip.Statement (.vfnma d a b k t) := by
  intro n enc hw
  have hn : 0x15000002 + d.val * 2 ^ 19 + a.val * 2 ^ 14 + b.val * 2 ^ 9 + k.val * 2 ^ 6 + t.code * 2 ^ 4 = n := Option.some.inj enc
  have l0 := d.isLt
  have l1 := a.isLt
  have l2 := b.isLt
  have l3 := k.isLt
  have l4 := FP2.code_lt t
  refine ⟨by omega, ?_⟩
  have hm : bitsAt n 24 5 = 21 := by unfold bitsAt; omega
  have t0_4 : bitsAt n 0 4 = 2 := by unfold bitsAt; omega
  have e_d : vAt n 19 = d := vAt_of (by unfold bitsAt; omega)
  have e_a : vAt n 14 = a := vAt_of (by unfold bitsAt; omega)
  have e_b : vAt n 9 = b := vAt_of (by unfold bitsAt; omega)
  have e_k : kAt n 6 = k := kAt_of (by unfold bitsAt; omega)
  have e_t : bitsAt n 4 2 = t.code := by unfold bitsAt; omega
  simp [decodeInstr, decodeMaj15, value, FP2.ofCode_code, hm, t0_4, e_d, e_a, e_b, e_k, e_t]

theorem RoundTrip.vcvt (d a p k r) : RoundTrip.Statement (.vcvt d a p k r) := by
  intro n enc hw
  have hn : 0x16000000 + d.val * 2 ^ 19 + a.val * 2 ^ 14 + p.code * 2 ^ 9 + k.val * 2 ^ 6 + r.code * 2 ^ 0 = n := Option.some.inj enc
  have l0 := d.isLt
  have l1 := a.isLt
  have l2 := CvtPair.code_lt p
  have l3 := k.isLt
  have l4 := Rnd.code_lt r
  refine ⟨by omega, ?_⟩
  have hm : bitsAt n 24 5 = 22 := by unfold bitsAt; omega
  have t3_3 : bitsAt n 3 3 = 0 := by unfold bitsAt; omega
  have e_d : vAt n 19 = d := vAt_of (by unfold bitsAt; omega)
  have e_a : vAt n 14 = a := vAt_of (by unfold bitsAt; omega)
  have e_p : bitsAt n 9 5 = p.code := by unfold bitsAt; omega
  have e_k : kAt n 6 = k := kAt_of (by unfold bitsAt; omega)
  have e_r : bitsAt n 0 3 = r.code := by unfold bitsAt; omega
  simp [decodeInstr, decodeMaj16, value, checked, hw, CvtPair.ofCode_code, Rnd.ofCode_code, hm, t3_3, e_d, e_a, e_p, e_k, e_r]

theorem RoundTrip.vpack (d a s r) : RoundTrip.Statement (.vpack d a s r) := by
  intro n enc hw
  have hn : 0x16000008 + d.val * 2 ^ 19 + a.val * 2 ^ 14 + s.code * 2 ^ 9 + r.code * 2 ^ 0 = n := Option.some.inj enc
  have l0 := d.isLt
  have l1 := a.isLt
  have l2 := BX.code_lt s
  have l3 := Rnd.code_lt r
  refine ⟨by omega, ?_⟩
  have hm : bitsAt n 24 5 = 22 := by unfold bitsAt; omega
  have t3_3 : bitsAt n 3 3 = 1 := by unfold bitsAt; omega
  have t6_3 : bitsAt n 6 3 = 0 := by unfold bitsAt; omega
  have e_d : vAt n 19 = d := vAt_of (by unfold bitsAt; omega)
  have e_a : vAt n 14 = a := vAt_of (by unfold bitsAt; omega)
  have e_s : bitsAt n 9 5 = s.code := by unfold bitsAt; omega
  have e_r : bitsAt n 0 3 = r.code := by unfold bitsAt; omega
  simp [decodeInstr, decodeMaj16, zeroField, value, BX.ofCode_code, Rnd.ofCode_code, hm, t3_3, t6_3, e_d, e_a, e_s, e_r]

theorem RoundTrip.vunpk (d a s k) : RoundTrip.Statement (.vunpk d a s k) := by
  intro n enc hw
  have hn : 0x16000010 + d.val * 2 ^ 19 + a.val * 2 ^ 14 + s.code * 2 ^ 9 + k.val * 2 ^ 6 = n := Option.some.inj enc
  have l0 := d.isLt
  have l1 := a.isLt
  have l2 := BX.code_lt s
  have l3 := k.isLt
  refine ⟨by omega, ?_⟩
  have hm : bitsAt n 24 5 = 22 := by unfold bitsAt; omega
  have t0_3 : bitsAt n 0 3 = 0 := by unfold bitsAt; omega
  have t0_6 : bitsAt n 0 6 = 16 := by unfold bitsAt; omega
  have t3_3 : bitsAt n 3 3 = 2 := by unfold bitsAt; omega
  have e_d : vAt n 19 = d := vAt_of (by unfold bitsAt; omega)
  have e_a : vAt n 14 = a := vAt_of (by unfold bitsAt; omega)
  have e_s : bitsAt n 9 5 = s.code := by unfold bitsAt; omega
  have e_k : kAt n 6 = k := kAt_of (by unfold bitsAt; omega)
  simp [decodeInstr, decodeMaj16, value, BX.ofCode_code, hm, t0_6, t3_3, e_d, e_a, e_s, e_k]

theorem RoundTrip.vnarrow (d a s k) : RoundTrip.Statement (.vnarrow d a s k) := by
  intro n enc hw
  have hn : 0x16000018 + d.val * 2 ^ 19 + a.val * 2 ^ 14 + s.code * 2 ^ 9 + k.val * 2 ^ 6 = n := Option.some.inj enc
  have l0 := d.isLt
  have l1 := a.isLt
  have l2 := NarrowSel.code_lt s
  have l3 := k.isLt
  refine ⟨by omega, ?_⟩
  have hm : bitsAt n 24 5 = 22 := by unfold bitsAt; omega
  have t0_3 : bitsAt n 0 3 = 0 := by unfold bitsAt; omega
  have t0_6 : bitsAt n 0 6 = 24 := by unfold bitsAt; omega
  have t3_3 : bitsAt n 3 3 = 3 := by unfold bitsAt; omega
  have e_d : vAt n 19 = d := vAt_of (by unfold bitsAt; omega)
  have e_a : vAt n 14 = a := vAt_of (by unfold bitsAt; omega)
  have e_s : bitsAt n 9 5 = s.code := by unfold bitsAt; omega
  have e_k : kAt n 6 = k := kAt_of (by unfold bitsAt; omega)
  simp [decodeInstr, decodeMaj16, value, NarrowSel.ofCode_code, hm, t0_6, t3_3, e_d, e_a, e_s, e_k]

theorem RoundTrip.vwiden (d a s k) : RoundTrip.Statement (.vwiden d a s k) := by
  intro n enc hw
  have hn : 0x16000020 + d.val * 2 ^ 19 + a.val * 2 ^ 14 + s.code * 2 ^ 9 + k.val * 2 ^ 6 = n := Option.some.inj enc
  have l0 := d.isLt
  have l1 := a.isLt
  have l2 := WidenSel.code_lt s
  have l3 := k.isLt
  refine ⟨by omega, ?_⟩
  have hm : bitsAt n 24 5 = 22 := by unfold bitsAt; omega
  have t0_3 : bitsAt n 0 3 = 0 := by unfold bitsAt; omega
  have t0_6 : bitsAt n 0 6 = 32 := by unfold bitsAt; omega
  have t3_3 : bitsAt n 3 3 = 4 := by unfold bitsAt; omega
  have e_d : vAt n 19 = d := vAt_of (by unfold bitsAt; omega)
  have e_a : vAt n 14 = a := vAt_of (by unfold bitsAt; omega)
  have e_s : bitsAt n 9 5 = s.code := by unfold bitsAt; omega
  have e_k : kAt n 6 = k := kAt_of (by unfold bitsAt; omega)
  simp [decodeInstr, decodeMaj16, value, WidenSel.ofCode_code, hm, t0_6, t3_3, e_d, e_a, e_s, e_k]

theorem RoundTrip.vperm (d a b k z) : RoundTrip.Statement (.vperm d a b k z) := by
  intro n enc hw
  have hn : 0x17000000 + d.val * 2 ^ 19 + a.val * 2 ^ 14 + b.val * 2 ^ 9 + k.val * 2 ^ 6 + z.code * 2 ^ 0 = n := Option.some.inj enc
  have l0 := d.isLt
  have l1 := a.isLt
  have l2 := b.isLt
  have l3 := k.isLt
  have l4 := W2.code_lt z
  refine ⟨by omega, ?_⟩
  have hm : bitsAt n 24 5 = 23 := by unfold bitsAt; omega
  have t2_4 : bitsAt n 2 4 = 0 := by unfold bitsAt; omega
  have e_d : vAt n 19 = d := vAt_of (by unfold bitsAt; omega)
  have e_a : vAt n 14 = a := vAt_of (by unfold bitsAt; omega)
  have e_b : vAt n 9 = b := vAt_of (by unfold bitsAt; omega)
  have e_k : kAt n 6 = k := kAt_of (by unfold bitsAt; omega)
  have e_z : bitsAt n 0 2 = z.code := by unfold bitsAt; omega
  simp [decodeInstr, decodeMaj17, value, W2.ofCode_code, hm, t2_4, e_d, e_a, e_b, e_k, e_z]

theorem RoundTrip.vslide (d a g k z) : RoundTrip.Statement (.vslide d a g k z) := by
  intro n enc hw
  have hn : 0x17000004 + d.val * 2 ^ 19 + a.val * 2 ^ 14 + g.val * 2 ^ 9 + k.val * 2 ^ 6 + z.code * 2 ^ 0 = n := Option.some.inj enc
  have l0 := d.isLt
  have l1 := a.isLt
  have l2 := g.isLt
  have l3 := k.isLt
  have l4 := W2.code_lt z
  refine ⟨by omega, ?_⟩
  have hm : bitsAt n 24 5 = 23 := by unfold bitsAt; omega
  have t2_4 : bitsAt n 2 4 = 1 := by unfold bitsAt; omega
  have e_d : vAt n 19 = d := vAt_of (by unfold bitsAt; omega)
  have e_a : vAt n 14 = a := vAt_of (by unfold bitsAt; omega)
  have e_g : gLowAt n 9 = g := gLowAt_of (by unfold bitsAt; omega)
  have e_k : kAt n 6 = k := kAt_of (by unfold bitsAt; omega)
  have e_z : bitsAt n 0 2 = z.code := by unfold bitsAt; omega
  simp [decodeInstr, decodeMaj17, value, W2.ofCode_code, hm, t2_4, e_d, e_a, e_g, e_k, e_z]

theorem RoundTrip.vtrn (d a b k z) : RoundTrip.Statement (.vtrn d a b k z) := by
  intro n enc hw
  have hn : 0x17000008 + d.val * 2 ^ 19 + a.val * 2 ^ 14 + b.val * 2 ^ 9 + k.val * 2 ^ 6 + z.code * 2 ^ 0 = n := Option.some.inj enc
  have l0 := d.isLt
  have l1 := a.isLt
  have l2 := b.isLt
  have l3 := k.isLt
  have l4 := W2.code_lt z
  refine ⟨by omega, ?_⟩
  have hm : bitsAt n 24 5 = 23 := by unfold bitsAt; omega
  have t2_4 : bitsAt n 2 4 = 2 := by unfold bitsAt; omega
  have e_d : vAt n 19 = d := vAt_of (by unfold bitsAt; omega)
  have e_a : vAt n 14 = a := vAt_of (by unfold bitsAt; omega)
  have e_b : vAt n 9 = b := vAt_of (by unfold bitsAt; omega)
  have e_k : kAt n 6 = k := kAt_of (by unfold bitsAt; omega)
  have e_z : bitsAt n 0 2 = z.code := by unfold bitsAt; omega
  simp [decodeInstr, decodeMaj17, value, W2.ofCode_code, hm, t2_4, e_d, e_a, e_b, e_k, e_z]

theorem RoundTrip.vcompr (d a k z) : RoundTrip.Statement (.vcompr d a k z) := by
  intro n enc hw
  have hn : 0x1700000C + d.val * 2 ^ 19 + a.val * 2 ^ 14 + k.val * 2 ^ 6 + z.code * 2 ^ 0 = n := Option.some.inj enc
  have l0 := d.isLt
  have l1 := a.isLt
  have l2 := k.isLt
  have l3 := W2.code_lt z
  refine ⟨by omega, ?_⟩
  have hm : bitsAt n 24 5 = 23 := by unfold bitsAt; omega
  have t2_4 : bitsAt n 2 4 = 3 := by unfold bitsAt; omega
  have t9_5 : bitsAt n 9 5 = 0 := by unfold bitsAt; omega
  have e_d : vAt n 19 = d := vAt_of (by unfold bitsAt; omega)
  have e_a : vAt n 14 = a := vAt_of (by unfold bitsAt; omega)
  have e_k : kAt n 6 = k := kAt_of (by unfold bitsAt; omega)
  have e_z : bitsAt n 0 2 = z.code := by unfold bitsAt; omega
  simp [decodeInstr, decodeMaj17, zeroField, value, W2.ofCode_code, hm, t2_4, t9_5, e_d, e_a, e_k, e_z]

theorem RoundTrip.vexpd (d a k z) : RoundTrip.Statement (.vexpd d a k z) := by
  intro n enc hw
  have hn : 0x17000010 + d.val * 2 ^ 19 + a.val * 2 ^ 14 + k.val * 2 ^ 6 + z.code * 2 ^ 0 = n := Option.some.inj enc
  have l0 := d.isLt
  have l1 := a.isLt
  have l2 := k.isLt
  have l3 := W2.code_lt z
  refine ⟨by omega, ?_⟩
  have hm : bitsAt n 24 5 = 23 := by unfold bitsAt; omega
  have t2_4 : bitsAt n 2 4 = 4 := by unfold bitsAt; omega
  have t9_5 : bitsAt n 9 5 = 0 := by unfold bitsAt; omega
  have e_d : vAt n 19 = d := vAt_of (by unfold bitsAt; omega)
  have e_a : vAt n 14 = a := vAt_of (by unfold bitsAt; omega)
  have e_k : kAt n 6 = k := kAt_of (by unfold bitsAt; omega)
  have e_z : bitsAt n 0 2 = z.code := by unfold bitsAt; omega
  simp [decodeInstr, decodeMaj17, zeroField, value, W2.ofCode_code, hm, t2_4, t9_5, e_d, e_a, e_k, e_z]

theorem RoundTrip.vredInt (d a s k z) : RoundTrip.Statement (.vredInt d a s k z) := by
  intro n enc hw
  have hn : 0x17000014 + d.val * 2 ^ 19 + a.val * 2 ^ 14 + s.code * 2 ^ 9 + k.val * 2 ^ 6 + z.code * 2 ^ 0 = n := Option.some.inj enc
  have l0 := d.isLt
  have l1 := a.isLt
  have l2 := RedSel.code_lt s
  have l3 := k.isLt
  have l4 := W2.code_lt z
  refine ⟨by omega, ?_⟩
  have hm : bitsAt n 24 5 = 23 := by unfold bitsAt; omega
  have t2_4 : bitsAt n 2 4 = 5 := by unfold bitsAt; omega
  have e_d : vAt n 19 = d := vAt_of (by unfold bitsAt; omega)
  have e_a : vAt n 14 = a := vAt_of (by unfold bitsAt; omega)
  have e_s : bitsAt n 9 5 = s.code := by unfold bitsAt; omega
  have e_k : kAt n 6 = k := kAt_of (by unfold bitsAt; omega)
  have e_z : bitsAt n 0 2 = z.code := by unfold bitsAt; omega
  simp [decodeInstr, decodeMaj17, value, RedSel.ofCode_code, W2.ofCode_code, hm, t2_4, e_d, e_a, e_s, e_k, e_z]

theorem RoundTrip.vredFp (d a s k t) : RoundTrip.Statement (.vredFp d a s k t) := by
  intro n enc hw
  have hn : 0x17000018 + d.val * 2 ^ 19 + a.val * 2 ^ 14 + s.code * 2 ^ 9 + k.val * 2 ^ 6 + t.code * 2 ^ 0 = n := Option.some.inj enc
  have l0 := d.isLt
  have l1 := a.isLt
  have l2 := FRedSel.code_lt s
  have l3 := k.isLt
  have l4 := FP2.code_lt t
  refine ⟨by omega, ?_⟩
  have hm : bitsAt n 24 5 = 23 := by unfold bitsAt; omega
  have t2_4 : bitsAt n 2 4 = 6 := by unfold bitsAt; omega
  have e_d : vAt n 19 = d := vAt_of (by unfold bitsAt; omega)
  have e_a : vAt n 14 = a := vAt_of (by unfold bitsAt; omega)
  have e_s : bitsAt n 9 5 = s.code := by unfold bitsAt; omega
  have e_k : kAt n 6 = k := kAt_of (by unfold bitsAt; omega)
  have e_t : bitsAt n 0 2 = t.code := by unfold bitsAt; omega
  simp [decodeInstr, decodeMaj17, value, FP2.ofCode_code, FRedSel.ofCode_code, hm, t2_4, e_d, e_a, e_s, e_k, e_t]

theorem RoundTrip.vscanInt (d a s k z) : RoundTrip.Statement (.vscanInt d a s k z) := by
  intro n enc hw
  have hn : 0x1700001C + d.val * 2 ^ 19 + a.val * 2 ^ 14 + s.code * 2 ^ 9 + k.val * 2 ^ 6 + z.code * 2 ^ 0 = n := Option.some.inj enc
  have l0 := d.isLt
  have l1 := a.isLt
  have l2 := RedSel.code_lt s
  have l3 := k.isLt
  have l4 := W2.code_lt z
  refine ⟨by omega, ?_⟩
  have hm : bitsAt n 24 5 = 23 := by unfold bitsAt; omega
  have t2_4 : bitsAt n 2 4 = 7 := by unfold bitsAt; omega
  have e_d : vAt n 19 = d := vAt_of (by unfold bitsAt; omega)
  have e_a : vAt n 14 = a := vAt_of (by unfold bitsAt; omega)
  have e_s : bitsAt n 9 5 = s.code := by unfold bitsAt; omega
  have e_k : kAt n 6 = k := kAt_of (by unfold bitsAt; omega)
  have e_z : bitsAt n 0 2 = z.code := by unfold bitsAt; omega
  simp [decodeInstr, decodeMaj17, value, RedSel.ofCode_code, W2.ofCode_code, hm, t2_4, e_d, e_a, e_s, e_k, e_z]

theorem RoundTrip.vscanFp (d a s k t) : RoundTrip.Statement (.vscanFp d a s k t) := by
  intro n enc hw
  have hn : 0x17000020 + d.val * 2 ^ 19 + a.val * 2 ^ 14 + s.code * 2 ^ 9 + k.val * 2 ^ 6 + t.code * 2 ^ 0 = n := Option.some.inj enc
  have l0 := d.isLt
  have l1 := a.isLt
  have l2 := FRedSel.code_lt s
  have l3 := k.isLt
  have l4 := FP2.code_lt t
  refine ⟨by omega, ?_⟩
  have hm : bitsAt n 24 5 = 23 := by unfold bitsAt; omega
  have t2_4 : bitsAt n 2 4 = 8 := by unfold bitsAt; omega
  have e_d : vAt n 19 = d := vAt_of (by unfold bitsAt; omega)
  have e_a : vAt n 14 = a := vAt_of (by unfold bitsAt; omega)
  have e_s : bitsAt n 9 5 = s.code := by unfold bitsAt; omega
  have e_k : kAt n 6 = k := kAt_of (by unfold bitsAt; omega)
  have e_t : bitsAt n 0 2 = t.code := by unfold bitsAt; omega
  simp [decodeInstr, decodeMaj17, value, FP2.ofCode_code, FRedSel.ofCode_code, hm, t2_4, e_d, e_a, e_s, e_k, e_t]

theorem RoundTrip.vrord (s g h k) : RoundTrip.Statement (.vrord s g h k) := by
  intro n enc hw
  have hn : 0x17000024 + s.val * 2 ^ 19 + g.val * 2 ^ 14 + h.val * 2 ^ 9 + k.val * 2 ^ 6 = n := Option.some.inj enc
  have l0 := s.isLt
  have l1 := g.isLt
  have l2 := h.isLt
  have l3 := k.isLt
  refine ⟨by omega, ?_⟩
  have hm : bitsAt n 24 5 = 23 := by unfold bitsAt; omega
  have t0_2 : bitsAt n 0 2 = 0 := by unfold bitsAt; omega
  have t0_6 : bitsAt n 0 6 = 36 := by unfold bitsAt; omega
  have t2_4 : bitsAt n 2 4 = 9 := by unfold bitsAt; omega
  have e_s : vAt n 19 = s := vAt_of (by unfold bitsAt; omega)
  have e_g : gLowAt n 14 = g := gLowAt_of (by unfold bitsAt; omega)
  have e_h : gLowAt n 9 = h := gLowAt_of (by unfold bitsAt; omega)
  have e_k : kAt n 6 = k := kAt_of (by unfold bitsAt; omega)
  simp [decodeInstr, decodeMaj17, hm, t0_6, t2_4, e_s, e_g, e_h, e_k]

theorem RoundTrip.kand (d a b) : RoundTrip.Statement (.kand d a b) := by
  intro n enc hw
  have hn : 0x18000000 + d.val * 2 ^ 19 + a.val * 2 ^ 14 + b.val * 2 ^ 9 = n := Option.some.inj enc
  have l0 := d.isLt
  have l1 := a.isLt
  have l2 := b.isLt
  refine ⟨by omega, ?_⟩
  have hm : bitsAt n 24 5 = 24 := by unfold bitsAt; omega
  have t0_2 : bitsAt n 0 2 = 0 := by unfold bitsAt; omega
  have t0_3 : bitsAt n 0 3 = 0 := by unfold bitsAt; omega
  have t2_2 : bitsAt n 2 2 = 0 := by unfold bitsAt; omega
  have t2_4 : bitsAt n 2 4 = 0 := by unfold bitsAt; omega
  have t3_3 : bitsAt n 3 3 = 0 := by unfold bitsAt; omega
  have t6_3 : bitsAt n 6 3 = 0 := by unfold bitsAt; omega
  have e_d : k5At n 19 = some d := k5At_of (by unfold bitsAt; omega)
  have e_a : k5At n 14 = some a := k5At_of (by unfold bitsAt; omega)
  have e_b : k5At n 9 = some b := k5At_of (by unfold bitsAt; omega)
  simp [decodeInstr, decodeMaj18, zeroField, value, hm, t0_3, t3_3, t6_3, e_d, e_a, e_b]

theorem RoundTrip.kor (d a b) : RoundTrip.Statement (.kor d a b) := by
  intro n enc hw
  have hn : 0x18000001 + d.val * 2 ^ 19 + a.val * 2 ^ 14 + b.val * 2 ^ 9 = n := Option.some.inj enc
  have l0 := d.isLt
  have l1 := a.isLt
  have l2 := b.isLt
  refine ⟨by omega, ?_⟩
  have hm : bitsAt n 24 5 = 24 := by unfold bitsAt; omega
  have t0_2 : bitsAt n 0 2 = 1 := by unfold bitsAt; omega
  have t0_3 : bitsAt n 0 3 = 1 := by unfold bitsAt; omega
  have t2_2 : bitsAt n 2 2 = 0 := by unfold bitsAt; omega
  have t2_4 : bitsAt n 2 4 = 0 := by unfold bitsAt; omega
  have t3_3 : bitsAt n 3 3 = 0 := by unfold bitsAt; omega
  have t6_3 : bitsAt n 6 3 = 0 := by unfold bitsAt; omega
  have e_d : k5At n 19 = some d := k5At_of (by unfold bitsAt; omega)
  have e_a : k5At n 14 = some a := k5At_of (by unfold bitsAt; omega)
  have e_b : k5At n 9 = some b := k5At_of (by unfold bitsAt; omega)
  simp [decodeInstr, decodeMaj18, zeroField, value, hm, t0_3, t3_3, t6_3, e_d, e_a, e_b]

theorem RoundTrip.kxor (d a b) : RoundTrip.Statement (.kxor d a b) := by
  intro n enc hw
  have hn : 0x18000002 + d.val * 2 ^ 19 + a.val * 2 ^ 14 + b.val * 2 ^ 9 = n := Option.some.inj enc
  have l0 := d.isLt
  have l1 := a.isLt
  have l2 := b.isLt
  refine ⟨by omega, ?_⟩
  have hm : bitsAt n 24 5 = 24 := by unfold bitsAt; omega
  have t0_2 : bitsAt n 0 2 = 2 := by unfold bitsAt; omega
  have t0_3 : bitsAt n 0 3 = 2 := by unfold bitsAt; omega
  have t2_2 : bitsAt n 2 2 = 0 := by unfold bitsAt; omega
  have t2_4 : bitsAt n 2 4 = 0 := by unfold bitsAt; omega
  have t3_3 : bitsAt n 3 3 = 0 := by unfold bitsAt; omega
  have t6_3 : bitsAt n 6 3 = 0 := by unfold bitsAt; omega
  have e_d : k5At n 19 = some d := k5At_of (by unfold bitsAt; omega)
  have e_a : k5At n 14 = some a := k5At_of (by unfold bitsAt; omega)
  have e_b : k5At n 9 = some b := k5At_of (by unfold bitsAt; omega)
  simp [decodeInstr, decodeMaj18, zeroField, value, hm, t0_3, t3_3, t6_3, e_d, e_a, e_b]

theorem RoundTrip.knot (d a) : RoundTrip.Statement (.knot d a) := by
  intro n enc hw
  have hn : 0x18000003 + d.val * 2 ^ 19 + a.val * 2 ^ 14 = n := Option.some.inj enc
  have l0 := d.isLt
  have l1 := a.isLt
  refine ⟨by omega, ?_⟩
  have hm : bitsAt n 24 5 = 24 := by unfold bitsAt; omega
  have t0_2 : bitsAt n 0 2 = 3 := by unfold bitsAt; omega
  have t0_3 : bitsAt n 0 3 = 3 := by unfold bitsAt; omega
  have t2_2 : bitsAt n 2 2 = 0 := by unfold bitsAt; omega
  have t2_4 : bitsAt n 2 4 = 0 := by unfold bitsAt; omega
  have t3_3 : bitsAt n 3 3 = 0 := by unfold bitsAt; omega
  have t6_8 : bitsAt n 6 8 = 0 := by unfold bitsAt; omega
  have e_d : k5At n 19 = some d := k5At_of (by unfold bitsAt; omega)
  have e_a : k5At n 14 = some a := k5At_of (by unfold bitsAt; omega)
  simp [decodeInstr, decodeMaj18, zeroField, value, hm, t0_3, t3_3, t6_8, e_d, e_a]

theorem RoundTrip.kmov (d a) : RoundTrip.Statement (.kmov d a) := by
  intro n enc hw
  have hn : 0x18000004 + d.val * 2 ^ 19 + a.val * 2 ^ 14 = n := Option.some.inj enc
  have l0 := d.isLt
  have l1 := a.isLt
  refine ⟨by omega, ?_⟩
  have hm : bitsAt n 24 5 = 24 := by unfold bitsAt; omega
  have t0_2 : bitsAt n 0 2 = 0 := by unfold bitsAt; omega
  have t0_3 : bitsAt n 0 3 = 4 := by unfold bitsAt; omega
  have t2_2 : bitsAt n 2 2 = 1 := by unfold bitsAt; omega
  have t2_4 : bitsAt n 2 4 = 1 := by unfold bitsAt; omega
  have t3_3 : bitsAt n 3 3 = 0 := by unfold bitsAt; omega
  have t6_8 : bitsAt n 6 8 = 0 := by unfold bitsAt; omega
  have e_d : k5At n 19 = some d := k5At_of (by unfold bitsAt; omega)
  have e_a : k5At n 14 = some a := k5At_of (by unfold bitsAt; omega)
  simp [decodeInstr, decodeMaj18, zeroField, value, hm, t0_3, t3_3, t6_8, e_d, e_a]

theorem RoundTrip.kpopc (d a) : RoundTrip.Statement (.kpopc d a) := by
  intro n enc hw
  have hn : 0x18000005 + d.val * 2 ^ 19 + a.val * 2 ^ 14 = n := Option.some.inj enc
  have l0 := d.isLt
  have l1 := a.isLt
  refine ⟨by omega, ?_⟩
  have hm : bitsAt n 24 5 = 24 := by unfold bitsAt; omega
  have t0_2 : bitsAt n 0 2 = 1 := by unfold bitsAt; omega
  have t0_3 : bitsAt n 0 3 = 5 := by unfold bitsAt; omega
  have t2_2 : bitsAt n 2 2 = 1 := by unfold bitsAt; omega
  have t2_4 : bitsAt n 2 4 = 1 := by unfold bitsAt; omega
  have t3_3 : bitsAt n 3 3 = 0 := by unfold bitsAt; omega
  have t6_8 : bitsAt n 6 8 = 0 := by unfold bitsAt; omega
  have e_d : gLowAt n 19 = d := gLowAt_of (by unfold bitsAt; omega)
  have e_a : k5At n 14 = some a := k5At_of (by unfold bitsAt; omega)
  simp [decodeInstr, decodeMaj18, zeroField, value, hm, t0_3, t3_3, t6_8, e_d, e_a]

theorem RoundTrip.kfirst (d a) : RoundTrip.Statement (.kfirst d a) := by
  intro n enc hw
  have hn : 0x18000006 + d.val * 2 ^ 19 + a.val * 2 ^ 14 = n := Option.some.inj enc
  have l0 := d.isLt
  have l1 := a.isLt
  refine ⟨by omega, ?_⟩
  have hm : bitsAt n 24 5 = 24 := by unfold bitsAt; omega
  have t0_2 : bitsAt n 0 2 = 2 := by unfold bitsAt; omega
  have t0_3 : bitsAt n 0 3 = 6 := by unfold bitsAt; omega
  have t2_2 : bitsAt n 2 2 = 1 := by unfold bitsAt; omega
  have t2_4 : bitsAt n 2 4 = 1 := by unfold bitsAt; omega
  have t3_3 : bitsAt n 3 3 = 0 := by unfold bitsAt; omega
  have t6_8 : bitsAt n 6 8 = 0 := by unfold bitsAt; omega
  have e_d : gLowAt n 19 = d := gLowAt_of (by unfold bitsAt; omega)
  have e_a : k5At n 14 = some a := k5At_of (by unfold bitsAt; omega)
  simp [decodeInstr, decodeMaj18, zeroField, value, hm, t0_3, t3_3, t6_8, e_d, e_a]

theorem RoundTrip.kset (d a) : RoundTrip.Statement (.kset d a) := by
  intro n enc hw
  have hn : 0x18000007 + d.val * 2 ^ 19 + a.val * 2 ^ 14 = n := Option.some.inj enc
  have l0 := d.isLt
  have l1 := a.isLt
  refine ⟨by omega, ?_⟩
  have hm : bitsAt n 24 5 = 24 := by unfold bitsAt; omega
  have t0_2 : bitsAt n 0 2 = 3 := by unfold bitsAt; omega
  have t0_3 : bitsAt n 0 3 = 7 := by unfold bitsAt; omega
  have t2_2 : bitsAt n 2 2 = 1 := by unfold bitsAt; omega
  have t2_4 : bitsAt n 2 4 = 1 := by unfold bitsAt; omega
  have t3_3 : bitsAt n 3 3 = 0 := by unfold bitsAt; omega
  have t6_8 : bitsAt n 6 8 = 0 := by unfold bitsAt; omega
  have e_d : k5At n 19 = some d := k5At_of (by unfold bitsAt; omega)
  have e_a : gLowAt n 14 = a := gLowAt_of (by unfold bitsAt; omega)
  simp [decodeInstr, decodeMaj18, zeroField, value, hm, t0_3, t3_3, t6_8, e_d, e_a]

theorem RoundTrip.vsel (d a b k z) : RoundTrip.Statement (.vsel d a b k z) := by
  intro n enc hw
  have hn : 0x18000008 + d.val * 2 ^ 19 + a.val * 2 ^ 14 + b.val * 2 ^ 9 + k.val * 2 ^ 6 + z.code * 2 ^ 0 = n := Option.some.inj enc
  have l0 := d.isLt
  have l1 := a.isLt
  have l2 := b.isLt
  have l3 := k.isLt
  have l4 := W2.code_lt z
  refine ⟨by omega, ?_⟩
  have hm : bitsAt n 24 5 = 24 := by unfold bitsAt; omega
  have t2_2 : bitsAt n 2 2 = 2 := by unfold bitsAt; omega
  have t2_4 : bitsAt n 2 4 = 2 := by unfold bitsAt; omega
  have t3_3 : bitsAt n 3 3 = 1 := by unfold bitsAt; omega
  have e_d : vAt n 19 = d := vAt_of (by unfold bitsAt; omega)
  have e_a : vAt n 14 = a := vAt_of (by unfold bitsAt; omega)
  have e_b : vAt n 9 = b := vAt_of (by unfold bitsAt; omega)
  have e_k : kAt n 6 = k := kAt_of (by unfold bitsAt; omega)
  have e_z : bitsAt n 0 2 = z.code := by unfold bitsAt; omega
  simp [decodeInstr, decodeMaj18, value, W2.ofCode_code, hm, t2_4, t3_3, e_d, e_a, e_b, e_k, e_z]

theorem RoundTrip.vbcast (d g k z) : RoundTrip.Statement (.vbcast d g k z) := by
  intro n enc hw
  have hn : 0x1800000C + d.val * 2 ^ 19 + g.val * 2 ^ 14 + k.val * 2 ^ 6 + z.code * 2 ^ 0 = n := Option.some.inj enc
  have l0 := d.isLt
  have l1 := g.isLt
  have l2 := k.isLt
  have l3 := W2.code_lt z
  refine ⟨by omega, ?_⟩
  have hm : bitsAt n 24 5 = 24 := by unfold bitsAt; omega
  have t2_2 : bitsAt n 2 2 = 3 := by unfold bitsAt; omega
  have t2_4 : bitsAt n 2 4 = 3 := by unfold bitsAt; omega
  have t3_3 : bitsAt n 3 3 = 1 := by unfold bitsAt; omega
  have t9_5 : bitsAt n 9 5 = 0 := by unfold bitsAt; omega
  have e_d : vAt n 19 = d := vAt_of (by unfold bitsAt; omega)
  have e_g : gLowAt n 14 = g := gLowAt_of (by unfold bitsAt; omega)
  have e_k : kAt n 6 = k := kAt_of (by unfold bitsAt; omega)
  have e_z : bitsAt n 0 2 = z.code := by unfold bitsAt; omega
  simp [decodeInstr, decodeMaj18, zeroField, value, W2.ofCode_code, hm, t2_4, t3_3, t9_5, e_d, e_g, e_k, e_z]

theorem RoundTrip.vext (g a h z) : RoundTrip.Statement (.vext g a h z) := by
  intro n enc hw
  have hn : 0x18000010 + g.val * 2 ^ 19 + a.val * 2 ^ 14 + h.val * 2 ^ 9 + z.code * 2 ^ 0 = n := Option.some.inj enc
  have l0 := g.isLt
  have l1 := a.isLt
  have l2 := h.isLt
  have l3 := W2.code_lt z
  refine ⟨by omega, ?_⟩
  have hm : bitsAt n 24 5 = 24 := by unfold bitsAt; omega
  have t2_2 : bitsAt n 2 2 = 0 := by unfold bitsAt; omega
  have t2_4 : bitsAt n 2 4 = 4 := by unfold bitsAt; omega
  have t3_3 : bitsAt n 3 3 = 2 := by unfold bitsAt; omega
  have t6_3 : bitsAt n 6 3 = 0 := by unfold bitsAt; omega
  have e_g : gLowAt n 19 = g := gLowAt_of (by unfold bitsAt; omega)
  have e_a : vAt n 14 = a := vAt_of (by unfold bitsAt; omega)
  have e_h : gLowAt n 9 = h := gLowAt_of (by unfold bitsAt; omega)
  have e_z : bitsAt n 0 2 = z.code := by unfold bitsAt; omega
  simp [decodeInstr, decodeMaj18, zeroField, value, W2.ofCode_code, hm, t2_4, t3_3, t6_3, e_g, e_a, e_h, e_z]

theorem RoundTrip.vins (d g h z) : RoundTrip.Statement (.vins d g h z) := by
  intro n enc hw
  have hn : 0x18000014 + d.val * 2 ^ 19 + g.val * 2 ^ 14 + h.val * 2 ^ 9 + z.code * 2 ^ 0 = n := Option.some.inj enc
  have l0 := d.isLt
  have l1 := g.isLt
  have l2 := h.isLt
  have l3 := W2.code_lt z
  refine ⟨by omega, ?_⟩
  have hm : bitsAt n 24 5 = 24 := by unfold bitsAt; omega
  have t2_2 : bitsAt n 2 2 = 1 := by unfold bitsAt; omega
  have t2_4 : bitsAt n 2 4 = 5 := by unfold bitsAt; omega
  have t3_3 : bitsAt n 3 3 = 2 := by unfold bitsAt; omega
  have t6_3 : bitsAt n 6 3 = 0 := by unfold bitsAt; omega
  have e_d : vAt n 19 = d := vAt_of (by unfold bitsAt; omega)
  have e_g : gLowAt n 14 = g := gLowAt_of (by unfold bitsAt; omega)
  have e_h : gLowAt n 9 = h := gLowAt_of (by unfold bitsAt; omega)
  have e_z : bitsAt n 0 2 = z.code := by unfold bitsAt; omega
  simp [decodeInstr, decodeMaj18, zeroField, value, W2.ofCode_code, hm, t2_4, t3_3, t6_3, e_d, e_g, e_h, e_z]

theorem RoundTrip.vcmp (d a b k c z) : RoundTrip.Statement (.vcmp d a b k c z) := by
  intro n enc hw
  have hn : 0x18000000 + d.val * 2 ^ 19 + a.val * 2 ^ 14 + b.val * 2 ^ 9 + k.val * 2 ^ 6 + (c.code + 6) * 2 ^ 2 + z.code * 2 ^ 0 = n := Option.some.inj enc
  have l0 := d.isLt
  have l1 := a.isLt
  have l2 := b.isLt
  have l3 := k.isLt
  have l4 := Cond.code_lt c
  have l5 := W2.code_lt z
  refine ⟨by omega, ?_⟩
  have hm : bitsAt n 24 5 = 24 := by unfold bitsAt; omega
  have e_d : k5At n 19 = some d := k5At_of (by unfold bitsAt; omega)
  have e_a : vAt n 14 = a := vAt_of (by unfold bitsAt; omega)
  have e_b : vAt n 9 = b := vAt_of (by unfold bitsAt; omega)
  have e_k : kAt n 6 = k := kAt_of (by unfold bitsAt; omega)
  have e_z : bitsAt n 0 2 = z.code := by unfold bitsAt; omega
  have tc : bitsAt n 2 4 = c.code + 6 := by unfold bitsAt; omega
  have t33 : ¬ bitsAt n 3 3 = 0 := by unfold bitsAt; omega
  cases c <;> simp only [Cond.code] at tc <;>
    simp [decodeInstr, decodeMaj18, value, t33, tc, Cond.ofCode, W2.ofCode_code, hm, e_d, e_a, e_b, e_k, e_z]

theorem RoundTrip.vfcmp (d a b k c t) : RoundTrip.Statement (.vfcmp d a b k c t) := by
  intro n enc hw
  have hn : 0x18000030 + d.val * 2 ^ 19 + a.val * 2 ^ 14 + b.val * 2 ^ 9 + k.val * 2 ^ 6 + c.code * 2 ^ 2 + t.code * 2 ^ 0 = n := Option.some.inj enc
  have l0 := d.isLt
  have l1 := a.isLt
  have l2 := b.isLt
  have l3 := k.isLt
  have l4 := FCond.code_lt c
  have l5 := FP2.code_lt t
  refine ⟨by omega, ?_⟩
  have hm : bitsAt n 24 5 = 24 := by unfold bitsAt; omega
  have e_d : k5At n 19 = some d := k5At_of (by unfold bitsAt; omega)
  have e_a : vAt n 14 = a := vAt_of (by unfold bitsAt; omega)
  have e_b : vAt n 9 = b := vAt_of (by unfold bitsAt; omega)
  have e_k : kAt n 6 = k := kAt_of (by unfold bitsAt; omega)
  have e_t : bitsAt n 0 2 = t.code := by unfold bitsAt; omega
  have tc : bitsAt n 2 4 = c.code + 12 := by unfold bitsAt; omega
  have td : bitsAt n 2 2 = c.code := by unfold bitsAt; omega
  have t33 : ¬ bitsAt n 3 3 = 0 := by unfold bitsAt; omega
  cases c <;> simp only [FCond.code] at tc td <;>
    simp [decodeInstr, decodeMaj18, value, t33, tc, td, FCond.ofCode, FP2.ofCode_code, hm, e_d, e_a, e_b, e_k, e_t]

theorem RoundTrip.mma (a b c k) : RoundTrip.Statement (.mma a b c k) := by
  intro n enc hw
  have hn : 0x19000000 + a.val * 2 ^ 14 + b.val * 2 ^ 8 + c.val * 2 ^ 6 + (boolNat k) * 2 ^ 1 = n := Option.some.inj enc
  have l0 := a.isLt
  have l1 := b.isLt
  have l2 := c.isLt
  have l3 := boolNat_lt k
  refine ⟨by omega, ?_⟩
  have hm : bitsAt n 24 5 = 25 := by unfold bitsAt; omega
  have t0_1 : bitsAt n 0 1 = 0 := by unfold bitsAt; omega
  have t2_4 : bitsAt n 2 4 = 0 := by unfold bitsAt; omega
  have t20_4 : bitsAt n 20 4 = 0 := by unfold bitsAt; omega
  have e_a : gAt n 14 = a := gAt_of (by unfold bitsAt; omega)
  have e_b : gAt n 8 = b := gAt_of (by unfold bitsAt; omega)
  have e_c : accAt n 6 = c := accAt_of (by unfold bitsAt; omega)
  have e_k : boolAt n 1 = k := boolAt_of (by unfold bitsAt; omega)
  simp [decodeInstr, decodeMaj19, zeroField, hm, t0_1, t2_4, t20_4, e_a, e_b, e_c, e_k]

theorem RoundTrip.mmaRing (a c k) : RoundTrip.Statement (.mmaRing a c k) := by
  intro n enc hw
  have hn : 0x19000001 + a.val * 2 ^ 14 + c.val * 2 ^ 6 + (boolNat k) * 2 ^ 1 = n := Option.some.inj enc
  have l0 := a.isLt
  have l1 := c.isLt
  have l2 := boolNat_lt k
  refine ⟨by omega, ?_⟩
  have hm : bitsAt n 24 5 = 25 := by unfold bitsAt; omega
  have t0_1 : bitsAt n 0 1 = 1 := by unfold bitsAt; omega
  have t2_4 : bitsAt n 2 4 = 0 := by unfold bitsAt; omega
  have t8_6 : bitsAt n 8 6 = 0 := by unfold bitsAt; omega
  have t20_4 : bitsAt n 20 4 = 0 := by unfold bitsAt; omega
  have e_a : gAt n 14 = a := gAt_of (by unfold bitsAt; omega)
  have e_c : accAt n 6 = c := accAt_of (by unfold bitsAt; omega)
  have e_k : boolAt n 1 = k := boolAt_of (by unfold bitsAt; omega)
  simp [decodeInstr, decodeMaj19, zeroField, hm, t0_1, t2_4, t8_6, t20_4, e_a, e_c, e_k]

theorem RoundTrip.mmat (a b c k) : RoundTrip.Statement (.mmat a b c k) := by
  intro n enc hw
  have hn : 0x19100000 + a.val * 2 ^ 14 + b.val * 2 ^ 8 + c.val * 2 ^ 6 + (boolNat k) * 2 ^ 1 = n := Option.some.inj enc
  have l0 := a.isLt
  have l1 := b.isLt
  have l2 := c.isLt
  have l3 := boolNat_lt k
  refine ⟨by omega, ?_⟩
  have hm : bitsAt n 24 5 = 25 := by unfold bitsAt; omega
  have t0_1 : bitsAt n 0 1 = 0 := by unfold bitsAt; omega
  have t2_4 : bitsAt n 2 4 = 0 := by unfold bitsAt; omega
  have t20_4 : bitsAt n 20 4 = 1 := by unfold bitsAt; omega
  have e_a : gAt n 14 = a := gAt_of (by unfold bitsAt; omega)
  have e_b : gAt n 8 = b := gAt_of (by unfold bitsAt; omega)
  have e_c : accAt n 6 = c := accAt_of (by unfold bitsAt; omega)
  have e_k : boolAt n 1 = k := boolAt_of (by unfold bitsAt; omega)
  simp [decodeInstr, decodeMaj19, zeroField, hm, t0_1, t2_4, t20_4, e_a, e_b, e_c, e_k]

theorem RoundTrip.mmatRing (a c k) : RoundTrip.Statement (.mmatRing a c k) := by
  intro n enc hw
  have hn : 0x19100001 + a.val * 2 ^ 14 + c.val * 2 ^ 6 + (boolNat k) * 2 ^ 1 = n := Option.some.inj enc
  have l0 := a.isLt
  have l1 := c.isLt
  have l2 := boolNat_lt k
  refine ⟨by omega, ?_⟩
  have hm : bitsAt n 24 5 = 25 := by unfold bitsAt; omega
  have t0_1 : bitsAt n 0 1 = 1 := by unfold bitsAt; omega
  have t2_4 : bitsAt n 2 4 = 0 := by unfold bitsAt; omega
  have t8_6 : bitsAt n 8 6 = 0 := by unfold bitsAt; omega
  have t20_4 : bitsAt n 20 4 = 1 := by unfold bitsAt; omega
  have e_a : gAt n 14 = a := gAt_of (by unfold bitsAt; omega)
  have e_c : accAt n 6 = c := accAt_of (by unfold bitsAt; omega)
  have e_k : boolAt n 1 = k := boolAt_of (by unfold bitsAt; omega)
  simp [decodeInstr, decodeMaj19, zeroField, hm, t0_1, t2_4, t8_6, t20_4, e_a, e_c, e_k]

theorem RoundTrip.mclaim : RoundTrip.Statement (.mclaim) := by
  intro n enc hw
  have hn : 0x1A000000 = n := Option.some.inj enc
  refine ⟨by omega, ?_⟩
  have hm : bitsAt n 24 5 = 26 := by unfold bitsAt; omega
  have t0_3 : bitsAt n 0 3 = 0 := by unfold bitsAt; omega
  have t0_20 : bitsAt n 0 20 = 0 := by unfold bitsAt; omega
  have t3_3 : bitsAt n 3 3 = 0 := by unfold bitsAt; omega
  have t20_4 : bitsAt n 20 4 = 0 := by unfold bitsAt; omega
  simp [decodeInstr, decodeMaj1A, zeroField, hm, t0_20, t20_4]

theorem RoundTrip.mrel : RoundTrip.Statement (.mrel) := by
  intro n enc hw
  have hn : 0x1A100000 = n := Option.some.inj enc
  refine ⟨by omega, ?_⟩
  have hm : bitsAt n 24 5 = 26 := by unfold bitsAt; omega
  have t0_3 : bitsAt n 0 3 = 0 := by unfold bitsAt; omega
  have t0_20 : bitsAt n 0 20 = 0 := by unfold bitsAt; omega
  have t3_3 : bitsAt n 3 3 = 0 := by unfold bitsAt; omega
  have t20_4 : bitsAt n 20 4 = 1 := by unfold bitsAt; omega
  simp [decodeInstr, decodeMaj1A, zeroField, hm, t0_20, t20_4]

theorem RoundTrip.mzero (c) : RoundTrip.Statement (.mzero c) := by
  intro n enc hw
  have hn : 0x1A200000 + c.val * 2 ^ 6 = n := Option.some.inj enc
  have l0 := c.isLt
  refine ⟨by omega, ?_⟩
  have hm : bitsAt n 24 5 = 26 := by unfold bitsAt; omega
  have t0_3 : bitsAt n 0 3 = 0 := by unfold bitsAt; omega
  have t0_6 : bitsAt n 0 6 = 0 := by unfold bitsAt; omega
  have t3_3 : bitsAt n 3 3 = 0 := by unfold bitsAt; omega
  have t8_12 : bitsAt n 8 12 = 0 := by unfold bitsAt; omega
  have t20_4 : bitsAt n 20 4 = 2 := by unfold bitsAt; omega
  have e_c : accAt n 6 = c := accAt_of (by unfold bitsAt; omega)
  simp [decodeInstr, decodeMaj1A, zeroField, hm, t0_6, t8_12, t20_4, e_c]

theorem RoundTrip.mswap (c) : RoundTrip.Statement (.mswap c) := by
  intro n enc hw
  have hn : 0x1A300000 + c.val * 2 ^ 6 = n := Option.some.inj enc
  have l0 := c.isLt
  refine ⟨by omega, ?_⟩
  have hm : bitsAt n 24 5 = 26 := by unfold bitsAt; omega
  have t0_3 : bitsAt n 0 3 = 0 := by unfold bitsAt; omega
  have t0_6 : bitsAt n 0 6 = 0 := by unfold bitsAt; omega
  have t3_3 : bitsAt n 3 3 = 0 := by unfold bitsAt; omega
  have t8_12 : bitsAt n 8 12 = 0 := by unfold bitsAt; omega
  have t20_4 : bitsAt n 20 4 = 3 := by unfold bitsAt; omega
  have e_c : accAt n 6 = c := accAt_of (by unfold bitsAt; omega)
  simp [decodeInstr, decodeMaj1A, zeroField, hm, t0_6, t8_12, t20_4, e_c]

theorem RoundTrip.mldacc (a c) : RoundTrip.Statement (.mldacc a c) := by
  intro n enc hw
  have hn : 0x1A400000 + a.val * 2 ^ 14 + c.val * 2 ^ 6 = n := Option.some.inj enc
  have l0 := a.isLt
  have l1 := c.isLt
  refine ⟨by omega, ?_⟩
  have hm : bitsAt n 24 5 = 26 := by unfold bitsAt; omega
  have t0_3 : bitsAt n 0 3 = 0 := by unfold bitsAt; omega
  have t0_6 : bitsAt n 0 6 = 0 := by unfold bitsAt; omega
  have t3_3 : bitsAt n 3 3 = 0 := by unfold bitsAt; omega
  have t8_6 : bitsAt n 8 6 = 0 := by unfold bitsAt; omega
  have t20_4 : bitsAt n 20 4 = 4 := by unfold bitsAt; omega
  have e_a : gAt n 14 = a := gAt_of (by unfold bitsAt; omega)
  have e_c : accAt n 6 = c := accAt_of (by unfold bitsAt; omega)
  simp [decodeInstr, decodeMaj1A, zeroField, hm, t0_6, t8_6, t20_4, e_a, e_c]

theorem RoundTrip.mstacc (a c) : RoundTrip.Statement (.mstacc a c) := by
  intro n enc hw
  have hn : 0x1A500000 + a.val * 2 ^ 14 + c.val * 2 ^ 6 = n := Option.some.inj enc
  have l0 := a.isLt
  have l1 := c.isLt
  refine ⟨by omega, ?_⟩
  have hm : bitsAt n 24 5 = 26 := by unfold bitsAt; omega
  have t0_3 : bitsAt n 0 3 = 0 := by unfold bitsAt; omega
  have t0_6 : bitsAt n 0 6 = 0 := by unfold bitsAt; omega
  have t3_3 : bitsAt n 3 3 = 0 := by unfold bitsAt; omega
  have t8_6 : bitsAt n 8 6 = 0 := by unfold bitsAt; omega
  have t20_4 : bitsAt n 20 4 = 5 := by unfold bitsAt; omega
  have e_a : gAt n 14 = a := gAt_of (by unfold bitsAt; omega)
  have e_c : accAt n 6 = c := accAt_of (by unfold bitsAt; omega)
  simp [decodeInstr, decodeMaj1A, zeroField, hm, t0_6, t8_6, t20_4, e_a, e_c]

theorem RoundTrip.mringSend (a h) : RoundTrip.Statement (.mringSend a h) := by
  intro n enc hw
  have hn : 0x1A600000 + a.val * 2 ^ 14 + h.val * 2 ^ 8 = n := Option.some.inj enc
  have l0 := a.isLt
  have l1 := h.isLt
  refine ⟨by omega, ?_⟩
  have hm : bitsAt n 24 5 = 26 := by unfold bitsAt; omega
  have t0_3 : bitsAt n 0 3 = 0 := by unfold bitsAt; omega
  have t3_3 : bitsAt n 3 3 = 0 := by unfold bitsAt; omega
  have t6_2 : bitsAt n 6 2 = 0 := by unfold bitsAt; omega
  have t20_4 : bitsAt n 20 4 = 6 := by unfold bitsAt; omega
  have e_a : gAt n 14 = a := gAt_of (by unfold bitsAt; omega)
  have e_h : gAt n 8 = h := gAt_of (by unfold bitsAt; omega)
  simp [decodeInstr, decodeMaj1A, decodeRing, zeroField, hm, t0_3, t3_3, t6_2, t20_4, e_a, e_h]

theorem RoundTrip.mringSendPop (a h) : RoundTrip.Statement (.mringSendPop a h) := by
  intro n enc hw
  have hn : 0x1A600002 + a.val * 2 ^ 14 + h.val * 2 ^ 8 = n := Option.some.inj enc
  have l0 := a.isLt
  have l1 := h.isLt
  refine ⟨by omega, ?_⟩
  have hm : bitsAt n 24 5 = 26 := by unfold bitsAt; omega
  have t0_3 : bitsAt n 0 3 = 2 := by unfold bitsAt; omega
  have t3_3 : bitsAt n 3 3 = 0 := by unfold bitsAt; omega
  have t6_2 : bitsAt n 6 2 = 0 := by unfold bitsAt; omega
  have t20_4 : bitsAt n 20 4 = 6 := by unfold bitsAt; omega
  have e_a : gAt n 14 = a := gAt_of (by unfold bitsAt; omega)
  have e_h : gAt n 8 = h := gAt_of (by unfold bitsAt; omega)
  simp [decodeInstr, decodeMaj1A, decodeRing, zeroField, hm, t0_3, t3_3, t6_2, t20_4, e_a, e_h]

theorem RoundTrip.mringLatch (h) : RoundTrip.Statement (.mringLatch h) := by
  intro n enc hw
  have hn : 0x1A600001 + h.val * 2 ^ 8 = n := Option.some.inj enc
  have l0 := h.isLt
  refine ⟨by omega, ?_⟩
  have hm : bitsAt n 24 5 = 26 := by unfold bitsAt; omega
  have t0_3 : bitsAt n 0 3 = 1 := by unfold bitsAt; omega
  have t3_3 : bitsAt n 3 3 = 0 := by unfold bitsAt; omega
  have t6_2 : bitsAt n 6 2 = 0 := by unfold bitsAt; omega
  have t14_6 : bitsAt n 14 6 = 0 := by unfold bitsAt; omega
  have t20_4 : bitsAt n 20 4 = 6 := by unfold bitsAt; omega
  have e_h : gAt n 8 = h := gAt_of (by unfold bitsAt; omega)
  simp [decodeInstr, decodeMaj1A, decodeRing, zeroField, hm, t0_3, t3_3, t6_2, t14_6, t20_4, e_h]

theorem RoundTrip.mringLatchPop (h) : RoundTrip.Statement (.mringLatchPop h) := by
  intro n enc hw
  have hn : 0x1A600003 + h.val * 2 ^ 8 = n := Option.some.inj enc
  have l0 := h.isLt
  refine ⟨by omega, ?_⟩
  have hm : bitsAt n 24 5 = 26 := by unfold bitsAt; omega
  have t0_3 : bitsAt n 0 3 = 3 := by unfold bitsAt; omega
  have t3_3 : bitsAt n 3 3 = 0 := by unfold bitsAt; omega
  have t6_2 : bitsAt n 6 2 = 0 := by unfold bitsAt; omega
  have t14_6 : bitsAt n 14 6 = 0 := by unfold bitsAt; omega
  have t20_4 : bitsAt n 20 4 = 6 := by unfold bitsAt; omega
  have e_h : gAt n 8 = h := gAt_of (by unfold bitsAt; omega)
  simp [decodeInstr, decodeMaj1A, decodeRing, zeroField, hm, t0_3, t3_3, t6_2, t14_6, t20_4, e_h]

theorem RoundTrip.mringPop : RoundTrip.Statement (.mringPop) := by
  intro n enc hw
  have hn : 0x1A600006 = n := Option.some.inj enc
  refine ⟨by omega, ?_⟩
  have hm : bitsAt n 24 5 = 26 := by unfold bitsAt; omega
  have t0_3 : bitsAt n 0 3 = 6 := by unfold bitsAt; omega
  have t3_3 : bitsAt n 3 3 = 0 := by unfold bitsAt; omega
  have t6_14 : bitsAt n 6 14 = 0 := by unfold bitsAt; omega
  have t20_4 : bitsAt n 20 4 = 6 := by unfold bitsAt; omega
  simp [decodeInstr, decodeMaj1A, decodeRing, zeroField, hm, t0_3, t3_3, t6_14, t20_4]

theorem RoundTrip.mchk (a d c) : RoundTrip.Statement (.mchk a d c) := by
  intro n enc hw
  have hn : 0x1A700000 + a.val * 2 ^ 14 + d.val * 2 ^ 8 + c.val * 2 ^ 6 = n := Option.some.inj enc
  have l0 := a.isLt
  have l1 := d.isLt
  have l2 := c.isLt
  refine ⟨by omega, ?_⟩
  have hm : bitsAt n 24 5 = 26 := by unfold bitsAt; omega
  have t0_3 : bitsAt n 0 3 = 0 := by unfold bitsAt; omega
  have t0_6 : bitsAt n 0 6 = 0 := by unfold bitsAt; omega
  have t3_3 : bitsAt n 3 3 = 0 := by unfold bitsAt; omega
  have t20_4 : bitsAt n 20 4 = 7 := by unfold bitsAt; omega
  have e_a : gAt n 14 = a := gAt_of (by unfold bitsAt; omega)
  have e_d : gAt n 8 = d := gAt_of (by unfold bitsAt; omega)
  have e_c : accAt n 6 = c := accAt_of (by unfold bitsAt; omega)
  simp [decodeInstr, decodeMaj1A, zeroField, hm, t0_6, t20_4, e_a, e_d, e_c]

theorem RoundTrip.mfix (a b c) : RoundTrip.Statement (.mfix a b c) := by
  intro n enc hw
  have hn : 0x1A800000 + a.val * 2 ^ 14 + b.val * 2 ^ 8 + c.val * 2 ^ 6 = n := Option.some.inj enc
  have l0 := a.isLt
  have l1 := b.isLt
  have l2 := c.isLt
  refine ⟨by omega, ?_⟩
  have hm : bitsAt n 24 5 = 26 := by unfold bitsAt; omega
  have t0_3 : bitsAt n 0 3 = 0 := by unfold bitsAt; omega
  have t0_6 : bitsAt n 0 6 = 0 := by unfold bitsAt; omega
  have t3_3 : bitsAt n 3 3 = 0 := by unfold bitsAt; omega
  have t20_4 : bitsAt n 20 4 = 8 := by unfold bitsAt; omega
  have e_a : gAt n 14 = a := gAt_of (by unfold bitsAt; omega)
  have e_b : gAt n 8 = b := gAt_of (by unfold bitsAt; omega)
  have e_c : accAt n 6 = c := accAt_of (by unfold bitsAt; omega)
  simp [decodeInstr, decodeMaj1A, zeroField, hm, t0_6, t20_4, e_a, e_b, e_c]

theorem RoundTrip.mstat (d) : RoundTrip.Statement (.mstat d) := by
  intro n enc hw
  have hn : 0x1A900000 + d.val * 2 ^ 14 = n := Option.some.inj enc
  have l0 := d.isLt
  refine ⟨by omega, ?_⟩
  have hm : bitsAt n 24 5 = 26 := by unfold bitsAt; omega
  have t0_3 : bitsAt n 0 3 = 0 := by unfold bitsAt; omega
  have t0_14 : bitsAt n 0 14 = 0 := by unfold bitsAt; omega
  have t3_3 : bitsAt n 3 3 = 0 := by unfold bitsAt; omega
  have t20_4 : bitsAt n 20 4 = 9 := by unfold bitsAt; omega
  have e_d : gAt n 14 = d := gAt_of (by unfold bitsAt; omega)
  simp [decodeInstr, decodeMaj1A, zeroField, hm, t0_14, t20_4, e_d]

theorem RoundTrip.mwait : RoundTrip.Statement (.mwait) := by
  intro n enc hw
  have hn : 0x1AA00000 = n := Option.some.inj enc
  refine ⟨by omega, ?_⟩
  have hm : bitsAt n 24 5 = 26 := by unfold bitsAt; omega
  have t0_3 : bitsAt n 0 3 = 0 := by unfold bitsAt; omega
  have t0_20 : bitsAt n 0 20 = 0 := by unfold bitsAt; omega
  have t3_3 : bitsAt n 3 3 = 0 := by unfold bitsAt; omega
  have t20_4 : bitsAt n 20 4 = 10 := by unfold bitsAt; omega
  simp [decodeInstr, decodeMaj1A, zeroField, hm, t0_20, t20_4]

theorem RoundTrip.cpy (a b l c) : RoundTrip.Statement (.cpy a b l c) := by
  intro n enc hw
  have hn : 0x1B000000 + a.val * 2 ^ 14 + b.val * 2 ^ 8 + l.toNat * 2 ^ 2 + c.val * 2 ^ 0 = n := Option.some.inj enc
  have l0 := a.isLt
  have l1 := b.isLt
  have l2 := l.isLt
  have l3 := c.isLt
  refine ⟨by omega, ?_⟩
  have hm : bitsAt n 24 5 = 27 := by unfold bitsAt; omega
  have t20_4 : bitsAt n 20 4 = 0 := by unfold bitsAt; omega
  have e_a : gAt n 14 = a := gAt_of (by unfold bitsAt; omega)
  have e_b : gAt n 8 = b := gAt_of (by unfold bitsAt; omega)
  have e_l : bvAt n 2 6 = l := bvAt_of (by unfold bitsAt; omega)
  have e_c : chanAt n 0 = c := chanAt_of (by unfold bitsAt; omega)
  simp [decodeInstr, decodeMaj1B, hm, t20_4, e_a, e_b, e_l, e_c]

theorem RoundTrip.cpys (a b x c) : RoundTrip.Statement (.cpys a b x c) := by
  intro n enc hw
  have hn : 0x1B100000 + a.val * 2 ^ 14 + b.val * 2 ^ 8 + x.code * 2 ^ 2 + c.val * 2 ^ 0 = n := Option.some.inj enc
  have l0 := a.isLt
  have l1 := b.isLt
  have l2 := XPose.code_lt x
  have l3 := c.isLt
  refine ⟨by omega, ?_⟩
  have hm : bitsAt n 24 5 = 27 := by unfold bitsAt; omega
  have t4_4 : bitsAt n 4 4 = 0 := by unfold bitsAt; omega
  have t20_4 : bitsAt n 20 4 = 1 := by unfold bitsAt; omega
  have e_a : gAt n 14 = a := gAt_of (by unfold bitsAt; omega)
  have e_b : gAt n 8 = b := gAt_of (by unfold bitsAt; omega)
  have e_x : bitsAt n 2 2 = x.code := by unfold bitsAt; omega
  have e_c : chanAt n 0 = c := chanAt_of (by unfold bitsAt; omega)
  simp [decodeInstr, decodeMaj1B, zeroField, value, checked, hw, XPose.ofCode_code, hm, t4_4, t20_4, e_a, e_b, e_x, e_c]

theorem RoundTrip.cgath (a b c) : RoundTrip.Statement (.cgath a b c) := by
  intro n enc hw
  have hn : 0x1B200000 + a.val * 2 ^ 14 + b.val * 2 ^ 8 + c.val * 2 ^ 0 = n := Option.some.inj enc
  have l0 := a.isLt
  have l1 := b.isLt
  have l2 := c.isLt
  refine ⟨by omega, ?_⟩
  have hm : bitsAt n 24 5 = 27 := by unfold bitsAt; omega
  have t2_2 : bitsAt n 2 2 = 0 := by unfold bitsAt; omega
  have t2_6 : bitsAt n 2 6 = 0 := by unfold bitsAt; omega
  have t20_4 : bitsAt n 20 4 = 2 := by unfold bitsAt; omega
  have e_a : gAt n 14 = a := gAt_of (by unfold bitsAt; omega)
  have e_b : gAt n 8 = b := gAt_of (by unfold bitsAt; omega)
  have e_c : chanAt n 0 = c := chanAt_of (by unfold bitsAt; omega)
  simp [decodeInstr, decodeMaj1B, zeroField, checked, hw, hm, t2_6, t20_4, e_a, e_b, e_c]

theorem RoundTrip.cscat (a b c) : RoundTrip.Statement (.cscat a b c) := by
  intro n enc hw
  have hn : 0x1B300000 + a.val * 2 ^ 14 + b.val * 2 ^ 8 + c.val * 2 ^ 0 = n := Option.some.inj enc
  have l0 := a.isLt
  have l1 := b.isLt
  have l2 := c.isLt
  refine ⟨by omega, ?_⟩
  have hm : bitsAt n 24 5 = 27 := by unfold bitsAt; omega
  have t2_2 : bitsAt n 2 2 = 0 := by unfold bitsAt; omega
  have t2_6 : bitsAt n 2 6 = 0 := by unfold bitsAt; omega
  have t20_4 : bitsAt n 20 4 = 3 := by unfold bitsAt; omega
  have e_a : gAt n 14 = a := gAt_of (by unfold bitsAt; omega)
  have e_b : gAt n 8 = b := gAt_of (by unfold bitsAt; omega)
  have e_c : chanAt n 0 = c := chanAt_of (by unfold bitsAt; omega)
  simp [decodeInstr, decodeMaj1B, zeroField, checked, hw, hm, t2_6, t20_4, e_a, e_b, e_c]

theorem RoundTrip.chain (a c) : RoundTrip.Statement (.chain a c) := by
  intro n enc hw
  have hn : 0x1B400000 + a.val * 2 ^ 14 + c.val * 2 ^ 0 = n := Option.some.inj enc
  have l0 := a.isLt
  have l1 := c.isLt
  refine ⟨by omega, ?_⟩
  have hm : bitsAt n 24 5 = 27 := by unfold bitsAt; omega
  have t2_2 : bitsAt n 2 2 = 0 := by unfold bitsAt; omega
  have t2_12 : bitsAt n 2 12 = 0 := by unfold bitsAt; omega
  have t20_4 : bitsAt n 20 4 = 4 := by unfold bitsAt; omega
  have e_a : gAt n 14 = a := gAt_of (by unfold bitsAt; omega)
  have e_c : chanAt n 0 = c := chanAt_of (by unfold bitsAt; omega)
  simp [decodeInstr, decodeMaj1B, zeroField, hm, t2_12, t20_4, e_a, e_c]

theorem RoundTrip.cseal (d) : RoundTrip.Statement (.cseal d) := by
  intro n enc hw
  have hn : 0x1B500000 + d.val * 2 ^ 14 = n := Option.some.inj enc
  have l0 := d.isLt
  refine ⟨by omega, ?_⟩
  have hm : bitsAt n 24 5 = 27 := by unfold bitsAt; omega
  have t0_14 : bitsAt n 0 14 = 0 := by unfold bitsAt; omega
  have t2_2 : bitsAt n 2 2 = 0 := by unfold bitsAt; omega
  have t20_4 : bitsAt n 20 4 = 5 := by unfold bitsAt; omega
  have e_d : gAt n 14 = d := gAt_of (by unfold bitsAt; omega)
  simp [decodeInstr, decodeMaj1B, zeroField, hm, t0_14, t20_4, e_d]

theorem RoundTrip.cwait (n) : RoundTrip.Statement (.cwait n) := by
  intro x enc hw
  have hn : 0x1B600000 + n.val * 2 ^ 0 = x := Option.some.inj enc
  have l0 := n.isLt
  refine ⟨by omega, ?_⟩
  have hm : bitsAt x 24 5 = 27 := by unfold bitsAt; omega
  have t4_16 : bitsAt x 4 16 = 0 := by unfold bitsAt; omega
  have t20_4 : bitsAt x 20 4 = 6 := by unfold bitsAt; omega
  have e_n : fin16At x 0 = n := fin16At_of (by unfold bitsAt; omega)
  simp [decodeInstr, decodeMaj1B, zeroField, hm, t4_16, t20_4, e_n]

theorem RoundTrip.cstat (d s c) : RoundTrip.Statement (.cstat d s c) := by
  intro n enc hw
  have hn : 0x1B700000 + d.val * 2 ^ 14 + (boolNat s) * 2 ^ 2 + c.val * 2 ^ 0 = n := Option.some.inj enc
  have l0 := d.isLt
  have l1 := boolNat_lt s
  have l2 := c.isLt
  refine ⟨by omega, ?_⟩
  have hm : bitsAt n 24 5 = 27 := by unfold bitsAt; omega
  have t3_11 : bitsAt n 3 11 = 0 := by unfold bitsAt; omega
  have t20_4 : bitsAt n 20 4 = 7 := by unfold bitsAt; omega
  have e_d : gAt n 14 = d := gAt_of (by unfold bitsAt; omega)
  have e_s : boolAt n 2 = s := boolAt_of (by unfold bitsAt; omega)
  have e_c : chanAt n 0 = c := chanAt_of (by unfold bitsAt; omega)
  simp [decodeInstr, decodeMaj1B, zeroField, hm, t3_11, t20_4, e_d, e_s, e_c]

theorem RoundTrip.ccancel (c) : RoundTrip.Statement (.ccancel c) := by
  intro n enc hw
  have hn : 0x1B800000 + c.val * 2 ^ 0 = n := Option.some.inj enc
  have l0 := c.isLt
  refine ⟨by omega, ?_⟩
  have hm : bitsAt n 24 5 = 27 := by unfold bitsAt; omega
  have t2_2 : bitsAt n 2 2 = 0 := by unfold bitsAt; omega
  have t2_18 : bitsAt n 2 18 = 0 := by unfold bitsAt; omega
  have t20_4 : bitsAt n 20 4 = 8 := by unfold bitsAt; omega
  have e_c : chanAt n 0 = c := chanAt_of (by unfold bitsAt; omega)
  simp [decodeInstr, decodeMaj1B, zeroField, hm, t2_18, t20_4, e_c]

theorem RoundTrip.cirq (a b) : RoundTrip.Statement (.cirq a b) := by
  intro n enc hw
  have hn : 0x1C000000 + a.val * 2 ^ 14 + b.val * 2 ^ 8 = n := Option.some.inj enc
  have l0 := a.isLt
  have l1 := b.isLt
  refine ⟨by omega, ?_⟩
  have hm : bitsAt n 24 5 = 28 := by unfold bitsAt; omega
  have t0_8 : bitsAt n 0 8 = 0 := by unfold bitsAt; omega
  have t20_4 : bitsAt n 20 4 = 0 := by unfold bitsAt; omega
  have e_a : gAt n 14 = a := gAt_of (by unfold bitsAt; omega)
  have e_b : gAt n 8 = b := gAt_of (by unfold bitsAt; omega)
  simp [decodeInstr, decodeMaj1C, zeroField, hm, t0_8, t20_4, e_a, e_b]

theorem RoundTrip.cirz (a h n) : RoundTrip.Statement (.cirz a h n) := by
  intro x enc hw
  have hn : 0x1C100000 + a.val * 2 ^ 14 + h.val * 2 ^ 8 + n.toNat * 2 ^ 0 = x := Option.some.inj enc
  have l0 := a.isLt
  have l1 := h.isLt
  have l2 := n.isLt
  refine ⟨by omega, ?_⟩
  have hm : bitsAt x 24 5 = 28 := by unfold bitsAt; omega
  have t6_2 : bitsAt x 6 2 = 0 := by unfold bitsAt; omega
  have t20_4 : bitsAt x 20 4 = 1 := by unfold bitsAt; omega
  have e_a : gAt x 14 = a := gAt_of (by unfold bitsAt; omega)
  have e_h : gAt x 8 = h := gAt_of (by unfold bitsAt; omega)
  have e_n : bvAt x 0 6 = n := bvAt_of (by unfold bitsAt; omega)
  simp [decodeInstr, decodeMaj1C, zeroField, checked, hw, hm, t6_2, t20_4, e_a, e_h, e_n]

theorem RoundTrip.cirx (a h) : RoundTrip.Statement (.cirx a h) := by
  intro n enc hw
  have hn : 0x1C200000 + a.val * 2 ^ 14 + h.val * 2 ^ 8 = n := Option.some.inj enc
  have l0 := a.isLt
  have l1 := h.isLt
  refine ⟨by omega, ?_⟩
  have hm : bitsAt n 24 5 = 28 := by unfold bitsAt; omega
  have t0_8 : bitsAt n 0 8 = 0 := by unfold bitsAt; omega
  have t20_4 : bitsAt n 20 4 = 2 := by unfold bitsAt; omega
  have e_a : gAt n 14 = a := gAt_of (by unfold bitsAt; omega)
  have e_h : gAt n 8 = h := gAt_of (by unfold bitsAt; omega)
  simp [decodeInstr, decodeMaj1C, zeroField, hm, t0_8, t20_4, e_a, e_h]

theorem RoundTrip.csend (h v m) : RoundTrip.Statement (.csend h v m) := by
  intro n enc hw
  have hn : 0x1C300000 + h.val * 2 ^ 14 + v.val * 2 ^ 8 + m.val * 2 ^ 0 = n := Option.some.inj enc
  have l0 := h.isLt
  have l1 := v.isLt
  have l2 := m.isLt
  refine ⟨by omega, ?_⟩
  have hm : bitsAt n 24 5 = 28 := by unfold bitsAt; omega
  have t2_6 : bitsAt n 2 6 = 0 := by unfold bitsAt; omega
  have t20_4 : bitsAt n 20 4 = 3 := by unfold bitsAt; omega
  have e_h : gAt n 14 = h := gAt_of (by unfold bitsAt; omega)
  have e_v : v6At n 8 = some v := v6At_of (by unfold bitsAt; omega)
  have e_m : fin4At n 0 = m := fin4At_of (by unfold bitsAt; omega)
  simp [decodeInstr, decodeMaj1C, zeroField, value, hm, t2_6, t20_4, e_h, e_v, e_m]

theorem RoundTrip.crecv (h v m) : RoundTrip.Statement (.crecv h v m) := by
  intro n enc hw
  have hn : 0x1C400000 + h.val * 2 ^ 14 + v.val * 2 ^ 8 + m.val * 2 ^ 0 = n := Option.some.inj enc
  have l0 := h.isLt
  have l1 := v.isLt
  have l2 := m.isLt
  refine ⟨by omega, ?_⟩
  have hm : bitsAt n 24 5 = 28 := by unfold bitsAt; omega
  have t2_6 : bitsAt n 2 6 = 0 := by unfold bitsAt; omega
  have t20_4 : bitsAt n 20 4 = 4 := by unfold bitsAt; omega
  have e_h : gAt n 14 = h := gAt_of (by unfold bitsAt; omega)
  have e_v : v6At n 8 = some v := v6At_of (by unfold bitsAt; omega)
  have e_m : fin4At n 0 = m := fin4At_of (by unfold bitsAt; omega)
  simp [decodeInstr, decodeMaj1C, zeroField, value, hm, t2_6, t20_4, e_h, e_v, e_m]

theorem RoundTrip.msend (a v l) : RoundTrip.Statement (.msend a v l) := by
  intro n enc hw
  have hn : 0x1C500000 + a.val * 2 ^ 14 + v.val * 2 ^ 8 + l.val * 2 ^ 0 = n := Option.some.inj enc
  have l0 := a.isLt
  have l1 := v.isLt
  have l2 := l.isLt
  refine ⟨by omega, ?_⟩
  have hm : bitsAt n 24 5 = 28 := by unfold bitsAt; omega
  have t6_2 : bitsAt n 6 2 = 0 := by unfold bitsAt; omega
  have t20_4 : bitsAt n 20 4 = 5 := by unfold bitsAt; omega
  have e_a : gAt n 14 = a := gAt_of (by unfold bitsAt; omega)
  have e_v : v6At n 8 = some v := v6At_of (by unfold bitsAt; omega)
  have e_l : fin64At n 0 = l := fin64At_of (by unfold bitsAt; omega)
  simp [decodeInstr, decodeMaj1C, zeroField, value, hm, t6_2, t20_4, e_a, e_v, e_l]

theorem RoundTrip.mrecv (d v) : RoundTrip.Statement (.mrecv d v) := by
  intro n enc hw
  have hn : 0x1C600000 + d.val * 2 ^ 14 + v.val * 2 ^ 8 = n := Option.some.inj enc
  have l0 := d.isLt
  have l1 := v.isLt
  refine ⟨by omega, ?_⟩
  have hm : bitsAt n 24 5 = 28 := by unfold bitsAt; omega
  have t0_8 : bitsAt n 0 8 = 0 := by unfold bitsAt; omega
  have t20_4 : bitsAt n 20 4 = 6 := by unfold bitsAt; omega
  have e_d : gAt n 14 = d := gAt_of (by unfold bitsAt; omega)
  have e_v : v6At n 8 = some v := v6At_of (by unfold bitsAt; omega)
  simp [decodeInstr, decodeMaj1C, zeroField, value, hm, t0_8, t20_4, e_d, e_v]

theorem RoundTrip.mpoll (d) : RoundTrip.Statement (.mpoll d) := by
  intro n enc hw
  have hn : 0x1C700000 + d.val * 2 ^ 14 = n := Option.some.inj enc
  have l0 := d.isLt
  refine ⟨by omega, ?_⟩
  have hm : bitsAt n 24 5 = 28 := by unfold bitsAt; omega
  have t0_14 : bitsAt n 0 14 = 0 := by unfold bitsAt; omega
  have t20_4 : bitsAt n 20 4 = 7 := by unfold bitsAt; omega
  have e_d : gAt n 14 = d := gAt_of (by unfold bitsAt; omega)
  simp [decodeInstr, decodeMaj1C, zeroField, hm, t0_14, t20_4, e_d]

theorem RoundTrip.nalloc (d h) : RoundTrip.Statement (.nalloc d h) := by
  intro n enc hw
  have hn : 0x1D000000 + d.val * 2 ^ 14 + h.val * 2 ^ 8 = n := Option.some.inj enc
  have l0 := d.isLt
  have l1 := h.isLt
  refine ⟨by omega, ?_⟩
  have hm : bitsAt n 24 5 = 29 := by unfold bitsAt; omega
  have t0_8 : bitsAt n 0 8 = 0 := by unfold bitsAt; omega
  have t20_4 : bitsAt n 20 4 = 0 := by unfold bitsAt; omega
  have e_d : gAt n 14 = d := gAt_of (by unfold bitsAt; omega)
  have e_h : gAt n 8 = h := gAt_of (by unfold bitsAt; omega)
  simp [decodeInstr, decodeMaj1D, zeroField, hm, t0_8, t20_4, e_d, e_h]

theorem RoundTrip.nfree (n) : RoundTrip.Statement (.nfree n) := by
  intro x enc hw
  have hn : 0x1D100000 + n.val * 2 ^ 14 = x := Option.some.inj enc
  have l0 := n.isLt
  refine ⟨by omega, ?_⟩
  have hm : bitsAt x 24 5 = 29 := by unfold bitsAt; omega
  have t0_14 : bitsAt x 0 14 = 0 := by unfold bitsAt; omega
  have t20_4 : bitsAt x 20 4 = 1 := by unfold bitsAt; omega
  have e_n : gAt x 14 = n := gAt_of (by unfold bitsAt; omega)
  simp [decodeInstr, decodeMaj1D, zeroField, hm, t0_14, t20_4, e_n]

theorem RoundTrip.nlink (n m r q p) : RoundTrip.Statement (.nlink n m r q p) := by
  intro x enc hw
  have hn : 0x1D200000 + n.val * 2 ^ 14 + m.val * 2 ^ 8 + r.val * 2 ^ 4 + q.val * 2 ^ 2 + p.val * 2 ^ 0 = x := Option.some.inj enc
  have l0 := n.isLt
  have l1 := m.isLt
  have l2 := r.isLt
  have l3 := q.isLt
  have l4 := p.isLt
  refine ⟨by omega, ?_⟩
  have hm : bitsAt x 24 5 = 29 := by unfold bitsAt; omega
  have t6_2 : bitsAt x 6 2 = 0 := by unfold bitsAt; omega
  have t20_4 : bitsAt x 20 4 = 2 := by unfold bitsAt; omega
  have e_n : gAt x 14 = n := gAt_of (by unfold bitsAt; omega)
  have e_m : gAt x 8 = m := gAt_of (by unfold bitsAt; omega)
  have e_r : fin4At x 4 = r := fin4At_of (by unfold bitsAt; omega)
  have e_q : fin4At x 2 = q := fin4At_of (by unfold bitsAt; omega)
  have e_p : fin4At x 0 = p := fin4At_of (by unfold bitsAt; omega)
  simp [decodeInstr, decodeMaj1D, zeroField, hm, t6_2, t20_4, e_n, e_m, e_r, e_q, e_p]

theorem RoundTrip.npush (n m r) : RoundTrip.Statement (.npush n m r) := by
  intro x enc hw
  have hn : 0x1D300000 + n.val * 2 ^ 14 + m.val * 2 ^ 8 + r.val * 2 ^ 0 = x := Option.some.inj enc
  have l0 := n.isLt
  have l1 := m.isLt
  have l2 := r.isLt
  refine ⟨by omega, ?_⟩
  have hm : bitsAt x 24 5 = 29 := by unfold bitsAt; omega
  have t2_6 : bitsAt x 2 6 = 0 := by unfold bitsAt; omega
  have t20_4 : bitsAt x 20 4 = 3 := by unfold bitsAt; omega
  have e_n : gAt x 14 = n := gAt_of (by unfold bitsAt; omega)
  have e_m : gAt x 8 = m := gAt_of (by unfold bitsAt; omega)
  have e_r : fin4At x 0 = r := fin4At_of (by unfold bitsAt; omega)
  simp [decodeInstr, decodeMaj1D, zeroField, hm, t2_6, t20_4, e_n, e_m, e_r]

theorem RoundTrip.nport (d n h p) : RoundTrip.Statement (.nport d n h p) := by
  intro x enc hw
  have hn : 0x1D400000 + d.val * 2 ^ 14 + n.val * 2 ^ 8 + (boolNat h) * 2 ^ 2 + p.val * 2 ^ 0 = x := Option.some.inj enc
  have l0 := d.isLt
  have l1 := n.isLt
  have l2 := boolNat_lt h
  have l3 := p.isLt
  refine ⟨by omega, ?_⟩
  have hm : bitsAt x 24 5 = 29 := by unfold bitsAt; omega
  have t3_5 : bitsAt x 3 5 = 0 := by unfold bitsAt; omega
  have t20_4 : bitsAt x 20 4 = 4 := by unfold bitsAt; omega
  have e_d : gAt x 14 = d := gAt_of (by unfold bitsAt; omega)
  have e_n : gAt x 8 = n := gAt_of (by unfold bitsAt; omega)
  have e_h : boolAt x 2 = h := boolAt_of (by unfold bitsAt; omega)
  have e_p : fin4At x 0 = p := fin4At_of (by unfold bitsAt; omega)
  simp [decodeInstr, decodeMaj1D, zeroField, checked, hw, hm, t3_5, t20_4, e_d, e_n, e_h, e_p]

theorem RoundTrip.rcommit : RoundTrip.Statement (.rcommit) := by
  intro n enc hw
  have hn : 0x1D500000 = n := Option.some.inj enc
  refine ⟨by omega, ?_⟩
  have hm : bitsAt n 24 5 = 29 := by unfold bitsAt; omega
  have t0_20 : bitsAt n 0 20 = 0 := by unfold bitsAt; omega
  have t20_4 : bitsAt n 20 4 = 5 := by unfold bitsAt; omega
  simp [decodeInstr, decodeMaj1D, zeroField, hm, t0_20, t20_4]

theorem RoundTrip.rabort (x) : RoundTrip.Statement (.rabort x) := by
  intro n enc hw
  have hn : 0x1D600000 + (boolNat x) * 2 ^ 0 = n := Option.some.inj enc
  have l0 := boolNat_lt x
  refine ⟨by omega, ?_⟩
  have hm : bitsAt n 24 5 = 29 := by unfold bitsAt; omega
  have t1_19 : bitsAt n 1 19 = 0 := by unfold bitsAt; omega
  have t20_4 : bitsAt n 20 4 = 6 := by unfold bitsAt; omega
  have e_x : boolAt n 0 = x := boolAt_of (by unfold bitsAt; omega)
  simp [decodeInstr, decodeMaj1D, zeroField, hm, t1_19, t20_4, e_x]

theorem RoundTrip.spawn (i x) : RoundTrip.Statement (.spawn i x) := by
  intro n enc hw
  have hn : 0x1D700000 + i.val * 2 ^ 14 + x.val * 2 ^ 8 = n := Option.some.inj enc
  have l0 := i.isLt
  have l1 := x.isLt
  refine ⟨by omega, ?_⟩
  have hm : bitsAt n 24 5 = 29 := by unfold bitsAt; omega
  have t0_8 : bitsAt n 0 8 = 0 := by unfold bitsAt; omega
  have t20_4 : bitsAt n 20 4 = 7 := by unfold bitsAt; omega
  have e_i : gAt n 14 = i := gAt_of (by unfold bitsAt; omega)
  have e_x : gAt n 8 = x := gAt_of (by unfold bitsAt; omega)
  simp [decodeInstr, decodeMaj1D, zeroField, hm, t0_8, t20_4, e_i, e_x]

theorem RoundTrip.lfsrseedWrite (x0 x1 x2) : RoundTrip.Statement (.lfsrseedWrite x0 x1 x2) := fun _ h => nomatch h

theorem RoundTrip.trapvecWrite (x0 x1 x2) : RoundTrip.Statement (.trapvecWrite x0 x1 x2) := fun _ h => nomatch h

theorem RoundTrip.placemaskWrite (x0 x1 x2) : RoundTrip.Statement (.placemaskWrite x0 x1 x2) := fun _ h => nomatch h

theorem RoundTrip.faultinjDisarm (x0 x1 x2) : RoundTrip.Statement (.faultinjDisarm x0 x1 x2) := fun _ h => nomatch h

theorem RoundTrip.controlRegisterWrite (x0 x1 x2 x3) : RoundTrip.Statement (.controlRegisterWrite x0 x1 x2 x3) := fun _ h => nomatch h

theorem RoundTrip.keyopGen (x0 x1 x2 x3) : RoundTrip.Statement (.keyopGen x0 x1 x2 x3) := fun _ h => nomatch h

theorem RoundTrip.keyopZero (x0 x1) : RoundTrip.Statement (.keyopZero x0 x1) := fun _ h => nomatch h

theorem RoundTrip.keyopRotate (x0 x1) : RoundTrip.Statement (.keyopRotate x0 x1) := fun _ h => nomatch h

theorem RoundTrip.keyopRetire (x0 x1) : RoundTrip.Statement (.keyopRetire x0 x1) := fun _ h => nomatch h

theorem RoundTrip.keyopStat (x0 x1) : RoundTrip.Statement (.keyopStat x0 x1) := fun _ h => nomatch h

theorem RoundTrip.tlbiKeySlot (x0 x1 x2 x3) : RoundTrip.Statement (.tlbiKeySlot x0 x1 x2 x3) := fun _ h => nomatch h

theorem RoundTrip.tlbiPage (x0 x1 x2 x3 x4 x5 x6) : RoundTrip.Statement (.tlbiPage x0 x1 x2 x3 x4 x5 x6) := fun _ h => nomatch h

theorem RoundTrip.tlbiSequence (x0 x1 x2 x3 x4) : RoundTrip.Statement (.tlbiSequence x0 x1 x2 x3 x4) := fun _ h => nomatch h

theorem RoundTrip.tlbiStage2Page (x0 x1 x2 x3 x4 x5) : RoundTrip.Statement (.tlbiStage2Page x0 x1 x2 x3 x4 x5) := fun _ h => nomatch h

theorem RoundTrip.tlbiPartition (x0 x1 x2 x3) : RoundTrip.Statement (.tlbiPartition x0 x1 x2 x3) := fun _ h => nomatch h

theorem RoundTrip.tlbiAll (x0 x1 x2) : RoundTrip.Statement (.tlbiAll x0 x1 x2) := fun _ h => nomatch h

theorem RoundTrip.parallaxRetry (x0) : RoundTrip.Statement (.parallaxRetry x0) := fun _ h => nomatch h

theorem RoundTrip.divideComplete (x0) : RoundTrip.Statement (.divideComplete x0) := fun _ h => nomatch h

theorem RoundTrip.matrixWordComplete (x0 x1) : RoundTrip.Statement (.matrixWordComplete x0 x1) := fun _ h => nomatch h

theorem RoundTrip.matrixClearEnd (x0) : RoundTrip.Statement (.matrixClearEnd x0) := fun _ h => nomatch h

theorem RoundTrip.transferRecord (x0 x1) : RoundTrip.Statement (.transferRecord x0 x1) := fun _ h => nomatch h

theorem RoundTrip.chainOwnPoll (x0 x1) : RoundTrip.Statement (.chainOwnPoll x0 x1) := fun _ h => nomatch h

theorem RoundTrip.cirqRequest (x0) : RoundTrip.Statement (.cirqRequest x0) := fun _ h => nomatch h

theorem RoundTrip.cirzRequest (x0) : RoundTrip.Statement (.cirzRequest x0) := fun _ h => nomatch h

theorem RoundTrip.cirxRequest (x0) : RoundTrip.Statement (.cirxRequest x0) := fun _ h => nomatch h

theorem RoundTrip.circuitCloseEnd (x0) : RoundTrip.Statement (.circuitCloseEnd x0) := fun _ h => nomatch h

theorem RoundTrip.configWord (x0) : RoundTrip.Statement (.configWord x0) := fun _ h => nomatch h

theorem RoundTrip.slotTableActivation : RoundTrip.Statement (.slotTableActivation) := fun _ h => nomatch h

theorem RoundTrip.circuitWordInject (x0) : RoundTrip.Statement (.circuitWordInject x0) := fun _ h => nomatch h

theorem RoundTrip.circuitWordLand (x0) : RoundTrip.Statement (.circuitWordLand x0) := fun _ h => nomatch h

theorem RoundTrip.latchEntryLand (x0) : RoundTrip.Statement (.latchEntryLand x0) := fun _ h => nomatch h

theorem RoundTrip.readreq (x0) : RoundTrip.Statement (.readreq x0) := fun _ h => nomatch h

theorem RoundTrip.readrsp (x0) : RoundTrip.Statement (.readrsp x0) := fun _ h => nomatch h

theorem RoundTrip.write (x0) : RoundTrip.Statement (.write x0) := fun _ h => nomatch h

theorem RoundTrip.amoreq (x0) : RoundTrip.Statement (.amoreq x0) := fun _ h => nomatch h

theorem RoundTrip.amorsp (x0) : RoundTrip.Statement (.amorsp x0) := fun _ h => nomatch h

theorem RoundTrip.pairpush (x0) : RoundTrip.Statement (.pairpush x0) := fun _ h => nomatch h

theorem RoundTrip.netop (x0) : RoundTrip.Statement (.netop x0) := fun _ h => nomatch h

theorem RoundTrip.netrsp (x0) : RoundTrip.Statement (.netrsp x0) := fun _ h => nomatch h

theorem RoundTrip.borrow (x0) : RoundTrip.Statement (.borrow x0) := fun _ h => nomatch h

theorem RoundTrip.msg (x0) : RoundTrip.Statement (.msg x0) := fun _ h => nomatch h

theorem RoundTrip.credit (x0) : RoundTrip.Statement (.credit x0) := fun _ h => nomatch h

theorem RoundTrip.ack (x0) : RoundTrip.Statement (.ack x0) := fun _ h => nomatch h

theorem RoundTrip.recall (x0) : RoundTrip.Statement (.recall x0) := fun _ h => nomatch h

theorem RoundTrip.relayResend (x0) : RoundTrip.Statement (.relayResend x0) := fun _ h => nomatch h

theorem RoundTrip.ackForced (x0) : RoundTrip.Statement (.ackForced x0) := fun _ h => nomatch h

theorem RoundTrip.sliceArrival (x0) : RoundTrip.Statement (.sliceArrival x0) := fun _ h => nomatch h

theorem RoundTrip.memoryRead (x0) : RoundTrip.Statement (.memoryRead x0) := fun _ h => nomatch h

theorem RoundTrip.memoryWrite (x0) : RoundTrip.Statement (.memoryWrite x0) := fun _ h => nomatch h

theorem RoundTrip.portService (x0 x1 x2) : RoundTrip.Statement (.portService x0 x1 x2) := fun _ h => nomatch h

theorem RoundTrip.rdata (x0) : RoundTrip.Statement (.rdata x0) := fun _ h => nomatch h

theorem RoundTrip.wack (x0) : RoundTrip.Statement (.wack x0) := fun _ h => nomatch h

theorem RoundTrip.nack (x0) : RoundTrip.Statement (.nack x0) := fun _ h => nomatch h

theorem RoundTrip.bypass (x0) : RoundTrip.Statement (.bypass x0) := fun _ h => nomatch h

theorem RoundTrip.translationWalk (x0 x1) : RoundTrip.Statement (.translationWalk x0 x1) := fun _ h => nomatch h

theorem RoundTrip.scoreboardSwitch (x0) : RoundTrip.Statement (.scoreboardSwitch x0) := fun _ h => nomatch h

theorem RoundTrip.quantumExpiry (x0) : RoundTrip.Statement (.quantumExpiry x0) := fun _ h => nomatch h

theorem RoundTrip.aging (x0) : RoundTrip.Statement (.aging x0) := fun _ h => nomatch h

theorem RoundTrip.preemptLimit (x0) : RoundTrip.Statement (.preemptLimit x0) := fun _ h => nomatch h

theorem RoundTrip.threadRestoreEnd (x0 x1) : RoundTrip.Statement (.threadRestoreEnd x0 x1) := fun _ h => nomatch h

theorem RoundTrip.runaway (x0) : RoundTrip.Statement (.runaway x0) := fun _ h => nomatch h

theorem RoundTrip.borrowStart (x0) : RoundTrip.Statement (.borrowStart x0) := fun _ h => nomatch h

theorem RoundTrip.poolRefill (x0 x1 x2) : RoundTrip.Statement (.poolRefill x0 x1 x2) := fun _ h => nomatch h

theorem RoundTrip.heldSpawnStart (x0) : RoundTrip.Statement (.heldSpawnStart x0) := fun _ h => nomatch h

theorem RoundTrip.quietSweep : RoundTrip.Statement (.quietSweep) := fun _ h => nomatch h

theorem RoundTrip.eventSend (x0) : RoundTrip.Statement (.eventSend x0) := fun _ h => nomatch h

theorem RoundTrip.createPartition (x0 x1) : RoundTrip.Statement (.createPartition x0 x1) := fun _ h => nomatch h

theorem RoundTrip.destroyPartition (x0 x1) : RoundTrip.Statement (.destroyPartition x0 x1) := fun _ h => nomatch h

theorem RoundTrip.resetVf (x0 x1) : RoundTrip.Statement (.resetVf x0 x1) := fun _ h => nomatch h

theorem RoundTrip.resetPartition (x0 x1) : RoundTrip.Statement (.resetPartition x0 x1) := fun _ h => nomatch h

theorem RoundTrip.resetDie (x0 x1) : RoundTrip.Statement (.resetDie x0 x1) := fun _ h => nomatch h

theorem RoundTrip.dieResetEnd (x0) : RoundTrip.Statement (.dieResetEnd x0) := fun _ h => nomatch h

theorem RoundTrip.dieResetTimeout (x0) : RoundTrip.Statement (.dieResetTimeout x0) := fun _ h => nomatch h

theorem RoundTrip.resetPackage (x0) : RoundTrip.Statement (.resetPackage x0) := fun _ h => nomatch h

theorem RoundTrip.s2Write (x0 x1) : RoundTrip.Statement (.s2Write x0 x1) := fun _ h => nomatch h

theorem RoundTrip.cool (x0) : RoundTrip.Statement (.cool x0) := fun _ h => nomatch h

theorem RoundTrip.warmup (x0) : RoundTrip.Statement (.warmup x0) := fun _ h => nomatch h

theorem RoundTrip.faultinjCommand (x0 x1 x2 x3) : RoundTrip.Statement (.faultinjCommand x0 x1 x2 x3) := fun _ h => nomatch h

theorem RoundTrip.peerCircuit (x0 x1) : RoundTrip.Statement (.peerCircuit x0 x1) := fun _ h => nomatch h

theorem RoundTrip.occult (x0 x1 x2) : RoundTrip.Statement (.occult x0 x1 x2) := fun _ h => nomatch h

theorem RoundTrip.resend (x0 x1) : RoundTrip.Statement (.resend x0 x1) := fun _ h => nomatch h

theorem RoundTrip.startSequence (x0 x1) : RoundTrip.Statement (.startSequence x0 x1) := fun _ h => nomatch h

theorem RoundTrip.endSequence (x0 x1) : RoundTrip.Statement (.endSequence x0 x1) := fun _ h => nomatch h

theorem RoundTrip.replay (x0 x1) : RoundTrip.Statement (.replay x0 x1) := fun _ h => nomatch h

theorem RoundTrip.tlbInval (x0 x1) : RoundTrip.Statement (.tlbInval x0 x1) := fun _ h => nomatch h

theorem RoundTrip.unpark (x0 x1) : RoundTrip.Statement (.unpark x0 x1) := fun _ h => nomatch h

theorem RoundTrip.keyRotate (x0 x1) : RoundTrip.Statement (.keyRotate x0 x1) := fun _ h => nomatch h

theorem RoundTrip.transitSweepUnit (x0 x1) : RoundTrip.Statement (.transitSweepUnit x0 x1) := fun _ h => nomatch h

theorem RoundTrip.attest (x0 x1 x2) : RoundTrip.Statement (.attest x0 x1 x2) := fun _ h => nomatch h

theorem RoundTrip.readCounters (x0 x1) : RoundTrip.Statement (.readCounters x0 x1) := fun _ h => nomatch h

theorem RoundTrip.counterWindow : RoundTrip.Statement (.counterWindow) := fun _ h => nomatch h

theorem RoundTrip.setDumparea (x0 x1 x2) : RoundTrip.Statement (.setDumparea x0 x1 x2) := fun _ h => nomatch h

theorem RoundTrip.pageReply (x0 x1) : RoundTrip.Statement (.pageReply x0 x1) := fun _ h => nomatch h

theorem RoundTrip.hostRead (x0 x1) : RoundTrip.Statement (.hostRead x0 x1) := fun _ h => nomatch h

theorem RoundTrip.hostWrite (x0 x1) : RoundTrip.Statement (.hostWrite x0 x1) := fun _ h => nomatch h

theorem RoundTrip.syncPeriod (x0 x1) : RoundTrip.Statement (.syncPeriod x0 x1) := fun _ h => nomatch h

theorem RoundTrip.sync (x0 x1) : RoundTrip.Statement (.sync x0 x1) := fun _ h => nomatch h

theorem RoundTrip.dreq (x0 x1) : RoundTrip.Statement (.dreq x0 x1) := fun _ h => nomatch h

theorem RoundTrip.dresp (x0 x1) : RoundTrip.Statement (.dresp x0 x1) := fun _ h => nomatch h

theorem RoundTrip.lsuDown (x0) : RoundTrip.Statement (.lsuDown x0) := fun _ h => nomatch h

theorem RoundTrip.lsuUp (x0) : RoundTrip.Statement (.lsuUp x0) := fun _ h => nomatch h

theorem RoundTrip.revoke (x0 x1 x2) : RoundTrip.Statement (.revoke x0 x1 x2) := fun _ h => nomatch h

theorem RoundTrip.drain (x0 x1) : RoundTrip.Statement (.drain x0 x1) := fun _ h => nomatch h

theorem RoundTrip.drainRoundEnd (x0) : RoundTrip.Statement (.drainRoundEnd x0) := fun _ h => nomatch h

theorem RoundTrip.peerWordIngress (x0 x1 x2 x3) : RoundTrip.Statement (.peerWordIngress x0 x1 x2 x3) := fun _ h => nomatch h

theorem RoundTrip.peerLinkTrain (x0 x1 x2 x3 x4) : RoundTrip.Statement (.peerLinkTrain x0 x1 x2 x3 x4) := fun _ h => nomatch h

theorem RoundTrip.peerLinkWander (x0) : RoundTrip.Statement (.peerLinkWander x0) := fun _ h => nomatch h

theorem RoundTrip.sensorRead (x0 x1 x2 x3) : RoundTrip.Statement (.sensorRead x0 x1 x2 x3) := fun _ h => nomatch h

theorem RoundTrip.nightfallSettled : RoundTrip.Statement (.nightfallSettled) := fun _ h => nomatch h

theorem RoundTrip.slotClockChange : RoundTrip.Statement (.slotClockChange) := fun _ h => nomatch h

theorem RoundTrip.hbmRetrainEnd (x0) : RoundTrip.Statement (.hbmRetrainEnd x0) := fun _ h => nomatch h

theorem RoundTrip.supplyLoss : RoundTrip.Statement (.supplyLoss) := fun _ h => nomatch h

theorem RoundTrip.supplyReturn : RoundTrip.Statement (.supplyReturn) := fun _ h => nomatch h

theorem RoundTrip.patrolScrub (x0 x1 x2) : RoundTrip.Statement (.patrolScrub x0 x1 x2) := fun _ h => nomatch h

theorem RoundTrip.pseudoChannelCopyEnd (x0 x1) : RoundTrip.Statement (.pseudoChannelCopyEnd x0 x1) := fun _ h => nomatch h

theorem RoundTrip.laneRepair (x0 x1 x2) : RoundTrip.Statement (.laneRepair x0 x1 x2) := fun _ h => nomatch h

theorem RoundTrip.tileTransplant (x0) : RoundTrip.Statement (.tileTransplant x0) := fun _ h => nomatch h

theorem RoundTrip.dieLinkDown (x0) : RoundTrip.Statement (.dieLinkDown x0) := fun _ h => nomatch h

theorem RoundTrip.dieSplit (x0) : RoundTrip.Statement (.dieSplit x0) := fun _ h => nomatch h

theorem RoundTrip.illegalOp (x0) : RoundTrip.Statement (.illegalOp x0) := fun _ h => nomatch h

theorem RoundTrip.fetchFault (x0) : RoundTrip.Statement (.fetchFault x0) := fun _ h => nomatch h

theorem RoundTrip.peerLinkFailure (x0) : RoundTrip.Statement (.peerLinkFailure x0) := fun _ h => nomatch h

theorem RoundTrip.dieLinkHeal (x0) : RoundTrip.Statement (.dieLinkHeal x0) := fun _ h => nomatch h

theorem RoundTrip.slotDomainFormation (x0 x1 x2 x3) : RoundTrip.Statement (.slotDomainFormation x0 x1 x2 x3) := fun _ h => nomatch h

theorem RoundTrip.tileTransplantEnd (x0) : RoundTrip.Statement (.tileTransplantEnd x0) := fun _ h => nomatch h

end Sys2Proof.Laws
end

