-- ==== Sys2Proof/Safety.lean ====
section
/-! DEFINITION. What counts as a safe run: the invariants of the package, and runs. -/

namespace Sys2Proof.Machine

/-- The bytes of memory are in their canonical form: addresses rise, and no entry equals what an unlisted address reads as. -/
def State.memOk (s : State) : Prop := Memory.wf s.mem = true

/-- The keys of memory's bytes are in their canonical form, and no key number has been handed out that is still to come as 0. -/
def State.keyedOk (s : State) : Prop := Keyed.wf s.keyed = true ∧ 0 < s.fresh

/-- W is 8, 16, 32 or 64 (R232, R240). -/
def State.wheelOk (s : State) : Prop := s.domain.wheel ∈ [8, 16, 32, 64]

/-- A package whose invariants hold. -/
def State.Inv (s : State) : Prop := s.memOk ∧ s.keyedOk ∧ s.wheelOk

/-- n steps from a state, up to the first fault or refusal. -/
def runSteps : Nat → State → Host.Outcome State Fault Refusal
  | 0, s => .next s
  | n + 1, s => match step s with
    | .next t => runSteps n t
    | .fault f => .fault f
    | .refused r => .refused r

/-- A run of n steps is safe: it ends in a state whose invariants hold. -/
def SafeRun (n : Nat) (s : State) : Prop := ∃ t, runSteps n s = .next t ∧ t.Inv

end Sys2Proof.Machine
end

