-- ==== Sys2Proof/Certificates/Slice0/Obligations.lean ====
section
/-! DEFINITION. What is claimed of the model: statements for the provers, each named for what it states. -/

open Sys2Proof Sys2Proof.Machine

namespace Sys2Proof.Claims

/-- The word is being performed, not only asked for its verdict. -/
def Performed (s : State) : Prop := s.issue.probe = false

/-- The word is being performed, and its own check passes or the checks of its bundle have passed (R54). -/
def Passes (s : State) (v : Verdict) : Prop := s.issue.probe = false ∧ (s.issue.checked = true ∨ v = .pass)

/-- The word is performed alone and its check has not been made. -/
def Unchecked (s : State) : Prop := s.issue.probe = false ∧ s.issue.checked = false

/-- The state with one more result in flight for the current strand. -/
def flying (s : State) (l : Landing) : State := s.modCtx fun c => { c with inflight := c.inflight ++ [l] }

/-- An ordinary result in flight: it lands `lat` cycles after the strand clock (R56, R57). -/
def ordinary (s : State) (d : Dest) (x : V) (lat : Nat) : Landing :=
  { dest := d, val := x, act := BitVec.allOnes 128, due := s.ctx.clock + lat, cls := 1, flags := 0, hot := 0, fault := none,
    ba := s.issue.ba }

/-- A scalar result in flight; nothing where it is for g0 (R65). -/
def gives (s : State) (d : GReg) (x : W) (lat : Nat) : State :=
  if d = 0 then s else flying s (ordinary s (.g d) (x.setWidth 1024) lat)

/-- 1 or 0. -/
def flag (p : Prop) [Decidable p] : W := if p then 1 else 0

/-- The value read as two's complement (R5). -/
def sx (x : W) : Int := x.toInt

/-- The value read as unsigned. -/
def ux (x : W) : Nat := x.toNat

end Sys2Proof.Claims

open Sys2Proof.Claims

/-! ### Encodings -/

/-- Every well-formed word decodes from its own encoding, with its bundle fields (R51, R80, R81). -/
def Obligations.EncodedWordDecodes : Prop :=
  ∀ (x : Word) (n : Nat), x.i.wellFormed = true → encodeWord x = some n → n < 2 ^ 32 ∧ decodeWord n = .ok x

/-- A word of 32 bits that decodes is the encoding of what it decodes to, and that is well formed: no two words are one
instruction, and no bit is ignored (R80). -/
def Obligations.DecodedWordEncodes : Prop :=
  ∀ (n : Nat) (x : Word), n < 2 ^ 32 → decodeWord n = .ok x → x.i.wellFormed = true ∧ encodeWord x = some n

/-- Words written out from the encodings of spec/04, and what they decode to. -/
def Obligations.SampleWordsDecode : Prop :=
  decodeWord 0x82180007 = .ok { e := true, w := 0, i := .addi 6 0 7 } ∧
  decodeWord 0x85141234 = .ok { e := true, w := 0, i := .limm 5 0x1234 } ∧
  decodeWord 0x0B142600 = .ok { e := false, w := 0, i := .ld 5 2 .i64 0 } ∧
  decodeWord 0x8E1C4243 = .ok { e := true, w := 0, i := .amoaddI64 7 4 9 .ar } ∧
  decodeWord 0x93288620 = .ok { e := true, w := 0, i := .vadd 5 2 3 0 .b32 } ∧
  decodeWord 0x89004158 = .ok { e := true, w := 0, i := .tlbi 4 5 } ∧
  decodeWord 0x9D428104 = .ok { e := true, w := 0, i := .nport 10 1 true 0 } ∧
  decodeWord 0x00000000 = .error .major ∧
  decodeWord 0x09000003 = .error .function ∧
  decodeWord 0x09000040 = .error .unused ∧
  decodeWord 0x09000005 = .error .value

/-! ### Scalar words -/

/-- The register forms of R101 that compute and shift: each gives its result after one cycle and changes nothing else (R100,
R101). -/
def Sys2Proof.Claims.RegisterArithmetic : Prop :=
  ∀ (s : State) (d a b : GReg), Performed s →
    exec (.add d a b) s = .next (gives s d (BitVec.ofNat 64 (ux (s.g a) + ux (s.g b))) 1) ∧
    exec (.sub d a b) s = .next (gives s d (BitVec.ofInt 64 (ux (s.g a) - ux (s.g b))) 1) ∧
    exec (.and d a b) s = .next (gives s d (BitVec.ofNat 64 (ux (s.g a) &&& ux (s.g b))) 1) ∧
    exec (.or d a b) s = .next (gives s d (BitVec.ofNat 64 (ux (s.g a) ||| ux (s.g b))) 1) ∧
    exec (.xor d a b) s = .next (gives s d (BitVec.ofNat 64 (ux (s.g a) ^^^ ux (s.g b))) 1) ∧
    exec (.andn d a b) s = .next (gives s d (BitVec.ofNat 64 (ux (s.g a) &&& (2 ^ 64 - 1 - ux (s.g b)))) 1) ∧
    exec (.orn d a b) s = .next (gives s d (BitVec.ofNat 64 (ux (s.g a) ||| (2 ^ 64 - 1 - ux (s.g b)))) 1) ∧
    exec (.shl d a b) s = .next (gives s d (BitVec.ofNat 64 (ux (s.g a) * 2 ^ (ux (s.g b) % 64))) 1) ∧
    exec (.shr d a b) s = .next (gives s d (BitVec.ofNat 64 (ux (s.g a) / 2 ^ (ux (s.g b) % 64))) 1) ∧
    exec (.sha d a b) s = .next (gives s d (BitVec.ofInt 64 (sx (s.g a) / 2 ^ (ux (s.g b) % 64))) 1) ∧
    exec (.rol d a b) s = .next (gives s d
      (BitVec.ofNat 64 (ux (s.g a) * 2 ^ (ux (s.g b) % 64) + ux (s.g a) / 2 ^ (64 - ux (s.g b) % 64))) 1) ∧
    exec (.lea d a b) s = .next (gives s d (BitVec.ofNat 64 (ux (s.g a) + 64 * ux (s.g b))) 1)

/-- The register forms of R101 that compare and select. -/
def Sys2Proof.Claims.RegisterSelection : Prop :=
  ∀ (s : State) (d a b : GReg), Performed s →
    exec (.slt d a b) s = .next (gives s d (flag (sx (s.g a) < sx (s.g b))) 1) ∧
    exec (.sltn d a b) s = .next (gives s d (flag (ux (s.g a) < ux (s.g b))) 1) ∧
    exec (.seq d a b) s = .next (gives s d (flag (s.g a = s.g b)) 1) ∧
    exec (.sne d a b) s = .next (gives s d (flag (s.g a ≠ s.g b)) 1) ∧
    exec (.min d a b) s = .next (gives s d (BitVec.ofInt 64 (Min.min (sx (s.g a)) (sx (s.g b)))) 1) ∧
    exec (.max d a b) s = .next (gives s d (BitVec.ofInt 64 (Max.max (sx (s.g a)) (sx (s.g b)))) 1) ∧
    exec (.minn d a b) s = .next (gives s d (BitVec.ofNat 64 (Min.min (ux (s.g a)) (ux (s.g b)))) 1) ∧
    exec (.maxn d a b) s = .next (gives s d (BitVec.ofNat 64 (Max.max (ux (s.g a)) (ux (s.g b)))) 1) ∧
    exec (.csel d a b) s = .next (gives s d (if s.g d = 0 then s.g b else s.g a) 1)

/-- EXTR, INSR, CLZ, CTZ, POPC and BREV, bit by bit (R101). -/
def Sys2Proof.Claims.RegisterBitFields : Prop :=
  ∀ (s : State) (d a b : GReg), Performed s →
    let pos := ux (s.g b) % 64
    let len := ux (s.g b) / 64 % 64 + 1
    (∃ x, exec (.extr d a b) s = .next (gives s d x 1) ∧ ∀ i < 64, x.getLsbD i =
      if i < len then (s.g a).getLsbD (pos + i) else ((s.g b).getLsbD 12 && (s.g a).getLsbD (pos + len - 1))) ∧
    (∃ x, exec (.insr d a b) s = .next (gives s d x 1) ∧ ∀ i < 64, x.getLsbD i =
      if pos ≤ i ∧ i < pos + len then (s.g a).getLsbD (i - pos) else (s.g d).getLsbD i) ∧
    (∃ n ≤ 64, exec (.clz d a) s = .next (gives s d (BitVec.ofNat 64 n) 1) ∧
      (∀ i < n, (s.g a).getLsbD (63 - i) = false) ∧ (n < 64 → (s.g a).getLsbD (63 - n) = true)) ∧
    (∃ n ≤ 64, exec (.ctz d a) s = .next (gives s d (BitVec.ofNat 64 n) 1) ∧
      (∀ i < n, (s.g a).getLsbD i = false) ∧ (n < 64 → (s.g a).getLsbD n = true)) ∧
    exec (.popc d a) s =
      .next (gives s d (BitVec.ofNat 64 ((List.range 64).countP fun i => (s.g a).getLsbD i)) 1) ∧
    (∃ x, exec (.brev d a) s = .next (gives s d x 1) ∧ ∀ i < 64, x.getLsbD i = (s.g a).getLsbD (63 - i))

/-- The immediate forms (R102, R103). -/
def Obligations.ImmediateForms : Prop :=
  ∀ (s : State) (d a : GReg) (i : BitVec 12) (j : BitVec 9) (n : BitVec 6) (h : BitVec 16), Performed s →
    let imm := BitVec.ofInt 64 j.toInt
    exec (.addi d a i) s = .next (gives s d (BitVec.ofInt 64 (sx (s.g a) + i.toInt)) 1) ∧
    exec (.andi d a j) s = .next (gives s d (s.g a &&& imm) 1) ∧
    exec (.ori d a j) s = .next (gives s d (s.g a ||| imm) 1) ∧
    exec (.xori d a j) s = .next (gives s d (s.g a ^^^ imm) 1) ∧
    exec (.shli d a n) s = .next (gives s d (BitVec.ofNat 64 (ux (s.g a) * 2 ^ n.toNat)) 1) ∧
    exec (.shri d a n) s = .next (gives s d (BitVec.ofNat 64 (ux (s.g a) / 2 ^ n.toNat)) 1) ∧
    exec (.shai d a n) s = .next (gives s d (BitVec.ofInt 64 (sx (s.g a) / 2 ^ n.toNat)) 1) ∧
    exec (.slti d a j) s = .next (gives s d (flag (sx (s.g a) < j.toInt)) 1) ∧
    exec (.sltni d a j) s = .next (gives s d (flag (ux (s.g a) < ux imm)) 1) ∧
    exec (.seqi d a j) s = .next (gives s d (flag (s.g a = imm)) 1) ∧
    exec (.limm d h) s = .next (gives s d (BitVec.ofNat 64 (ux (s.g d) * 2 ^ 16 + h.toNat)) 1) ∧
    exec (.addpc d h) s = .next (gives s d (BitVec.ofInt 64 (ux s.issue.ba + h.toInt * 4)) 1)

/-- MUL, MULH and MULHN: the low and the high half of the product, after three cycles (R104). -/
def Sys2Proof.Claims.Products : Prop :=
  ∀ (s : State) (d a b : GReg), Performed s →
    exec (.mul d a b) s = .next (gives s d (BitVec.ofInt 64 (sx (s.g a) * sx (s.g b))) 3) ∧
    exec (.mulh d a b) s = .next (gives s d (BitVec.ofInt 64 (sx (s.g a) * sx (s.g b) / 2 ^ 64)) 3) ∧
    exec (.mulhn d a b) s = .next (gives s d (BitVec.ofNat 64 (ux (s.g a) * ux (s.g b) / 2 ^ 64)) 3)

namespace Sys2Proof.Claims

/-- The state with a divide issued: its mark is set on gd, and the divider holds its result (R106). -/
def divides (s : State) (d : GReg) (x : W) : State :=
  let p : Pend := { uid := s.fresh, dest := if d = 0 then .none else .g d, dest2 := .none, fmt := .word, need := 1, val := 0,
                    act := 0, flags := 0, fault := none, acq := false, rel := false, mem := false, ba := s.issue.ba }
  ((s.modCtx fun c => { c with pends := c.pends ++ [p] }).modCore s.cur fun c =>
    { c with divider := some { owner := s.strand.owner, pend := s.fresh, val := x } }).bump

/-- The quotient truncated toward zero, and the remainder, with the fixed results of R105. -/
def quotient (a b : W) : W := if b = 0 then BitVec.allOnes 64 else BitVec.ofInt 64 (Int.tdiv (sx a) (sx b))
def quotientN (a b : W) : W := if b = 0 then BitVec.allOnes 64 else BitVec.ofNat 64 (ux a / ux b)
def remainder (a b : W) : W := if b = 0 then a else BitVec.ofInt 64 (sx a - sx b * Int.tdiv (sx a) (sx b))
def remainderN (a b : W) : W := if b = 0 then a else BitVec.ofNat 64 (ux a % ux b)

end Sys2Proof.Claims

/-- DIV, DIVN, REM and REMN issue while the divider is free, with the results of R104 and R105, and wait while it is busy
(R106). -/
def Sys2Proof.Claims.Divisions : Prop :=
  ∀ (s : State) (d a b : GReg),
    (Performed s → (s.issue.checked = true ∨ s.tile.core.divider = none) →
      exec (.div d a b) s = .next (divides s d (quotient (s.g a) (s.g b))) ∧
      exec (.divn d a b) s = .next (divides s d (quotientN (s.g a) (s.g b))) ∧
      exec (.rem d a b) s = .next (divides s d (remainder (s.g a) (s.g b))) ∧
      exec (.remn d a b) s = .next (divides s d (remainderN (s.g a) (s.g b)))) ∧
    (s.issue.probe = true → ∀ i ∈ [Instr.div d a b, .divn d a b, .rem d a b, .remn d a b],
      exec i s = .next { s with issue := { s.issue with
        verdict := if s.tile.core.divider.isSome then Verdict.wait else Verdict.pass } })

/-- The register that a result names takes its value when it lands, a vector only the bytes that are active in it, and no other register
of its kind changes; g0 reads 0 and k0 reads all ones whatever has been written (R65–R67). -/
def Obligations.RegistersLand : Prop :=
  (∀ (c : Ctx) (l : Landing) (d r : GReg), l.dest = .g d → l.fault = none →
    (c.landOne l).g r = if r = d ∧ d ≠ 0 then l.val.setWidth 64 else c.g r) ∧
  (∀ (c : Ctx) (l : Landing) (d : VReg), l.dest = .v d → l.fault = none →
    (∀ r, r ≠ d → (c.landOne l).v r = c.v r) ∧
    ∀ j < 1024, ((c.landOne l).v d).getLsbD j = if l.act.getLsbD (j / 8) then l.val.getLsbD j else (c.v d).getLsbD j) ∧
  (∀ (c : Ctx) (l : Landing) (d r : KReg), l.dest = .k d → l.fault = none →
    (c.landOne l).k r = if r = d ∧ d ≠ 0 then l.val.setWidth 128 else c.k r) ∧
  (∀ c : Ctx, c.g 0 = 0 ∧ c.k 0 = BitVec.allOnes 128)

/-- The register forms of the scalar words: sums and logic, selection and comparison, and bit fields (R100, R101). -/
def Obligations.RegisterForms : Prop := Claims.RegisterArithmetic ∧ Claims.RegisterSelection ∧ Claims.RegisterBitFields

/-- Products and quotients (R104–R106). -/
def Obligations.ProductsAndDivisions : Prop := Claims.Products ∧ Claims.Divisions

/-! ### Control transfers and loops -/

namespace Sys2Proof.Claims

/-- The state with the transfer of a control word noted; `leave` says that it ends the loops it leaves (R113). -/
def goesTo (s : State) (goal : W) (leave : Bool) : State :=
  { s with issue := { s.issue with target := some (goal, leave) } }

/-- An offset target: BA + offset × 4 (R74). -/
def target (s : State) (off : Int) : W := BitVec.ofInt 64 (ux s.issue.ba + off * 4)

/-- A conditional transfer: taken, or without effect (R107). -/
def branches (s : State) (p : Prop) [Decidable p] (off : Int) : State := if p then goesTo s (target s off) true else s

/-- The address after the bundle: BA + 4 × BW. -/
def after (s : State) : W := BitVec.ofNat 64 (ux s.issue.ba + 4 * s.issue.bw)

/-- The trap of a check of the bundle at hand: TRAPPC = BA, TRAPMASK = 0 (R54). -/
def refusedBy (s : State) (c : Cause) (val : W) : State := s.takeTrap s.cur s.curK c val (some 0) s.issue.ba

end Sys2Proof.Claims

/-- The compare-branches, BZ, BNZ, JMP and CALL (R107–R109, R111). -/
def Sys2Proof.Claims.OffsetTransfers : Prop :=
  ∀ (s : State) (a b : GReg) (o : BitVec 9) (p : BitVec 16) (q : BitVec 22), Performed s →
    exec (.beq a b o) s = .next (branches s (s.g a = s.g b) o.toInt) ∧
    exec (.bne a b o) s = .next (branches s (s.g a ≠ s.g b) o.toInt) ∧
    exec (.blt a b o) s = .next (branches s (sx (s.g a) < sx (s.g b)) o.toInt) ∧
    exec (.bge a b o) s = .next (branches s (sx (s.g b) ≤ sx (s.g a)) o.toInt) ∧
    exec (.bltn a b o) s = .next (branches s (ux (s.g a) < ux (s.g b)) o.toInt) ∧
    exec (.bgen a b o) s = .next (branches s (ux (s.g b) ≤ ux (s.g a)) o.toInt) ∧
    exec (.bz a p) s = .next (branches s (s.g a = 0) p.toInt) ∧
    exec (.bnz a p) s = .next (branches s (s.g a ≠ 0) p.toInt) ∧
    exec (.jmp q) s = .next (goesTo s (target s q.toInt) true) ∧
    exec (.call q) s = .next (goesTo (flying s { ordinary s (.g 63) ((after s).setWidth 1024) 1 with cls := 2 })
      (target s q.toInt) false)

/-- JR and CALLR go to an aligned address and CALLR writes its link after one cycle; an address that is not aligned raises
MISALIGN at the checks, with TRAPVAL = ga and TRAPPC = BA (R110). -/
def Sys2Proof.Claims.RegisterTransfers : Prop :=
  ∀ (s : State) (d a : GReg),
    (Performed s → ux (s.g a) % 4 = 0 →
      exec (.jr a) s = .next (goesTo s (s.g a) true) ∧
      exec (.callr d a) s = .next (goesTo (gives s d (after s) 1) (s.g a) false)) ∧
    (Unchecked s → ux (s.g a) % 4 ≠ 0 →
      exec (.jr a) s = .next (refusedBy s .misalign (s.g a)) ∧
      exec (.callr d a) s = .next (refusedBy s .misalign (s.g a)))

/-- LOOP and LOOPI, where the body can be located: with a count they open a loop over it, with count 0 they go on behind it as a
taken transfer; a third loop is ILLEGAL_OP of the word (R112, R113). -/
def Sys2Proof.Claims.LoopsOpen : Prop :=
  ∀ (s : State) (l : BitVec 6) (a : GReg) (c : BitVec 12) (x next : W), s.loopEnd l = .ok (x, next) →
    (Performed s → s.ctx.loops.length < 2 →
      exec (.loop l a) s = .next (if s.g a = 0 then goesTo s next true else
        { s with issue := { s.issue with opened := some { start := after s, stop := x, left := ux (s.g a) } } }) ∧
      exec (.loopi l c) s = .next (if c = 0 then goesTo s next true else
        { s with issue := { s.issue with opened := some { start := after s, stop := x, left := c.toNat } } })) ∧
    (Unchecked s → 2 ≤ s.ctx.loops.length →
      let val := BitVec.ofNat 64 (s.issue.word.toNat + 2 ^ 32 * (s.issue.pos % 4))
      (s.g a ≠ 0 → exec (.loop l a) s = .next (refusedBy s .illegalOp val)) ∧
      (c ≠ 0 → exec (.loopi l c) s = .next (refusedBy s .illegalOp val)))

/-- Where the strand goes on after a bundle, the loops left, and the cycles added (R55, R107, R112, R113): a taken transfer costs
two cycles and ends the loops that it leaves; otherwise the end bundle of the innermost loop counts down and goes back, at the
price of a transfer, or ends the loop, and the loop around it follows where it ends at the same bundle; a loop that the bundle
opens is then the innermost. -/
def Sys2Proof.Claims.NextBundleChosen : Prop :=
  ∀ s : State,
    (∀ goal, s.issue.target = some (goal, false) → s.goOn = (goal, s.ctx.loops, 2)) ∧
    (∀ goal, s.issue.target = some (goal, true) → ∃ k, s.goOn = (goal, s.ctx.loops.drop k, 2) ∧
      (∀ e ∈ s.ctx.loops.take k, ¬ (ux e.start ≤ ux goal ∧ ux goal ≤ ux e.stop)) ∧
      (∀ e ∈ (s.ctx.loops.drop k).head?, ux e.start ≤ ux goal ∧ ux goal ≤ ux e.stop)) ∧
    (s.issue.target = none →
      (s.ctx.loops = [] → s.goOn = (after s, s.issue.opened.toList, 0)) ∧
      (∀ e l, s.ctx.loops = e :: l → e.stop ≠ s.issue.ba → s.goOn = (after s, s.issue.opened.toList ++ e :: l, 0)) ∧
      (∀ e l, s.ctx.loops = e :: l → e.stop = s.issue.ba → 1 < e.left →
        s.goOn = (e.start, s.issue.opened.toList ++ { e with left := e.left - 1 } :: l, 2)) ∧
      (∀ e, s.ctx.loops = [e] → e.stop = s.issue.ba → e.left ≤ 1 → s.goOn = (after s, s.issue.opened.toList, 0)) ∧
      (∀ e f, s.ctx.loops = [e, f] → e.stop = s.issue.ba → f.stop = s.issue.ba → e.left ≤ 1 → 1 < f.left →
        s.goOn = (f.start, s.issue.opened.toList ++ [{ f with left := f.left - 1 }], 2)))

/-! ### System words and traps -/

/-- NOP, YIELD, SAFE, WFE and a thread's HALT (R114, R116–R118). -/
def Sys2Proof.Claims.SystemForms : Prop :=
  ∀ s : State, Performed s →
    exec .nop s = .next s ∧
    exec .yield s = .next (s.switchEvent s.cur) ∧
    (s.strand.preempt = none ∨ s.rewriting.isSome → exec .safe s = .next s) ∧
    (s.strand.preempt.isSome → s.rewriting = none →
      exec .safe s = .next ((s.modStrand fun x => { x with safeAt := some s.issue.ba }).switchEvent s.cur)) ∧
    (s.ctx.event = true → exec .wfe s = .next (s.modCtx fun c => { c with event := false })) ∧
    (s.ctx.event = false → exec .wfe s = .next ((s.modCtx fun c => { c with sleeping := true }).switchEvent s.cur)) ∧
    (s.rewriting = none → exec .halt s = .next (s.modCtx fun c => { c with halting := true })) ∧
    (∀ r, s.rewriting = some r → exec .halt s = .next (((s.discard s.cur s.curK r .again).switchEvent s.cur).atEnd))

namespace Sys2Proof.Claims

/-- A thread of a Tenant outside a handler, with a handler of its own. -/
def TenantOutside (s : State) (t : TileId) (k : StrandId) : Prop :=
  (∃ i, (s.strandAt t k).work = .thread i) ∧ (s.strandAt t k).ctx.mode.getLsbD 0 = false ∧
  (s.strandAt t k).ctx.mode.getLsbD 1 = false ∧ s.trapvec t k ≠ 0

/-- A thread of a Tenant inside a handler. -/
def TenantInside (s : State) (t : TileId) (k : StrandId) : Prop :=
  (∃ i, (s.strandAt t k).work = .thread i) ∧ (s.strandAt t k).ctx.mode.getLsbD 0 = false ∧
  (s.strandAt t k).ctx.mode.getLsbD 1 = true

end Sys2Proof.Claims

/-- A trap taken at Tenant level (R63, R113): the results still in flight become the trap residue, with their offsets; the trap
registers are written; INTRAP is set and MON is not; fetch goes on at TRAPVEC; the loop entries are moved aside; the strand's
other registers stay. -/
def Sys2Proof.Claims.TenantTrapTaken : Prop :=
  ∀ (s : State) (t : TileId) (k : StrandId) (cause : Cause) (val pc : W) (mask : K), TenantOutside s t k →
    let c := (s.strandAt t k).ctx
    let c' := ((s.takeTrap t k cause val (some mask) pc).strandAt t k).ctx
    c'.trap = { cause := cause.code.setWidth 64, pc := pc, val := val, mask := mask } ∧
    c'.mode.getLsbD 0 = false ∧ c'.mode.getLsbD 1 = true ∧ c'.pc = s.trapvec t k ∧
    c'.inflight = [] ∧ c'.loops = [] ∧ c'.aside = c.loops ∧
    c'.trapRes = (c.inflight.filter fun l => c.clock < l.due).map (fun l => { l with due := l.due - c.clock }) ∧
    c'.regs = c.regs ∧ c'.clock = c.clock ∧ c'.fpctl = c.fpctl ∧ c'.fpflags = c.fpflags ∧ c'.lfsr = c.lfsr ∧
    c'.chkctl = c.chkctl ∧ c'.mon = c.mon

/-- What a Tenant trap leaves alone: memory and its keys, the other tiles, the other strands of the tile, and everything outside
the tiles; on the tile the scheduler chooses again (R63, R381). -/
def Sys2Proof.Claims.TenantTrapFrame : Prop :=
  ∀ (s : State) (t : TileId) (k : StrandId) (cause : Cause) (val pc : W) (mask : Option K), TenantOutside s t k →
    let u := s.takeTrap t k cause val mask pc
    u.mem = s.mem ∧ u.keyed = s.keyed ∧ u.relay = s.relay ∧ u.circuits = s.circuits ∧ u.seqs = s.seqs ∧ u.parts = s.parts ∧
    u.dies = s.dies ∧ u.domain = s.domain ∧ u.cold = s.cold ∧ u.agenda = s.agenda ∧ u.fresh = s.fresh ∧ u.free = s.free ∧
    (∀ v, v ≠ t → u.tiles[v] = s.tiles[v]) ∧
    (∀ j, j ≠ k → u.strandAt t j = s.strandAt t j) ∧
    u.tiles[t].matrix = s.tiles[t].matrix ∧ u.tiles[t].panes = s.tiles[t].panes ∧ u.tiles[t].chans = s.tiles[t].chans ∧
    u.tiles[t].core.resched = true

/-- A Tenant trap inside a handler is a Monitor trap: MON is set, the Monitor bank holds the cause with PRIORTRAP set, fetch goes
on at the Monitor handler, and the Tenant's trap registers and other registers stay (R63, R224). -/
def Obligations.DoubleTrapGoesToMonitor : Prop :=
  ∀ (s : State) (t : TileId) (k : StrandId) (cause : Cause) (val pc : W) (mask : K), TenantInside s t k →
    let c := (s.strandAt t k).ctx
    let c' := ((s.takeTrap t k cause val (some mask) pc).strandAt t k).ctx
    c'.mode.getLsbD 0 = true ∧ c'.pc = s.tiles[t].core.monvec ∧ c'.trap = c.trap ∧ c'.regs = c.regs ∧
    c'.mon.pc = pc ∧ c'.mon.val = val ∧ c'.mon.mask = mask ∧ c'.mon.cause.getLsbD 9 = true ∧
    c'.mon.cause.setWidth 8 = cause.code

/-- TRAP takes its trap with TRAPCAUSE 0x10, TRAPVAL = its code and TRAPPC = BA + 4 × BW, after its bundle has issued; BKPT is
refused with TRAPCAUSE 0x11, TRAPVAL 0 and TRAPPC = BA (R114). -/
def Sys2Proof.Claims.TrapWords : Prop :=
  (∀ (s : State) (c : BitVec 12), Performed s →
    exec (.trap c) s = .next ((s.epilogue.takeTrap s.cur s.curK .trapWord (c.setWidth 64) (some 0) (after s)).atEnd)) ∧
  (∀ s : State, Unchecked s → exec .bkpt s = .next (refusedBy s .breakpoint 0)) ∧
  Cause.code .trapWord = 0x10 ∧ Cause.code .breakpoint = 0x11

/-- ERET alone in its bundle, in a Tenant's handler with nothing of the handler in flight: INTRAP and HALTED are cleared, the loop
entries come back, fetch goes on at TRAPPC, the trap residue flies from the strand clock, and the trap registers and all other
registers keep their values (R63, R115). -/
def Sys2Proof.Claims.EretReturns : Prop :=
  ∀ s : State, TenantInside s s.cur s.curK → s.issue.bw = 1 → Performed s → s.ctx.inflight = [] → s.ctx.due = [] →
    ∃ u, exec .eret s = .next u ∧ u.cur = s.cur ∧ u.mem = s.mem ∧
      let c := s.ctx
      let c' := (u.strandAt s.cur s.curK).ctx
      c'.mode.getLsbD 1 = false ∧ c'.mode.getLsbD 2 = false ∧ c'.mode.getLsbD 0 = false ∧ c'.loops = c.aside ∧
      c'.aside = [] ∧ c'.pc = c.trap.pc ∧ c'.trapRes = [] ∧
      c'.inflight = c.trapRes.map (fun l => { l with due := l.due + c.clock }) ∧
      c'.trap = c.trap ∧ c'.regs = c.regs ∧ c'.clock = c.clock

/-- ERET is refused: with PRIV at Tenant level outside a handler, with ILLEGAL_OP where its bundle holds another word (R72,
R115). -/
def Sys2Proof.Claims.EretRefused : Prop :=
  ∀ s : State, Unchecked s → s.ctx.mode.getLsbD 0 = false →
    let val := BitVec.ofNat 64 (s.issue.word.toNat + 2 ^ 32 * (s.issue.pos % 4))
    (s.issue.bw = 1 → s.ctx.mode.getLsbD 1 = false → exec .eret s = .next (refusedBy s .priv val)) ∧
    (s.issue.bw ≠ 1 → exec .eret s = .next (refusedBy s .illegalOp val))

/-- Transfers to an offset and to a register (R107–R111). -/
def Obligations.TransfersGoThere : Prop := Claims.OffsetTransfers ∧ Claims.RegisterTransfers

/-- A trap taken by a Tenant strand: what is saved, where it goes, and what it leaves alone (R63, R113, R381). -/
def Obligations.TenantTrap : Prop := Claims.TenantTrapTaken ∧ Claims.TenantTrapFrame

/-- ERET returns from a trap, and is refused where there is none to return from (R63, R72, R115). -/
def Obligations.Eret : Prop := Claims.EretReturns ∧ Claims.EretRefused

/-- The system words: NOP, YIELD, SAFE, WFE, HALT, TRAP and BKPT (R114, R116–R118). -/
def Obligations.SystemWords : Prop := Claims.SystemForms ∧ Claims.TrapWords

/-- Loops are opened, counted and left, and where a strand goes on after a bundle (R55, R107, R112, R113). -/
def Obligations.LoopsRun : Prop := Claims.LoopsOpen ∧ Claims.NextBundleChosen

/-! ### Control registers -/

namespace Sys2Proof.Claims

/-- The numbers of R70 that every level writes, that Monitor writes, and that none writes. -/
def writableCrs : List Nat := [0x010, 0x011, 0x012, 0x013, 0x020, 0x021, 0x022, 0x023, 0x024, 0x025]
def monitorCrs : List Nat := [0x040, 0x041, 0x0F0]
def readOnlyCrs : List Nat :=
  [0x000, 0x001, 0x002, 0x003, 0x004, 0x008, 0x009, 0x00A, 0x00B, 0x030, 0x031, 0x038, 0x042]

/-- The write of a control register in flight: it lands at n + 1, ahead of the results of that clock (R119, R121). -/
def writesCr (s : State) (n : BitVec 10) (x : W) : State :=
  flying s { ordinary s (.cr n) (x.setWidth 1024) 1 with cls := 0 }

/-- TRAPVAL of ILLEGAL_OP and PRIV of one word: its bits, and its position in the bundle (R98, R435). -/
def wordVal (s : State) : W := BitVec.ofNat 64 (s.issue.word.toNat + 2 ^ 32 * (s.issue.pos % 4))

end Sys2Proof.Claims

/-- CRR, CRW and CRX on a register that the strand may access: the value at issue reaches gd after one cycle, and the write lands
after one cycle (R119, R122). -/
def Sys2Proof.Claims.ControlRegisterWords : Prop :=
  ∀ (s : State) (d a : GReg) (n : BitVec 10), Performed s →
    (n.toNat ∈ writableCrs ++ monitorCrs ++ readOnlyCrs →
      exec (.crr d n) s = .next (gives s d (s.crRead s.cur s.curK n) 1)) ∧
    (n.toNat ∈ writableCrs ∨ (n.toNat ∈ monitorCrs ∧ s.ctx.mode.getLsbD 0 = true) →
      exec (.crw a n) s = .next (writesCr s n (s.g a)) ∧
      ∃ u, exec (.crx d a n) s = .next u ∧ u.ctx.inflight = s.ctx.inflight ++
        (if d = 0 then [] else [ordinary s (.g d) ((s.crRead s.cur s.curK n).setWidth 1024) 1]) ++
        [{ ordinary s (.cr n) ((s.g a).setWidth 1024) 1 with cls := 0 }])

/-- Accesses that are refused: an unassigned number is ILLEGAL_OP, a write at Tenant level of a register that only Monitor writes
is PRIV, and a write of a read-only register is PERMISSION with TRAPVAL = its number (R69, R119, R122). -/
def Sys2Proof.Claims.ControlRegisterRefusals : Prop :=
  ∀ (s : State) (d a : GReg) (n : BitVec 10), Unchecked s →
    (n.toNat ∉ writableCrs ++ monitorCrs ++ readOnlyCrs →
      ∀ i ∈ [Instr.crr d n, .crw a n, .crx d a n], exec i s = .next (refusedBy s .illegalOp (wordVal s))) ∧
    (n.toNat ∈ monitorCrs → s.ctx.mode.getLsbD 0 = false →
      ∀ i ∈ [Instr.crw a n, .crx d a n], exec i s = .next (refusedBy s .priv (wordVal s))) ∧
    (n.toNat ∈ readOnlyCrs →
      ∀ i ∈ [Instr.crw a n, .crx d a n], exec i s = .next (refusedBy s .permission (n.setWidth 64)))

/-- What a write of a control register leaves when it lands: reserved bits are ignored, a W1C bit is cleared where a 1 is
written, a zero written to LFSRSEED becomes 1, TRAPPC and TRAPVEC drop bits [1:0], and the other registers of the strand stay
(R38, R39, R43, R59, R70, R120, R123). -/
def Sys2Proof.Claims.ControlRegisterWritesLand : Prop :=
  ∀ (s : State) (t : TileId) (k : StrandId) (x : W),
    let c := (s.strandAt t k).ctx
    let lands (n : BitVec 10) : Ctx := ((s.landCr t k n x).strandAt t k).ctx
    (lands 0x010 = { c with chkctl := (lands 0x010).chkctl } ∧ (lands 0x010).chkctl.getLsbD 0 = x.getLsbD 0 ∧
      (lands 0x010).chkctl.getLsbD 1 = (c.chkctl.getLsbD 1 && !x.getLsbD 1)) ∧
    lands 0x011 = { c with fpctl := x &&& 0x1F07 } ∧
    lands 0x012 = { c with fpflags := x &&& 0x3F } ∧
    lands 0x013 = { c with lfsr := if x.toNat % 2 ^ 32 = 0 then 1 else BitVec.ofNat 32 x.toNat } ∧
    (c.mode.getLsbD 0 = false →
      lands 0x020 = { c with trap := { c.trap with cause := BitVec.ofNat 64 (x.toNat % 256) } } ∧
      lands 0x021 = { c with trap := { c.trap with pc := BitVec.ofNat 64 (x.toNat / 4 * 4) } } ∧
      lands 0x022 = { c with trap := { c.trap with val := x } } ∧
      lands 0x023 = { c with trap := { c.trap with mask := c.trap.mask.extractLsb' 64 64 ++ x } } ∧
      lands 0x024 = { c with trap := { c.trap with mask := x ++ c.trap.mask.extractLsb' 0 64 } } ∧
      lands 0x025 = c ∧ (s.landCr t k 0x025 x).trapvec t k = BitVec.ofNat 64 (x.toNat / 4 * 4))

/-- The steps that land the write of a control register of their own: LFSRSEED, TRAPVEC, PLACEMASK, the disarming of FAULTINJ, and
any register that the strand may write; one that it may not write changes nothing (R43, R120–R122, R231, R405). -/
def Sys2Proof.Claims.ControlRegisterSteps : Prop :=
  ∀ (s : State) (t : TileId) (k : StrandId) (n : BitVec 10) (x : W),
    (∃ u, exec (.lfsrseedWrite t k x) s = .next u ∧
      (u.strandAt t k).ctx = { (s.strandAt t k).ctx with
        lfsr := if x.toNat % 2 ^ 32 = 0 then 1 else BitVec.ofNat 32 x.toNat }) ∧
    exec (.trapvecWrite t k x) s = .next (s.landCr t k 0x025 x) ∧
    exec (.placemaskWrite t k x) s = .next (s.modTile t fun y => { y with placemask := x }) ∧
    (∃ u, exec (.faultinjDisarm t k x) s = .next u ∧ u.tiles[t].core.injArmed = false ∧
      u.tiles[t].core.injFired = (s.tiles[t].core.injFired && !x.getLsbD 63)) ∧
    (n.toNat ∈ writableCrs ∨ (n.toNat ∈ monitorCrs ∧ (s.strandAt t k).ctx.mode.getLsbD 0 = true) →
      exec (.controlRegisterWrite t k n x) s = .next (s.landCr t k n x)) ∧
    (¬ (n.toNat ∈ writableCrs ∨ (n.toNat ∈ monitorCrs ∧ (s.strandAt t k).ctx.mode.getLsbD 0 = true)) →
      exec (.controlRegisterWrite t k n x) s = .next s)

/-! ### Firmware's words -/

/-- TLBI, KEYOP and FAULTINJ raise PRIV at Tenant level, unless their operand is one that is ILLEGAL_OP (R72, R225, R227,
R229). -/
def Sys2Proof.Claims.FirmwareWordsPrivileged : Prop :=
  ∀ (s : State) (d a b : GReg), Unchecked s → s.ctx.mode.getLsbD 0 = false →
    (let kind := ux (s.g a) % 8
     let scope := ux (s.g a) / 2 ^ 4 % 4
     exec (.tlbi a b) s = .next (refusedBy s (if kind ≤ 5 ∧ scope ≠ 3 then .priv else .illegalOp) (wordVal s))) ∧
    exec (.keyop d a b) s = .next (refusedBy s (if ux (s.g a) % 16 ≤ 4 then .priv else .illegalOp) (wordVal s)) ∧
    exec (.faultinj a b) s = .next (refusedBy s (if siteReserved (s.g a) then .illegalOp else .priv) (wordVal s))

/-- At Monitor level TLBI performs its invalidation, KEYOP its operation with the status in gd, and FAULTINJ its injection; a
reserved operand is ILLEGAL_OP there too (R225–R230). -/
def Sys2Proof.Claims.FirmwareWordsAct : Prop :=
  ∀ (s : State) (d a b : GReg), s.ctx.mode.getLsbD 0 = true →
    let slot : Fin 512 := ⟨ux (s.g b) % 512, Nat.mod_lt _ (by decide)⟩
    (Performed s → ux (s.g a) % 8 ≤ 5 → ux (s.g a) / 2 ^ 4 % 4 ≠ 3 →
      s.invalWaits s.cur (ux (s.g a) / 2 ^ 4 % 4) (invalOf (s.g a) (s.g b)) = false →
      exec (.tlbi a b) s = .next (s.invalidate s.cur (ux (s.g a) / 2 ^ 4 % 4) (BitVec.ofNat 4 (ux (s.g a) / 2 ^ 8))
        (invalOf (s.g a) (s.g b)))) ∧
    (∀ op, keyOpOf (s.g a) (s.g b) = some op → Performed s →
      exec (.keyop d a b) s = .next (let r := s.keyop (dieOf s.cur) slot op
        r.1.later (if d = 0 then .none else .g d) (r.2.setWidth 1024) 1)) ∧
    (Performed s → siteReserved (s.g a) = false →
      exec (.faultinj a b) s = .next (s.inject s.cur (s.g a) (s.g b)))

/-- The key operations (R227, R228): GEN makes an empty slot live under a key that no slot had; ZERO makes a slot void, with its
keys gone and its entries to be invalidated; ROTATE starts a rotation of a live slot; RETIRE ends one whose bytes have been swept;
STAT changes no slot. An operation that is refused, as GEN and ROTATE are where the die's random bit generator fails its health
test (a free value, log 40), changes no slot. Each answers the status. -/
def Obligations.KeyOperations : Prop :=
  ∀ (s : State) (d : DieId) (slot : Fin 512) (p : PartId) (q : Fin 16),
    let k := s.dies[d].keys[slot]
    let after (i : Instr) (x : KeySlot) : Prop := ∃ u, exec i s = .next u ∧ u.dies[d].keys[slot] = x ∧
      (∀ j, j ≠ slot → u.dies[d].keys[j] = s.dies[d].keys[j]) ∧ (∀ e, e ≠ d → u.dies[e] = s.dies[e]) ∧
      u.tiles = s.tiles ∧ u.mem = s.mem ∧ u.keyed = s.keyed
    let drawn (x : KeySlot) : KeySlot := if Config.drbgHealthy s.free = true then x else k
    (k.state = .empty → k.pendinv = false → after (.keyopGen d slot p q) (drawn
      { k with state := .live, gen := false, rotating := false, swept := false, part := p, seq := q, key0 := s.fresh, key1 := 0 })) ∧
    (k.state ≠ .empty ∨ k.pendinv = true → after (.keyopGen d slot p q) k) ∧
    after (.keyopZero d slot)
      { k with state := .void, pendinv := true, rotating := false, swept := false, key0 := 0, key1 := 0 } ∧
    (k.state = .live → k.rotating = false → after (.keyopRotate d slot) (drawn
      { k with rotating := true, swept := false, key0 := if k.gen then s.fresh else k.key0,
               key1 := if k.gen then k.key1 else s.fresh })) ∧
    (k.state ≠ .live ∨ k.rotating = true → after (.keyopRotate d slot) k) ∧
    (k.rotating = true → k.swept = true → after (.keyopRetire d slot)
      { k with rotating := false, swept := false, gen := !k.gen, key0 := if k.gen then k.key0 else 0,
               key1 := if k.gen then 0 else k.key1 }) ∧
    (k.rotating = false ∨ k.swept = false → after (.keyopRetire d slot) k) ∧
    after (.keyopStat d slot) k

namespace Sys2Proof.Claims

/-- What an invalidation from a tile leaves (R225, R227): at the tiles of its scope, the entries that its selector names are gone from the
TLBs selected; at SCOPE 1, with all four TLBs selected, the directories no longer record them; a key slot invalidated at SCOPE 2 is pending
no more on the tile's die. Nothing else changes. -/
def Invalidated (s u : State) (t : TileId) (scope : Nat) (tlbs : BitVec 4) (sel : Inval) : Prop :=
  let picked (n : Nat) : Prop := tlbs = 0 ∨ tlbs.getLsbD n = true
  let dropped (n : Nat) (old new : List TlbEntry) : Prop :=
    (picked n → new = old.filter fun e => !sel.hits e) ∧ (¬ picked n → new = old)
  u = { s with tiles := u.tiles, dies := u.dies } ∧
  (∀ v : TileId, s.scopeTiles t scope sel v = false → u.tiles[v] = s.tiles[v]) ∧
  (∀ v : TileId, s.scopeTiles t scope sel v = true →
    let x := s.tiles[v]
    let y := u.tiles[v]
    y = { x with tlbLoad := y.tlbLoad, tlbMatrix := y.tlbMatrix, tlbCopy := y.tlbCopy, tlbFetch := y.tlbFetch } ∧
    dropped 0 x.tlbLoad y.tlbLoad ∧ dropped 1 x.tlbMatrix y.tlbMatrix ∧ (∀ c : ChanId, dropped 2 x.tlbCopy[c] y.tlbCopy[c]) ∧
    dropped 3 x.tlbFetch y.tlbFetch) ∧
  ∀ d : DieId, let x := s.dies[d]
    let y := u.dies[d]
    y = { x with directory := y.directory, keys := y.keys } ∧
    y.directory = (if scope = 1 ∧ (tlbs = 0 ∨ tlbs = 15) then x.directory.filter fun r => !sel.covers r.1 else x.directory) ∧
    ∀ k : Fin 512, y.keys[k] = if scope = 2 ∧ sel = .slot k ∧ d = dieOf t then
      { x.keys[k] with pendinv := false, state := if x.keys[k].state = .void then .empty else x.keys[k].state } else x.keys[k]

end Sys2Proof.Claims

/-- The invalidations that firmware performs as steps (R225, R226): while an access that used an entry is under way they wait; then the
entries that the selector names are dropped at the tiles of the scope, in the TLBs selected, and no entry besides. -/
def Obligations.InvalidationsDropEntries : Prop :=
  ∀ (s : State) (t : TileId) (scope : Fin 3) (tlbs : BitVec 4) (key : Fin 512) (p : PartId) (q : Fin 16) (z : Fin 4) (va : W),
    let start := va.toNat / 2 ^ pageBits z * 2 ^ pageBits z
    let drops (i : Instr) (sel : Inval) : Prop :=
      (s.invalWaits t scope.val sel = false → ∃ u, exec i s = .next u ∧ Claims.Invalidated s u t scope.val tlbs sel) ∧
      (s.invalWaits t scope.val sel = true → exec i s = .next s)
    drops (.tlbiKeySlot t scope tlbs key) (.slot key) ∧
    drops (.tlbiPage t scope tlbs p q z va) (.page (seqOf p q) z start) ∧
    drops (.tlbiSequence t scope tlbs p q) (.seq (seqOf p q)) ∧
    drops (.tlbiStage2Page t scope tlbs p z va) (.stage2 p z start) ∧
    drops (.tlbiPartition t scope tlbs p) (.part p) ∧
    drops (.tlbiAll t scope tlbs) .all

/-- Products and quotients complete in every state in which they are performed, a divide while the divider is free (R104–R106), and each
invalidation of firmware once no access that used an entry is under way (R225, R226): the next state is the one that the rules give. -/
def Obligations.ProductsQuotientsAndInvalidationsComplete : Prop :=
  (∀ (s : State) (d a b : GReg), s.issue.probe = false →
    let x := sx (s.g a)
    let y := sx (s.g b)
    let m := ux (s.g a)
    let n := ux (s.g b)
    exec (.mul d a b) s = .next (gives s d (BitVec.ofInt 64 (x * y)) 3) ∧
    exec (.mulh d a b) s = .next (gives s d (BitVec.ofInt 64 (x * y / 2 ^ 64)) 3) ∧
    exec (.mulhn d a b) s = .next (gives s d (BitVec.ofNat 64 (m * n / 2 ^ 64)) 3) ∧
    (s.tile.core.divider = none →
      exec (.div d a b) s = .next (divides s d (if n = 0 then BitVec.ofInt 64 (-1) else BitVec.ofInt 64 (Int.tdiv x y))) ∧
      exec (.divn d a b) s = .next (divides s d (if n = 0 then BitVec.ofInt 64 (-1) else BitVec.ofNat 64 (m / n))) ∧
      exec (.rem d a b) s = .next (divides s d (if n = 0 then s.g a else BitVec.ofInt 64 (x - y * Int.tdiv x y))) ∧
      exec (.remn d a b) s = .next (divides s d (if n = 0 then s.g a else BitVec.ofNat 64 (m - n * (m / n)))))) ∧
  ∀ (s : State) (t : TileId) (scope : Fin 3) (tlbs : BitVec 4) (key : Fin 512) (p : PartId) (q : Fin 16) (z : Fin 4) (va : W),
    let start := va.toNat / 2 ^ pageBits z * 2 ^ pageBits z
    let done (sel : Inval) : Out := .next (s.invalidate t scope.val tlbs sel)
    (s.invalWaits t scope.val (.slot key) = false → exec (.tlbiKeySlot t scope tlbs key) s = done (.slot key)) ∧
    (s.invalWaits t scope.val (.page (seqOf p q) z start) = false →
      exec (.tlbiPage t scope tlbs p q z va) s = done (.page (seqOf p q) z start)) ∧
    (s.invalWaits t scope.val (.seq (seqOf p q)) = false → exec (.tlbiSequence t scope tlbs p q) s = done (.seq (seqOf p q))) ∧
    (s.invalWaits t scope.val (.stage2 p z start) = false → exec (.tlbiStage2Page t scope tlbs p z va) s = done (.stage2 p z start)) ∧
    (s.invalWaits t scope.val (.part p) = false → exec (.tlbiPartition t scope tlbs p) s = done (.part p)) ∧
    (s.invalWaits t scope.val .all = false → exec (.tlbiAll t scope tlbs) s = done .all)

/-- CRR, CRW, CRS, CRC and CRX, and what they are refused for (R69, R119, R122). -/
def Obligations.ControlRegisterAccess : Prop := Claims.ControlRegisterWords ∧ Claims.ControlRegisterRefusals

/-- What a control register holds after a write, and those that step (R38, R39, R43, R59, R70, R120–R123, R231, R405). -/
def Obligations.ControlRegisterEffects : Prop := Claims.ControlRegisterWritesLand ∧ Claims.ControlRegisterSteps

/-- Words of firmware: PRIV in a Tenant strand, their effect in a Monitor strand (R72, R225–R230). -/
def Obligations.FirmwareWords : Prop := Claims.FirmwareWordsPrivileged ∧ Claims.FirmwareWordsAct

/-! ### Memory words -/

namespace Sys2Proof.Claims

/-- The width in bytes of a type, and its sign (R32, R75). -/
def typeBytes : IType → Nat
  | .i8 | .n8 => 1
  | .i16 | .n16 => 2
  | .i32 | .n32 => 4
  | .i64 => 8

/-- Whether a type is signed. -/
def signed : IType → Bool
  | .i8 | .i16 | .i32 | .i64 => true
  | .n8 | .n16 | .n32 => false

/-- A loaded number extended to 64 bits. -/
def extended (t : IType) (x : Nat) : W :=
  if signed t ∧ 2 ^ (8 * typeBytes t - 1) ≤ x then BitVec.ofNat 64 (x + (2 ^ 64 - 2 ^ (8 * typeBytes t))) else BitVec.ofNat 64 x

/-- The address ga + offset. -/
def address (s : State) (a : GReg) (o : BitVec 9) : W := BitVec.ofInt 64 (ux (s.g a) + o.toInt)

/-- The strand's access at an address goes to a byte of the RAW alias of its own tile store. -/
def OwnAt (s : State) (acc : Access) (va : W) (off : Nat) : Prop :=
  s.locate acc va = some (.win s.cur off) ∧ off + 128 ≤ 0x80000

/-- The strand's access goes elsewhere than to its own tile store. -/
def FarAt (s : State) (acc : Access) (va : W) (pl : Place) : Prop :=
  s.locate acc va = some pl ∧ ∀ off, pl ≠ .win s.cur off

/-- The keys with which the current strand reads and writes its own tile store (R426). -/
def ownKeys (s : State) : KeyView := s.keyOn s.q (dieOf s.cur)

/-- n bytes of the own tile store, as the strand reads them. -/
def ownBytes (s : State) (off n : Nat) : List Byte :=
  (List.range n).map fun j => s.byteAs (ownKeys s) (storeKey s.cur (off + j))

/-- The value of bytes, the least significant first (R2). -/
def valueOf (l : List Byte) : Nat := l.foldr (fun b a => b.toNat + 256 * a) 0

/-- The state with one more operation outstanding. -/
def awaits (s u : State) (p : Pend) : Prop := u.ctx.pends = s.ctx.pends ++ [p]

/-- The state with one more message, from the current tile, that has not arrived. -/
def sends (s u : State) (goal : TileId) (b : Body) (after : List (Nat × Nat)) : Prop :=
  ∃ m, u.relay = s.relay ++ [m] ∧ m.src = s.cur ∧ m.dst = goal ∧ m.body = b ∧ m.after = after ∧ m.arrived = none

/-- The acquires of the strand that have not read their values: words of the same bundle (R130, R339). -/
def acquires (s : State) : List (Nat × Nat) := (s.ctx.pends.filter (·.acq)).map fun p => (s.strand.owner, p.uid)

/-- The releases of the strand that are not performed (R339, R341). -/
def releases (s : State) : List (Nat × Nat) := (s.ctx.pends.filter (·.rel)).map fun p => (s.strand.owner, p.uid)

/-- A request of the current strand. -/
def asks (s : State) (pl : Place) (n : Nat) (pend : Nat) (va : W) (fwd : List (Nat × Byte)) : Req :=
  { pl := pl, n := n, seq := s.q, tile := s.cur, owner := s.strand.owner, pend := pend, at_ := 0, va := va, fwd := fwd,
    more := [] }

/-- What a word changes of memory: the bytes of the current tile's store from `off` on hold x, and every other byte reads as
before, whoever reads it. -/
def Stores (s u : State) (off n x : Nat) : Prop :=
  (∀ key a, (∀ j < n, a ≠ storeKey s.cur (off + j)) → u.byteAs key a = s.byteAs key a) ∧
  ((ownKeys s).w ≠ 0 → (ownKeys s).w = (ownKeys s).k0 ∨ (ownKeys s).w = (ownKeys s).k1 → ∀ j < n,
    u.byteAs (ownKeys s) (storeKey s.cur (off + j)) = BitVec.ofNat 8 (x / 2 ^ (8 * j)))

/-- Every byte reads as before, whoever reads it. -/
def SameMemory (s u : State) : Prop := ∀ key a, u.byteAs key a = s.byteAs key a

/-- The commit buffer of the current rewrite holds one entry more (R137). -/
def Commits (s u : State) (e : Commit) : Prop :=
  ∃ r r', s.rewriting = some r ∧ u.rewriting = some r' ∧ r'.buf = r.buf ++ [e]

/-- The line's home, or the tile itself where its near buffer holds the line (R136). -/
def serverOf (s : State) (pl : Place) : TileId :=
  match pl with
  | .hbm pa home => if pa / 64 ∈ s.tile.near then s.cur else home
  | .win t _ => t

end Sys2Proof.Claims

/-- LD and LDA: their checks pass and they load; from the own tile store LD gives the value, extended, after four cycles; a load
from elsewhere, and every LDA, is a request to the server of the address, and its destination is marked; LDA is sent behind the
releases before it, and each behind the strand's requests to its line or pane that go another way (R126, R129–R131, R339). -/
def Obligations.LoadsPerformed : Prop :=
  ∀ (s : State) (d a : GReg) (t : IType) (i : BitVec 9),
    let n := typeBytes t
    let va := address s a i
    (Passes s (s.memCheck .read va n) → exec (.ld d a t i) s = .next (s.load d t va false)) ∧
    (Passes s (s.memCheck .read (s.g a) n) → exec (.lda d a t) s = .next (s.load d t (s.g a) true)) ∧
    (∀ off, OwnAt s .read va off → s.placeBad (.win s.cur off) n = false → (s.touch va).forwardedTo (.win s.cur off) n = [] →
      s.load d t va false = gives ((s.touch va).correct (.win s.cur off) n) d (extended t (valueOf (ownBytes s off n))) 4) ∧
    (∀ pl acq, (acq = true ∧ s.locate .read va = some pl) ∨ FarAt s .read va pl →
      let u := s.load d t va acq
      awaits s u { uid := s.fresh, dest := if d = 0 then .none else .g d, dest2 := .none, fmt := .int t, need := 1, val := 0,
                   act := 0, flags := 0, fault := none, acq := acq, rel := false, mem := true, ba := s.issue.ba } ∧
      sends s u (serverOf s pl) (.read (asks s pl n s.fresh va ((s.touch va).forwardedTo pl n)))
        ((if acq then acquires s ++ releases s else acquires s) ++ s.sameLine pl n (serverOf s pl)) ∧ u.ctx.regs = s.ctx.regs ∧ SameMemory s u)

/-- ST and STR: their checks pass and they store; in the own tile store at once, where STR has nothing to wait for, and only
there; elsewhere by a message to the server, which for STR waits for the strand's operations that are not performed, and for ST for
the acquires and the earlier stores of its own bundle, and for both the strand's requests to the line or pane that go another way; in a
rewrite by an entry of the commit buffer (R126, R129–R131, R137, R339). -/
def Obligations.StoresPerformed : Prop :=
  ∀ (s : State) (r a : GReg) (t : IType) (i : BitVec 9),
    let n := typeBytes t
    let va := address s a i
    (Passes s (s.memCheck .write va n) → exec (.st r a t i) s = .next (s.store va n (s.g r) (acquires s ++ s.bundleStores) false)) ∧
    (∀ y, y ∈ s.bundleStores ↔ ∃ p ∈ s.ctx.pends, y = (s.strand.owner, p.uid) ∧ s.issue.first ≤ p.uid ∧ p.rel = false ∧
      ∃ m ∈ s.relay, ∃ q x, m.body = .write q x ∧ q.owner = s.strand.owner ∧ q.pend = p.uid) ∧
    (Passes s (s.memCheck .write (s.g a) n) →
      exec (.str a r t) s = .next (s.store (s.g a) n (s.g r) ((s.ctx.pends.filter (·.mem)).map fun p => (s.strand.owner, p.uid)) true)) ∧
    (∀ off x rel, OwnAt s .write va off → s.rewriting = none → Stores s (s.store va n x [] rel) off n (ux x)) ∧
    (∀ pl x after rel, FarAt s .write va pl → s.rewriting = none →
      let u := s.store va n x after rel
      sends s u (serverOf s pl) (.write (asks s pl n s.fresh va []) x) (after ++ s.sameLine pl n (serverOf s pl)) ∧ SameMemory s u ∧
      ∃ p, awaits s u p ∧ p.uid = s.fresh ∧ p.rel = rel ∧ p.acq = false ∧ p.mem = true) ∧
    (∀ pl x after rel rw, s.locate .write va = some pl → s.rewriting = some rw → rw.buf.length < 128 →
      Commits s (s.store va n x after rel) (.stores [(pl, va, n, x)]) ∧ SameMemory s (s.store va n x after rel))

/-- Accesses that are not aligned to their width raise MISALIGN at the checks, with TRAPVAL = the address (R125). -/
def Obligations.MisalignedAccessesTrap : Prop :=
  ∀ (s : State) (d a b : GReg) (t : IType) (i : BitVec 9) (o : Sys2Proof.Ord), Unchecked s → s.rewriting = none →
    (ux (address s a i) % typeBytes t ≠ 0 →
      exec (.ld d a t i) s = .next (refusedBy s .misalign (address s a i)) ∧
      exec (.st d a t i) s = .next (refusedBy s .misalign (address s a i))) ∧
    (ux (s.g a) % typeBytes t ≠ 0 →
      exec (.lda d a t) s = .next (refusedBy s .misalign (s.g a)) ∧
      exec (.str a d t) s = .next (refusedBy s .misalign (s.g a))) ∧
    (ux (s.g a) % 8 ≠ 0 →
      ∀ w ∈ [Instr.amoaddI64 d a b o, .amoand d a b o, .amoor d a b o, .amoxor d a b o, .amomin d a b o, .amomax d a b o,
          .amominn d a b o, .amomaxn d a b o, .amoswapI64 d a b o, .casI64 d a b o, .binit a b, .barrive d a, .bexpect a b,
          .bwait a b, .btry d a b],
        exec w s = .next (refusedBy s .misalign (s.g a))) ∧
    (ux (s.g a) % 4 ≠ 0 →
      ∀ w ∈ [Instr.amoaddI32 d a b o, .amoswapI32 d a b o, .casI32 d a b o, .amofadd d a b o],
        exec w s = .next (refusedBy s .misalign (s.g a)))

/-- FENCE and FENCE.I hold the strand while an operation of it is awaited at the scope, and FENCE.sys while a HOST_WRITE to its sequence
is; FENCE then does nothing, and FENCE.I drops the sequence's lines from the instruction cache; an operation of its own bundle that it
waits for holds it too. At the wider scopes every memory word is awaited; an MSEND to another die is
not at .t and .d. PREF always issues and changes no register and no byte (R130, R132, R133, R210, R342). -/
def Obligations.FencesAndPrefetch : Prop :=
  ∀ (s : State) (c : Scope) (a : GReg),
    (Performed s → (∀ p ∈ s.ctx.pends, s.awaited c p = false) →
      s.issue.checked = true ∨ c ≠ .system ∨ s.hostWrites s.q = false → exec (.fence c) s = .next s) ∧
    (Performed s → (∀ p ∈ s.ctx.pends, s.awaited .tile p = false) →
      exec .fenceI s = .next (s.modCore s.cur fun x => { x with icache := x.icache.filter fun l => l.seq != s.q })) ∧
    (Unchecked s → (∃ p ∈ s.ctx.pends, s.awaited c p = true) →
      exec (.fence c) s = .next (s.modStrand fun x => { x with waited := x.waited + 1 })) ∧
    (s.issue.probe = true → (∃ p ∈ s.ctx.pends, s.awaited c p = true) →
      exec (.fence c) s = .next { s with issue := { s.issue with verdict := .wait } }) ∧
    (s.issue.probe = true → (∃ p ∈ s.ctx.pends, s.awaited .tile p = true) →
      exec .fenceI s = .next { s with issue := { s.issue with verdict := .wait } }) ∧
    (s.issue.probe = true → s.hostWrites s.q = true →
      exec (.fence .system) s = .next { s with issue := { s.issue with verdict := .wait } }) ∧
    (∀ p, p.mem = false → s.awaited c p = false) ∧
    (∀ p, p.mem = true → c = .domain ∨ c = .system ∨ (s.circuits = [] ∧ s.relay = []) → s.awaited c p = true) ∧
    (∀ p, ∀ m ∈ s.relay, ∀ q tag len data, m.body = .msg q s.strand.owner p.uid tag len data → dieOf m.dst ≠ dieOf s.cur →
      c = .tile ∨ c = .die → s.awaited c p = false) ∧
    (Performed s → ∃ u, exec (.pref a) s = .next u ∧ u.ctx = s.ctx ∧ SameMemory s u)

/-! ### Atomics -/

/-- The atomics: their checks pass and they are performed, on 8 bytes or on 4; with a result in a rewrite they are ILLEGAL_OP
(R134, R137). -/
def Sys2Proof.Claims.AtomicsPerformed : Prop :=
  ∀ (s : State) (d a b : GReg) (o : Sys2Proof.Ord),
    let words (wide : Bool) : List (AmoOp × Instr) :=
      if wide then [(.add, .amoaddI64 d a b o), (.and, .amoand d a b o), (.or, .amoor d a b o), (.xor, .amoxor d a b o),
        (.min, .amomin d a b o), (.max, .amomax d a b o), (.minn, .amominn d a b o), (.maxn, .amomaxn d a b o),
        (.swap, .amoswapI64 d a b o), (.cas, .casI64 d a b o)]
      else [(.add, .amoaddI32 d a b o), (.swap, .amoswapI32 d a b o), (.cas, .casI32 d a b o), (.fadd, .amofadd d a b o)]
    ∀ wide, ∀ w ∈ words wide,
      (Passes s (s.amoCheck d (s.g a) (if wide then 8 else 4)) → exec w.2 s = .next (s.amo w.1 wide d a b o)) ∧
      (Unchecked s → s.rewriting.isSome → d ≠ 0 → exec w.2 s = .next (refusedBy s .illegalOp (wordVal s)))

/-- An atomic of a thread is one request with its operands, to the tile's own near buffer or the server of the address, behind the
strand's requests to its line or pane that go another way; gd is marked; an acquire holds the later words, a release waits for the
earlier ones; in a rewrite it is an entry of the commit buffer (R131, R134–R137). -/
def Sys2Proof.Claims.AtomicRequests : Prop :=
  ∀ (s : State) (op : AmoOp) (wide : Bool) (d a b : GReg) (o : Sys2Proof.Ord) (pl : Place),
    s.locate .atomic (s.g a) = some pl →
    let u := s.amo op wide d a b o
    SameMemory s u ∧
    (s.rewriting = none →
      awaits s u { uid := s.fresh, dest := if d = 0 then .none else .g d, dest2 := .none,
                   fmt := if d = 0 then .drop else .old wide, need := 1, val := 0, act := 0, flags := 0, fault := none,
                   acq := decide (o = .acq ∨ o = .ar), rel := decide (o = .rel ∨ o = .ar), mem := true, ba := s.issue.ba } ∧
      (∃ goal, sends s u goal (.amo (asks s pl (if wide then 8 else 4) s.fresh (s.g a) []) op (s.g b) (s.g d))
        ((if o = .rel ∨ o = .ar then (s.ctx.pends.filter (·.mem)).map fun p => (s.strand.owner, p.uid)
          else if o = .acq then acquires s ++ releases s else acquires s) ++ s.sameLine pl (if wide then 8 else 4) goal) ∧
        (goal = serverOf s pl ∨ (goal = s.cur ∧ ∃ pa home, pl = .hbm pa home)))) ∧
    (∀ r, s.rewriting = some r → r.buf.length < 128 → Commits s u (.amos op wide [(pl, s.g a, s.g b, s.g d)]))

/-- What each atomic makes of the old value (R134): on 64 bits, and on the low 32. -/
def Obligations.AtomicValues : Prop :=
  (∀ old x c : W,
    amoValue .add true old x c = (some (BitVec.ofNat 64 (ux old + ux x)), 0) ∧
    amoValue .and true old x c = (some (old &&& x), 0) ∧ amoValue .or true old x c = (some (old ||| x), 0) ∧
    amoValue .xor true old x c = (some (old ^^^ x), 0) ∧ amoValue .swap true old x c = (some x, 0) ∧
    amoValue .min true old x c = (some (BitVec.ofInt 64 (Min.min (sx old) (sx x))), 0) ∧
    amoValue .max true old x c = (some (BitVec.ofInt 64 (Max.max (sx old) (sx x))), 0) ∧
    amoValue .minn true old x c = (some (BitVec.ofNat 64 (Min.min (ux old) (ux x))), 0) ∧
    amoValue .maxn true old x c = (some (BitVec.ofNat 64 (Max.max (ux old) (ux x))), 0) ∧
    amoValue .cas true old x c = (if old = c then some x else none, 0)) ∧
  (∀ old x c : W,
    amoValue .add false old x c = (some (BitVec.ofNat 64 ((ux old + ux x) % 2 ^ 32)), 0) ∧
    amoValue .swap false old x c = (some (BitVec.ofNat 64 (ux x % 2 ^ 32)), 0) ∧
    amoValue .cas false old x c = (if ux old % 2 ^ 32 = ux c % 2 ^ 32 then some (BitVec.ofNat 64 (ux x % 2 ^ 32)) else none, 0))

/-! ### Panes and barriers -/

namespace Sys2Proof.Claims

/-- The pane of a byte of the own tile store. -/
def paneOf (off : Nat) : Fin 128 := ⟨off / 4096 % 128, Nat.mod_lt _ (by decide)⟩

/-- The pane status word: OWNER, BUSY, RING and STAGED in bits 0 to 3 (R144). -/
def statusWord (p : Pane) : W :=
  flag (p.engine = true) + 2 * flag (p.busy ≠ 0) + 4 * flag (p.ring = true) + 8 * flag (p.staged ≠ 0)

end Sys2Proof.Claims

/-- PGIVE gives the pane of its address to the engines and PTAKE takes it back; PSTAT gives the pane's status after one cycle; no
byte changes, and no other pane (R143, R144). -/
def Sys2Proof.Claims.PaneWords : Prop :=
  ∀ (s : State) (d a : GReg) (off : Nat), Performed s → s.issue.checked = true →
    (OwnAt s .write (s.g a) off →
      (∃ u, exec (.pgive a) s = .next u ∧ u.tile.panes[paneOf off] = { s.tile.panes[paneOf off] with engine := true } ∧
        (∀ p, p ≠ paneOf off → u.tile.panes[p] = s.tile.panes[p]) ∧ u.ctx = s.ctx ∧ SameMemory s u) ∧
      (∃ u, exec (.ptake a) s = .next u ∧ u.tile.panes[paneOf off] = { s.tile.panes[paneOf off] with engine := false } ∧
        (∀ p, p ≠ paneOf off → u.tile.panes[p] = s.tile.panes[p]) ∧ u.ctx = s.ctx ∧ SameMemory s u)) ∧
    (OwnAt s .read (s.g a) off →
      exec (.pstat d a) s = .next (gives (s.touch (s.g a)) d (statusWord s.tile.panes[paneOf off]) 1))

/-- PTAKE of a pane that the engines own: it waits while the pane is BUSY or STAGED, and raises PERMISSION where the pane is a ring's. PGIVE of a
pane that the core owns waits for the strand's earlier memory words (R143). -/
def Sys2Proof.Claims.PaneTakenBack : Prop :=
  ∀ (s : State) (a : GReg) (off : Nat), OwnAt s .write (s.g a) off → s.rewriting = none →
    s.paneCheck .write (s.g a) = .pass → (∀ p ∈ s.ctx.pends, p.acq = false) →
    let p := s.tile.panes[paneOf off]
    (p.engine = false → s.issue.probe = true → (∃ p ∈ s.ctx.pends, s.awaited .tile p = true) →
      exec (.pgive a) s = .next { s with issue := { s.issue with verdict := .wait } }) ∧
    (p.engine = true → (∀ p ∈ s.ctx.pends, p.rel = false) →
     (p.ring = true → Unchecked s → exec (.ptake a) s = .next (refusedBy s .permission (s.g a))) ∧
     (p.ring = false → s.issue.probe = true → exec (.ptake a) s = .next { s with issue := { s.issue with
      verdict := if p.busy ≠ 0 ∨ p.staged ≠ 0 then .wait else .pass } }))

namespace Sys2Proof.Claims

/-- A barrier object: PHASE, KEEPQ, EXPECT, ARRIVED, QUOTA and FILLED in bits 63, 62, 61:50, 49:38, 37:19 and 18:0 (R145). -/
structure Barrier where
  phase : Nat
  keep : Nat
  expect : Nat
  arrived : Nat
  quota : Nat
  filled : Nat

/-- Its fields lie in their ranges. -/
def Barrier.fits (b : Barrier) : Prop :=
  b.phase < 2 ∧ b.keep < 2 ∧ b.expect < 2 ^ 12 ∧ b.arrived < 2 ^ 12 ∧ b.quota < 2 ^ 19 ∧ b.filled < 2 ^ 19

/-- Its word. -/
def Barrier.word (b : Barrier) : Nat :=
  b.phase * 2 ^ 63 + b.keep * 2 ^ 62 + b.expect * 2 ^ 50 + b.arrived * 2 ^ 38 + b.quota * 2 ^ 19 + b.filled

/-- The arrivals are in and the quota is filled (R146). -/
abbrev Barrier.complete (b : Barrier) : Prop := b.arrived = b.expect ∧ b.quota ≤ b.filled

/-- Check (R146): a complete barrier flips. -/
def Barrier.checked (b : Barrier) : Barrier :=
  if b.complete then
    { b with phase := 1 - b.phase, arrived := 0, filled := 0, quota := if b.keep = 1 then b.quota else 0 }
  else b

/-- A state with a barrier stored; a flip wakes the works of the tile (R116). -/
def woken (u : State) (b : Barrier) : State := if b.complete then u.wake u.cur none else u

/-- The barrier object at an address of the own store, as the strand reads it. -/
def BarrierAt (s : State) (va : W) (off : Nat) (b : Barrier) : Prop :=
  OwnAt s .write va off ∧ b.fits ∧ valueOf (ownBytes s off 8) = b.word ∧ s.placeBad (.win s.cur off) 8 = false

end Sys2Proof.Claims

/-- The barrier words (R146): BINIT writes a barrier; BARRIVE counts an arrival and gives the phase as it was; BEXPECT raises the
quota; a barrier that is complete flips and wakes the tile; BWAIT goes on and BTRY gives 1 where the phase is no longer gb[0]. Nothing else in
memory changes. -/
def Sys2Proof.Claims.BarrierWords : Prop :=
  ∀ (s : State) (d a x : GReg) (off : Nat) (b : Barrier), Performed s → s.issue.checked = true → BarrierAt s (s.g a) off b →
    let n := ux (s.g x) % 2 ^ 19
    (∃ u, exec (.binit a x) s = .next u ∧ Stores s u off 8
      (Barrier.word { phase := ux (s.g x) / 2 ^ 12 % 2, keep := ux (s.g x) / 2 ^ 13 % 2, expect := ux (s.g x) % 2 ^ 12,
                      arrived := 0, quota := ux (s.g x) / 2 ^ 32 % 2 ^ 19, filled := 0 })) ∧
    (b.arrived < b.expect →
      let b' : Barrier := { b with arrived := b.arrived + 1 }
      ∃ u, exec (.barrive d a) s = .next (gives (woken u b') d (BitVec.ofNat 64 b.phase) 4) ∧
        u.cur = s.cur ∧ Stores s u off 8 b'.checked.word) ∧
    (b.quota + n < 2 ^ 19 →
      let b' : Barrier := { b with quota := b.quota + n }
      ∃ u, exec (.bexpect a x) s = .next (woken u b') ∧ u.cur = s.cur ∧ Stores s u off 8 b'.checked.word) ∧
    exec (.bwait a x) s = .next (s.touch (s.g a)) ∧
    exec (.btry d a x) s = .next (gives (s.touch (s.g a)) d (flag (b.phase ≠ ux (s.g x) % 2)) 4)

/-- Barrier words that are refused or wait (R146, R341): a count of 0, an arrival too many and a quota too large raise PERMISSION; BWAIT
waits while the phase is gb[0]; BARRIVE and BEXPECT, which are releases, wait for the strand's earlier memory words, and BWAIT and BTRY,
which are acquires, for its earlier releases. -/
def Sys2Proof.Claims.BarrierRefusals : Prop :=
  ∀ (s : State) (d a x : GReg) (off : Nat) (b : Barrier), BarrierAt s (s.g a) off b → s.rewriting = none →
    s.barrierCheck (s.g a) false false = .pass →
    let n := ux (s.g x) % 2 ^ 19
    (Unchecked s → ux (s.g x) % 2 ^ 12 = 0 → exec (.binit a x) s = .next (refusedBy s .permission (s.g a))) ∧
    (Unchecked s → b.arrived = b.expect → exec (.barrive d a) s = .next (refusedBy s .permission (s.g a))) ∧
    (Unchecked s → 2 ^ 19 ≤ b.quota + n → exec (.bexpect a x) s = .next (refusedBy s .permission (s.g a))) ∧
    (s.issue.probe = true → (∀ p ∈ s.ctx.pends, p.rel = false) → exec (.bwait a x) s = .next { s with issue := { s.issue with
      verdict := if b.phase = ux (s.g x) % 2 then .wait else .pass } }) ∧
    (s.issue.probe = true → (∃ p ∈ s.ctx.pends, p.rel = true) →
      exec (.bwait a x) s = .next { s with issue := { s.issue with verdict := .wait } } ∧
      exec (.btry d a x) s = .next { s with issue := { s.issue with verdict := .wait } }) ∧
    (s.issue.probe = true → (∃ p ∈ s.ctx.pends, s.awaited .tile p = true) →
      (b.arrived < b.expect → exec (.barrive d a) s = .next { s with issue := { s.issue with verdict := .wait } }) ∧
      (b.quota + n < 2 ^ 19 → exec (.bexpect a x) s = .next { s with issue := { s.issue with verdict := .wait } }))

/-- When the checks of an access pass: it is aligned and translated, no walk for it has ended in a fault, no acquire and no held
access of the strand is outstanding, and where it goes to the own tile store its pane is the sequence's, is owned by the core,
and is not STAGED under a store (R54, R124, R125, R130, R131, R320, R322). -/
def Obligations.AccessChecksPass : Prop :=
  ∀ (s : State) (acc : Access) (va : W) (n : Nat), n ∈ [1, 2, 4, 8] → ux va % n = 0 → s.ctx.xfault = none →
    (∀ p ∈ s.ctx.pends, p.acq = false) → (∀ m ∈ s.relay, m.writeOf s.strand.owner = none ∧ m.amoOf s.strand.owner = none) →
    (∀ off, OwnAt s acc va off → off % n = 0 →
      let p := s.tile.panes[paneOf off]
      p.seq = some s.q → p.system = false → s.paneCheck acc va = .pass ∧
        (p.engine = false → (acc = .read ∨ p.staged = 0) → s.memCheck acc va n = .pass ∧
          (acc = .write → n = 8 → s.rewriting = none → s.barrierCheck va false false = .pass))) ∧
    (∀ pl, FarAt s acc va pl → s.memCheck acc va n = .pass)

/-! ### Vector memory words -/

namespace Sys2Proof.Claims

/-- Element i of a width in bytes of a register, as an unsigned number (R66). -/
def lane (w : Nat) (x : V) (i : Nat) : Nat := x.toNat / 2 ^ (8 * w * i) % 2 ^ (8 * w)

/-- The bytes of a register that a mask of elements of a width selects (R66, R67). -/
def selects (act : K) (k : K) (w : Nat) : Prop := ∀ b < 128, act.getLsbD b = k.getLsbD (b / w)

/-- The width in bytes of the elements of a contiguous word (R89). -/
def laneBytes : W2 → Nat
  | .b8 => 1
  | .b16 => 2
  | .b32 => 4

/-- Every active element of a contiguous access lies in the own tile store, one after the other from an offset, with no poison
and no store or acquire of the strand's under way. -/
def OwnElements (s : State) (acc : Access) (ga : W) (k : K) (w off : Nat) : Prop :=
  (∃ i < 128 / w, k.getLsbD i = true) ∧ s.rewriting = none ∧ s.relay = [] ∧
  (∀ p ∈ s.ctx.pends, p.acq = false) ∧ ∀ i < 128 / w, k.getLsbD i = true →
    OwnAt s acc (ga + BitVec.ofNat 64 (w * i)) (off + w * i) ∧ s.placeBad (.win s.cur (off + w * i)) w = false

end Sys2Proof.Claims

/-- Contiguous loads and stores and mask loads and stores: their checks pass, in ascending order of the elements, and they are
performed whole (R138, R140). -/
def Sys2Proof.Claims.ContiguousWordsPerformed : Prop :=
  ∀ (s : State) (v : VReg) (m : KReg) (a : GReg) (k : KReg) (z : W2),
    let w := laneBytes z
    let l := contiguous w (s.g a) (s.k k)
    let act := activeBytes w (128 / w) (s.k k)
    let whole : Elem := { at_ := 0, va := s.g a, n := 16 }
    selects act (s.k k) w ∧
    l = ((List.range (128 / w)).filter fun i => (s.k k).getLsbD i).map
      (fun i => { at_ := w * i, va := s.g a + BitVec.ofNat 64 (w * i), n := w }) ∧
    (Passes s (s.elemsCheck .read l) → exec (.vld v a k z) s = .next (s.vload (.v v) .bytes l act id)) ∧
    (Passes s (s.elemsCheck .write l) → exec (.vst v a k z) s = .next (s.vstore (l.map fun e =>
      (e, BitVec.ofNat 64 (lane w (s.v v) (e.at_ / w)))))) ∧
    (Passes s (s.elemsCheck .read (single w (s.g a) (s.k k))) → ∃ f, exec (.vldb v a k z) s =
      .next (s.vload (.v v) (.bcast w) (single w (s.g a) (s.k k)) act f) ∧
      ∀ x i, i < 128 / w → lane w (f x) i = lane w x 0) ∧
    (Passes s (s.elemsCheck .read [whole]) → exec (.vldm m a) s = .next (s.vload (if m = 0 then .none else .k m)
      (if m = 0 then .word else .mask) [whole] (BitVec.allOnes 128) id)) ∧
    (Passes s (s.elemsCheck .write [whole]) → exec (.vstm m a) s = .next (s.vstore
      [({ at_ := 0, va := s.g a, n := 8 }, (s.k m).extractLsb' 0 64),
       ({ at_ := 8, va := s.g a + 8, n := 8 }, (s.k m).extractLsb' 64 64)]))

/-- What a contiguous load brings from the own tile store, in four cycles, and what a contiguous store leaves there: the active
elements, and nothing else (R66, R138). -/
def Sys2Proof.Claims.ContiguousWordsInOwnStore : Prop :=
  ∀ (s : State) (v : VReg) (ga : W) (k : K) (z : W2) (off : Nat),
    let w := laneBytes z
    let l := contiguous w ga k
    let act := activeBytes w (128 / w) k
    (OwnElements s .read ga k w off → ∃ u x, s.vload (.v v) .bytes l act id =
        flying u { ordinary s (.v v) x 4 with act := act } ∧ u.ctx = s.ctx ∧ SameMemory s u ∧
      ∀ i < 128 / w, k.getLsbD i = true → lane w x i = valueOf (ownBytes s (off + w * i) w)) ∧
    (OwnElements s .write ga k w off →
      let u := s.vstore (l.map fun e => (e, BitVec.ofNat 64 (lane w (s.v v) (e.at_ / w))))
      (∀ key b, (∀ j < 128, k.getLsbD (j / w) = true → b ≠ storeKey s.cur (off + j)) → u.byteAs key b = s.byteAs key b) ∧
      ((ownKeys s).w ≠ 0 → (ownKeys s).w = (ownKeys s).k0 ∨ (ownKeys s).w = (ownKeys s).k1 →
        ∀ j < 128, k.getLsbD (j / w) = true →
          u.byteAs (ownKeys s) (storeKey s.cur (off + j)) = BitVec.ofNat 8 (lane 1 (s.v v) j)))

/-- The element-addressed words put their replay record into the context, with the operands as they stand at issue; with no
active element nothing is done (R138, R141). -/
def Sys2Proof.Claims.ElementWordsStart : Prop :=
  ∀ (s : State) (v x : VReg) (a b : GReg) (k : KReg) (z : W2) (t : VAmoT), Passes s s.acquireWait →
    let record (i : Instr) (n : Nat) (gb : W) (data index : V) : State :=
      if ∃ j < n, (s.k k).getLsbD j = true then
        s.modCtx fun c => { c with replay := some { word := i, ga := s.g a, gb := gb, data := data, index := index,
                                                    mask := s.k k, done := 0, ba := s.issue.ba, running := true } }
      else s
    let n := 128 / laneBytes z
    exec (.vlds v a b k z) s = .next (record (.vlds v a b k z) n (s.g b) 0 0) ∧
    exec (.vsts v a b k z) s = .next (record (.vsts v a b k z) n (s.g b) (s.v v) 0) ∧
    exec (.vgath v a x k z) s = .next (record (.vgath v a x k z) n 0 0 (s.v x)) ∧
    exec (.vscat v a x k z) s = .next (record (.vscat v a x k z) n 0 (s.v v) (s.v x)) ∧
    exec (.vamo v a x k t) s = .next (record (.vamo v a x k t) 32 0 (s.v v) (s.v x))

/-- The next element of a word: the lowest active one that is not done, at ga + i × gb or at ga + index × width; where it faults,
the record keeps DONE and the other words of the bundle are performed, then the trap is taken with TRAPMASK = DONE and TRAPPC = the
next bundle; where no element is left, the record is dropped (R138, R139, R141). -/
def Sys2Proof.Claims.ElementsInOrder : Prop :=
  ∀ (s : State) (rest : State → State) (r : Replay) (f : ElemForm), elemForm r.word = some f →
    (∀ i, r.next (128 / f.w) = some i → i < 128 / f.w ∧ r.mask.getLsbD i = true ∧ r.done.getLsbD i = false ∧
      (∀ j < i, r.mask.getLsbD j = true → r.done.getLsbD j = true) ∧
      r.addr f i = BitVec.ofNat 64 (ux r.ga + if f.strided then i * ux r.gb else lane f.w r.index i * f.w) ∧
      (∀ c val, s.accessCheck f.op.access f.w (r.addr f i) f.w = .trap c val →
        let u := rest (s.modReplay fun r => { r with running := false })
        s.elemStep rest r = u.takeTrap u.cur u.curK c val (some r.done) u.ctx.pc)) ∧
    (r.next (128 / f.w) = none → s.elemStep rest r = s.modCtx fun c => { c with replay := none, refused := [] })

/-- An element that is performed in the own tile store: a load writes its lane and no other, a store its bytes and no other, and
the element is marked done (R139). -/
def Sys2Proof.Claims.ElementPerformed : Prop :=
  ∀ (s : State) (r : Replay) (f : ElemForm) (i off : Nat), i < 128 / f.w → f.w ∈ [1, 2, 4] → s.rewriting = none →
    s.ctx.replay = some r → s.relay = [] → OwnAt s f.op.access (r.addr f i) off →
    let u := s.performElem r f i (.win s.cur off) (r.addr f i)
    u.ctx.replay = some { r with done := r.done ||| (1 : K) <<< i } ∧
    (f.op = .load → SameMemory s u ∧ u.ctx.regs.g = s.ctx.regs.g ∧ u.ctx.regs.k = s.ctx.regs.k ∧
      (∀ x, x ≠ f.reg → u.v x = s.v x) ∧
      ∀ j < 128 / f.w, lane f.w (u.v f.reg) j =
        if j = i then valueOf (ownBytes s off f.w) else lane f.w (s.v f.reg) j) ∧
    (f.op = .store → u.ctx.regs = s.ctx.regs ∧ Stores s u off f.w (lane f.w r.data i))

/-- VRORD sends its slice, inactive elements being −0, to the home of its object, with the places of the lines that hold SUM, or puts it
into the commit buffer of a rewrite (R137, R166, R167, R404). -/
def Obligations.OrderedReductionWord : Prop :=
  ∀ (s : State) (v : VReg) (a b : GLow) (k : KReg),
    let va := s.g a.toGReg
    Passes s (s.reduceCheck va) → ∀ pl, s.locate .atomic va = some pl → ∃ u data, exec (.vrord v a b k) s = .next u ∧
      (∀ i < 32, lane 4 data i = if (s.k k).getLsbD i then lane 4 (s.v v) i else 2 ^ 31) ∧ SameMemory s u ∧
      (s.rewriting = none → sends s u (serverOf s pl)
        (.slice { asks s pl 192 s.fresh va [] with more := s.sumPlaces va pl } (ux (s.g b.toGReg) % 2 ^ 32) data (s.k k))
        (acquires s ++ s.sameLine pl 192 (serverOf s pl))) ∧
      (∀ r, s.rewriting = some r → r.buf.length < 128 →
        Commits s u (.slice va pl (s.sumPlaces va pl) (ux (s.g b.toGReg) % 2 ^ 32) data (s.k k)))

/-- Atomics in the own tile store and elsewhere (R131, R134–R137). -/
def Obligations.Atomics : Prop := Claims.AtomicsPerformed ∧ Claims.AtomicRequests

/-- PGIVE, PTAKE and the pane states (R143, R144). -/
def Obligations.Panes : Prop := Claims.PaneWords ∧ Claims.PaneTakenBack

/-- BINIT, BARRIVE, BEXPECT, BWAIT and what they are refused for (R146). -/
def Obligations.Barriers : Prop := Claims.BarrierWords ∧ Claims.BarrierRefusals

/-- Contiguous vector loads and stores (R66, R138, R140). -/
def Obligations.ContiguousWords : Prop := Claims.ContiguousWordsPerformed ∧ Claims.ContiguousWordsInOwnStore

/-- Element-addressed words: their start, the order of their elements, and one element (R138, R139, R141). -/
def Obligations.ElementWords : Prop := Claims.ElementWordsStart ∧ Claims.ElementsInOrder ∧ Claims.ElementPerformed

/-! ### Vector words -/

namespace Sys2Proof.Claims

/-- Element i as two's complement. -/
def laneS (w : Nat) (x : V) (i : Nat) : Int := BitVec.toInt (BitVec.ofNat (8 * w) (lane w x i))

/-- A word answers a vector result: after a latency, the active elements of width w hold f, with flags raised and elements that
raised an enabled one (R66, R148); everything else of the state stays. -/
def GivesLanes (o : Out) (s : State) (d : VReg) (w : Nat) (k : K) (lat : Nat) (flags : BitVec 6) (hot : K) (f : Nat → Nat) :
    Prop :=
  ∃ x act, o = .next (flying s { ordinary s (.v d) x lat with act := act, flags := flags, hot := hot }) ∧ selects act k w ∧
    ∀ i < 128 / w, k.getLsbD i = true → lane w x i = f i % 2 ^ (8 * w)

/-- The same for an integer result, wrapped, after two cycles and without flags (R150). -/
def GivesInt (o : Out) (s : State) (d : VReg) (w : Nat) (k : K) (f : Nat → Int) : Prop :=
  GivesLanes o s d w k 2 0 0 fun i => (f i % 2 ^ (8 * w)).toNat

/-- A register that is written whole: all its elements (R163, R164, R170). -/
def GivesAll (o : Out) (s : State) (d : VReg) (w : Nat) (lat : Nat) (f : Nat → Nat) : Prop :=
  ∃ x, o = .next (flying s (ordinary s (.v d) x lat)) ∧ ∀ i < 128 / w, lane w x i = f i

/-- A mask result; nothing where it is for k0 and raises no flag (R67). -/
def givesMask (s : State) (d : KReg) (x : K) (lat : Nat) : State :=
  if d = 0 then s else flying s (ordinary s (.k d) (x.setWidth 1024) lat)

/-- A mask of the lanes below n for which a condition holds. -/
def IsMask (x : K) (n : Nat) (p : Nat → Prop) : Prop := ∀ i < 128, x.getLsbD i = true ↔ i < n ∧ p i

end Sys2Proof.Claims

/-- The vector integer words that compute lane by lane (R150, R151). -/
def Sys2Proof.Claims.VectorIntegerWords : Prop :=
  ∀ (s : State) (d a b : VReg) (k : KReg) (z : W2), Performed s →
    let w := laneBytes z
    let m := s.k k
    let u (i : Nat) : Int := lane w (s.v a) i
    let v (i : Nat) : Int := lane w (s.v b) i
    let x := laneS w (s.v a)
    let y := laneS w (s.v b)
    let n (i : Nat) : Nat := lane w (s.v b) i % (8 * w)
    GivesInt (exec (.vadd d a b k z) s) s d w m (fun i => u i + v i) ∧
    GivesInt (exec (.vsub d a b k z) s) s d w m (fun i => u i - v i) ∧
    GivesInt (exec (.vmul d a b k z) s) s d w m (fun i => u i * v i) ∧
    GivesInt (exec (.vmulh d a b k z) s) s d w m (fun i => x i * y i / 2 ^ (8 * w)) ∧
    GivesInt (exec (.vmin d a b k z) s) s d w m (fun i => Min.min (x i) (y i)) ∧
    GivesInt (exec (.vmax d a b k z) s) s d w m (fun i => Max.max (x i) (y i)) ∧
    GivesInt (exec (.vminn d a b k z) s) s d w m (fun i => Min.min (u i) (v i)) ∧
    GivesInt (exec (.vmaxn d a b k z) s) s d w m (fun i => Max.max (u i) (v i)) ∧
    GivesInt (exec (.vshl d a b k z) s) s d w m (fun i => u i * 2 ^ n i) ∧
    GivesInt (exec (.vshr d a b k z) s) s d w m (fun i => u i / 2 ^ n i) ∧
    GivesInt (exec (.vsha d a b k z) s) s d w m (fun i => x i / 2 ^ n i) ∧
    GivesInt (exec (.vabs d a k z) s) s d w m (fun i => if x i < 0 then - x i else x i) ∧
    GivesInt (exec (.vneg d a k z) s) s d w m (fun i => - x i) ∧
    (∃ f : Nat → Nat, GivesInt (exec (.vclz d a k z) s) s d w m (fun i => f i) ∧ ∀ i < 128 / w, m.getLsbD i = true →
      f i ≤ 8 * w ∧ u i < 2 ^ (8 * w - f i) ∧ (f i < 8 * w → 2 ^ (8 * w - f i - 1) ≤ u i)) ∧
    GivesInt (exec (.vpopc d a k z) s) s d w m
      (fun i => (List.range (8 * w)).countP fun j => (lane w (s.v a) i).testBit j)

/-- VSAT clamps and raises SAT where an active element is clamped; the logical words act on whole registers under the mask
(R33, R150). -/
def Sys2Proof.Claims.VectorSaturationAndLogic : Prop :=
  ∀ (s : State) (d a b : VReg) (k : KReg) (z : W2), Performed s →
    let w := laneBytes z
    let m := s.k k
    let sum (i : Nat) : Int := laneS w (s.v a) i + laneS w (s.v b) i
    let lo : Int := - 2 ^ (8 * w - 1)
    let hi : Int := 2 ^ (8 * w - 1) - 1
    let clamped : Prop := ∃ i < 128 / w, m.getLsbD i = true ∧ (sum i < lo ∨ hi < sum i)
    (∃ fl, GivesLanes (exec (.vsat d a b k z) s) s d w m 2 fl 0
        (fun i => (Min.min hi (Max.max lo (sum i)) % 2 ^ (8 * w)).toNat) ∧
      (clamped → fl = 0x20) ∧ (¬ clamped → fl = 0)) ∧
    (∀ p ∈ [(Instr.vand d a b k z, s.v a &&& s.v b), (.vor d a b k z, s.v a ||| s.v b), (.vxor d a b k z, s.v a ^^^ s.v b),
        (.vandn d a b k z, s.v a &&& ~~~ s.v b)],
      ∃ act, exec p.1 s = .next (flying s { ordinary s (.v d) p.2 2 with act := act }) ∧ selects act m w)

namespace Sys2Proof.Claims

/-- The widths and the sign of a narrowing and of a widening selector (R91). -/
def narrowing : NarrowSel → Nat × Bool
  | .i16i32 => (2, true)
  | .n16n32 => (2, false)
  | .i8i16 => (1, true)
  | .n8n16 => (1, false)

/-- The destination width and the sign of a widening. -/
def widening : WidenSel → Nat × Bool
  | .i32i16 => (4, true)
  | .n32n16 => (4, false)
  | .i16i8 => (2, true)
  | .n16n8 => (2, false)

/-- Element i read by the sign of its type. -/
def laneAs (sg : Bool) (w : Nat) (x : V) (i : Nat) : Int := if sg then laneS w x i else lane w x i

/-- The elements of a register that a mask selects, in ascending order. -/
def chosen (w : Nat) (x : V) (k : K) : List Nat := ((List.range (128 / w)).filter fun i => k.getLsbD i).map (lane w x)

end Sys2Proof.Claims

/-- VNARROW clamps n elements into the low half of the register and raises SAT where one is clamped; VWIDEN extends the elements
of the low half (R162). -/
def Sys2Proof.Claims.VectorNarrowAndWiden : Prop :=
  ∀ (s : State) (d a : VReg) (k : KReg) (c : NarrowSel) (e : WidenSel), Performed s →
    let m := s.k k
    (let w := (narrowing c).1
     let sg := (narrowing c).2
     let n := 64 / w
     let x := laneAs sg (2 * w) (s.v a)
     let lo : Int := if sg then - 2 ^ (8 * w - 1) else 0
     let hi : Int := if sg then 2 ^ (8 * w - 1) - 1 else 2 ^ (8 * w) - 1
     let clamped : Prop := ∃ i < n, m.getLsbD i = true ∧ (x i < lo ∨ hi < x i)
     ∃ y act fl, exec (.vnarrow d a c k) s =
         .next (flying s { ordinary s (.v d) y 4 with act := act, flags := fl }) ∧
       (∀ b < 128, act.getLsbD b = (decide (b < 64) && m.getLsbD (b / w))) ∧
       (∀ i < n, m.getLsbD i = true → (lane w y i : Int) = Min.min hi (Max.max lo (x i)) % 2 ^ (8 * w)) ∧
       (clamped → fl = 0x20) ∧ (¬ clamped → fl = 0)) ∧
    (let w := (widening e).1
     GivesLanes (exec (.vwiden d a e k) s) s d w m 4 0 0
       fun i => (laneAs (widening e).2 (w / 2) (s.v a) i % 2 ^ (8 * w)).toNat)

/-- The permutes (R163). -/
def Sys2Proof.Claims.VectorPermutes : Prop :=
  ∀ (s : State) (d a b : VReg) (g : GLow) (k : KReg) (z : W2), Performed s →
    let w := laneBytes z
    let m := s.k k
    let n := 128 / w
    let x := lane w (s.v a)
    let y := lane w (s.v b)
    GivesLanes (exec (.vperm d a b k z) s) s d w m 2 0 0 (fun i => x (y i % n)) ∧
    GivesLanes (exec (.vslide d a g k z) s) s d w m 2 0 0 (fun i =>
      if 0 ≤ (i : Int) + sx (s.g g.toGReg) ∧ (i : Int) + sx (s.g g.toGReg) < n
      then x ((i : Int) + sx (s.g g.toGReg)).toNat else 0) ∧
    GivesLanes (exec (.vtrn d a b k z) s) s d w m 2 0 0 (fun i => if i % 2 = 0 then x (i / 2) else y (i / 2)) ∧
    GivesLanes (exec (.vexpd d a k z) s) s d w m 2 0 0 (fun i => x ((List.range i).countP fun j => m.getLsbD j)) ∧
    GivesAll (exec (.vcompr d a k z) s) s d w 2 (fun i => (chosen w (s.v a) m).getD i 0)

/-- Selection and moves between the files (R170). -/
def Sys2Proof.Claims.VectorMoves : Prop :=
  ∀ (s : State) (d a b : VReg) (g h : GLow) (k : KReg) (z : W2), Performed s →
    let w := laneBytes z
    let m := s.k k
    let j := ux (s.g h.toGReg) % (128 / w)
    GivesAll (exec (.vsel d a b k z) s) s d w 2 (fun i => if m.getLsbD i then lane w (s.v a) i else lane w (s.v b) i) ∧
    GivesLanes (exec (.vbcast d g k z) s) s d w m 2 0 0 (fun _ => ux (s.g g.toGReg)) ∧
    exec (.vext g a h z) s = .next (gives s g.toGReg (BitVec.ofNat 64 (lane w (s.v a) j)) 2) ∧
    GivesAll (exec (.vins d g h z) s) s d w 2
      (fun i => if i = j then ux (s.g g.toGReg) % 2 ^ (8 * w) else lane w (s.v d) i)

/-- The mask instructions and the integer compare (R67, R169, R171). -/
def Sys2Proof.Claims.MaskWords : Prop :=
  ∀ (s : State) (d a b : KReg) (g : GLow) (va vb : VReg) (k : KReg) (c : Cond) (z : W2), Performed s →
    exec (.kand d a b) s = .next (givesMask s d (s.k a &&& s.k b) 2) ∧
    exec (.kor d a b) s = .next (givesMask s d (s.k a ||| s.k b) 2) ∧
    exec (.kxor d a b) s = .next (givesMask s d (s.k a ^^^ s.k b) 2) ∧
    exec (.knot d a) s = .next (givesMask s d (~~~ s.k a) 2) ∧
    exec (.kmov d a) s = .next (givesMask s d (s.k a) 2) ∧
    exec (.kpopc g a) s =
      .next (gives s g.toGReg (BitVec.ofNat 64 ((List.range 128).countP fun i => (s.k a).getLsbD i)) 2) ∧
    (∃ n ≤ 128, exec (.kfirst g a) s = .next (gives s g.toGReg (BitVec.ofNat 64 n) 2) ∧
      (∀ i < n, (s.k a).getLsbD i = false) ∧ (n < 128 → (s.k a).getLsbD n = true)) ∧
    (∃ x, exec (.kset d g) s = .next (givesMask s d x 2) ∧ IsMask x 128 fun i => i < ux (s.g g.toGReg)) ∧
    (let w := laneBytes z
     let x := lane w (s.v va)
     let y := lane w (s.v vb)
     let p := laneS w (s.v va)
     let q := laneS w (s.v vb)
     ∃ r, exec (.vcmp d va vb k c z) s = .next (givesMask s d r 2) ∧
       IsMask r (128 / w) fun i => (s.k k).getLsbD i = true ∧ match c with
         | .eq => x i = y i
         | .ne => x i ≠ y i
         | .lt => p i < q i
         | .ge => q i ≤ p i
         | .ltn => x i < y i
         | .gen => y i ≤ x i)

namespace Sys2Proof.Claims

/-- An integer reduction of two's-complement or unsigned numbers, wrapped (R49, R90). -/
def combine (c : RedSel) (a b : Int) : Int :=
  match c with
  | .sum => a + b
  | .min | .minn => Min.min a b
  | .max | .maxn => Max.max a b

/-- Whether the reduction reads its elements as signed. -/
def reducesSigned : RedSel → Bool
  | .min | .max => true
  | .sum | .minn | .maxn => false

/-- The identity of R49. -/
def identity (c : RedSel) (w : Nat) : Int :=
  match c with
  | .sum | .maxn => 0
  | .min => 2 ^ (8 * w - 1) - 1
  | .max => - 2 ^ (8 * w - 1)
  | .minn => 2 ^ (8 * w) - 1

end Sys2Proof.Claims

/-- The integer reduction and the integer scan: every element of the result is written; the reduction leaves its value in element
0 and zeros above (R49, R164, R165). -/
def Sys2Proof.Claims.IntegerReductions : Prop :=
  ∀ (s : State) (d a : VReg) (c : RedSel) (k : KReg) (z : W2), Performed s →
    let w := laneBytes z
    let m := s.k k
    let x := laneAs (reducesSigned c) w (s.v a)
    let upTo (n : Nat) : Int := ((List.range n).filter fun i => m.getLsbD i).foldl (fun y i => combine c y (x i)) (identity c w)
    GivesAll (exec (.vredInt d a c k z) s) s d w 2
      (fun i => if i = 0 then (upTo (128 / w) % 2 ^ (8 * w)).toNat else 0) ∧
    GivesAll (exec (.vscanInt d a c k z) s) s d w 2 (fun i => (upTo (i + 1) % 2 ^ (8 * w)).toNat)

/-! ### Floating point -/

namespace Sys2Proof.Claims

/-- The bytes of an element of a format (R89). -/
def fpBytes : FP2 → Nat
  | .f32 => 4
  | .f16 | .bf16 => 2

/-- Element i as a datum, a subnormal being zero under FTZ (R34, R44). -/
def datum (s : State) (t : FP2) (x : V) (i : Nat) : Machine.Num :=
  unpack (fp2Fmt t) (flushIn (fp2Fmt t) (s.ctx.fpctl.getLsbD 2) (lane (fpBytes t) x i))

/-- The rounding mode of FPCTL (R38). -/
def rounding (s : State) : RMode :=
  match ux s.ctx.fpctl % 4 with
  | 0 => .rne
  | 1 => .rtz
  | 2 => .rup
  | _ => .rdn

/-- The elements whose flags include one that FPCTL enables (R38, R40). -/
def IsHot (s : State) (hot : K) (n : Nat) (k : K) (f : Nat → BitVec 6) : Prop :=
  IsMask hot n fun i => k.getLsbD i = true ∧ ∃ j < 5, (f i).getLsbD j = true ∧ s.ctx.fpctl.getLsbD (8 + j) = true

/-- A floating-point word answers after four cycles (R149): the active elements hold their results, the flags of all of them are
raised, and those with an enabled flag are noted (R40). -/
def GivesFp (o : Out) (s u : State) (d : VReg) (w n : Nat) (k : K) (f : Nat → Nat × BitVec 6) : Prop :=
  ∃ x act fl hot, o = .next (flying u { ordinary s (.v d) x 4 with act := act, flags := fl, hot := hot }) ∧
    (∀ b < 128, act.getLsbD b = (decide (b < w * n) && k.getLsbD (b / w))) ∧
    (∀ i < n, k.getLsbD i = true → lane w x i = (f i).1 % 2 ^ (8 * w)) ∧
    (∀ j < 6, fl.getLsbD j = true ↔ ∃ i < n, k.getLsbD i = true ∧ (f i).2.getLsbD j = true) ∧
    IsHot s hot n k fun i => (f i).2

end Sys2Proof.Claims

/-- The floating-point arithmetic, fused and approximating words answer, lane by lane, the exact operation rounded once in the
mode of FPCTL, or the table of the approximation, with the flags of every active lane (R36, R38–R40, R148, R152, R154–R159). -/
def Obligations.FloatingPointWords : Prop :=
  ∀ (s : State) (d a b : VReg) (k : KReg) (t : FP2), Performed s →
    let f := fp2Fmt t
    let ftz := s.ctx.fpctl.getLsbD 2
    let w := fpBytes t
    let n := 128 / w
    let x := datum s t (s.v a)
    let y := datum s t (s.v b)
    let acc := datum s t (s.v d)
    let p (i : Nat) : Nat := lane w (s.v a) i
    let r := rounding s
    let one := datum s .f32 (s.v a)
    let answers (i : Instr) (g : Nat → Nat × BitVec 6) : Prop := GivesFp (exec i s) s s d w n (s.k k) g
    let answers32 (i : Instr) (g : Nat → Nat × BitVec 6) : Prop := GivesFp (exec i s) s s d 4 32 (s.k k) g
    answers (.vfadd d a b k t) (fun i => addNum f r ftz (x i) (y i)) ∧
    answers (.vfsub d a b k t) (fun i => addNum f r ftz (x i) (y i).negate) ∧
    answers (.vfmul d a b k t) (fun i => mulNum f r ftz (x i) (y i)) ∧
    answers (.vfmin d a b k t) (fun i => fminmax f ftz false (p i) (lane w (s.v b) i)) ∧
    answers (.vfmax d a b k t) (fun i => fminmax f ftz true (p i) (lane w (s.v b) i)) ∧
    answers (.vfabs d a k t) (fun i => if (unpack f (p i)).isNan then (f.nan, nanFlags [unpack f (p i)])
      else (p i % 2 ^ (8 * w - 1), 0)) ∧
    answers (.vfneg d a k t) (fun i => if (unpack f (p i)).isNan then (f.nan, nanFlags [unpack f (p i)])
      else (p i ^^^ 2 ^ (8 * w - 1), 0)) ∧
    answers (.vfrnd d a k t) (fun i => rndNum f r (x i)) ∧
    answers (.vfclass d a k t) (fun i => (fclass f (p i), 0)) ∧
    answers (.vfma d a b k t) (fun i => fmaNum f r ftz (x i) (y i) (acc i)) ∧
    answers (.vfms d a b k t) (fun i => fmaNum f r ftz (x i) (y i) (acc i).negate) ∧
    answers (.vfnma d a b k t) (fun i => fmaNum f r ftz (x i).negate (y i) (acc i)) ∧
    answers32 (.vfrcp d a k) (fun i => rcpNum ftz (one i)) ∧
    answers32 (.vfrsq d a k) (fun i => rsqNum ftz (one i)) ∧
    answers32 (.vfexp2 d a k) (fun i => exp2Num ftz (one i)) ∧
    answers32 (.vflog2 d a k) (fun i => log2Num ftz (one i))

/-- The one rounding (R36, R41): a value that the format holds is delivered as it is and raises nothing; RTZ never goes above the
exact magnitude and RNE never further from it than half a unit; every pattern that is not a NaN decodes and rounds back to
itself. -/
def Obligations.RoundingIsFaithful : Prop :=
  (∀ (t : FP2) (m : RMode) (b : Nat), b < 2 ^ (8 * fpBytes t) → ∀ n k x, unpack (fp2Fmt t) b = .fin n k x →
    roundTo (fp2Fmt t) m false n k x = (b, 0)) ∧
  (∀ (neg : Bool) (m : Nat) (x q : Int),
    let unit := (q - x).toNat
    let k (mode : RMode) := (roundUnits mode neg m x q).1
    x ≤ q →
      k .rtz = m / 2 ^ unit ∧
      (2 * (k .rne * 2 ^ unit) ≤ 2 * m + 2 ^ unit ∧ 2 * m ≤ 2 * (k .rne * 2 ^ unit) + 2 ^ unit) ∧
      (2 * (k .rne * 2 ^ unit) = 2 * m + 2 ^ unit ∨ 2 * m = 2 * (k .rne * 2 ^ unit) + 2 ^ unit → k .rne % 2 = 0) ∧
      (neg = false → k .rup = (m + (2 ^ unit - 1)) / 2 ^ unit ∧ k .rdn = m / 2 ^ unit) ∧
      (neg = true → k .rdn = (m + (2 ^ unit - 1)) / 2 ^ unit ∧ k .rup = m / 2 ^ unit))

/-- The conversions, packing and unpacking: each lane in its rounding mode; a stochastic mode draws once per active lane, in
ascending order, and leaves the generator after its draws (R42, R43, R47, R94, R160, R161). -/
def Sys2Proof.Claims.ConversionWords : Prop :=
  ∀ (s : State) (d a : VReg) (p : CvtPair) (f : BX) (k : KReg) (r : Rnd), Performed s →
    let ftz := s.ctx.fpctl.getLsbD 2
    let drawn (who : List Bool) : State := s.modCtx fun c => { c with lfsr := if r = .rst then (draws c.lfsr who).2 else c.lfsr }
    let mode (who : List Bool) (i : Nat) : RMode := match r with
      | .rm => rounding s
      | .rne => .rne
      | .rtz => .rtz
      | .rup => .rup
      | .rdn => .rdn
      | .rst => .rst ((draws s.ctx.lfsr who).1.getD i 0)
    (let sh := cvtShape p
     let who := (List.range sh.2.2).map fun i => (s.k k).getLsbD i
     GivesFp (exec (.vcvt d a p k r) s) s (drawn who) d sh.2.1 sh.2.2 (s.k k)
       fun i => convertElem p ftz (mode who i) (lane sh.1 (s.v a) i)) ∧
    (let who := List.replicate 32 true
     let input (i : Nat) : Machine.Num × RMode := (datum s .f32 (s.v a) i, mode who i)
     let lo := bxEncode f ((List.range 16).map input)
     let hi := bxEncode f ((List.range 16).map fun i => input (16 + i))
     ∃ fl hot, exec (.vpack d a f r) s = .next (flying (drawn who)
         { ordinary s (.v d) (BitVec.ofNat 1024 (lo.1 + hi.1 * 2 ^ (8 * bxBytes f))) 4 with flags := fl, hot := hot }) ∧
       (∀ j < 6, fl.getLsbD j = true ↔ ∃ i < 32, ((lo.2 ++ hi.2).getD i 0).getLsbD j = true) ∧
       IsHot s hot 32 (BitVec.allOnes 128) fun i => (lo.2 ++ hi.2).getD i 0) ∧
    (let block (i : Nat) : Nat := ((s.v a).extractLsb' (8 * bxBytes f * (i / 16)) (8 * bxBytes f)).toNat
     GivesFp (exec (.vunpk d a f k) s) s s d 4 32 (s.k k) fun i => (numToF32 (bxElement f (block i) (i % 16)), 0))

/-- The floating-point reduction, scan and compare: the tree of R49 over the active lanes and the identity elsewhere, the
inclusive prefix in lane order, and the mask of the lanes whose condition holds, with the flags raised (R49, R164, R165,
R169). -/
def Sys2Proof.Claims.FloatingPointReductions : Prop :=
  ∀ (s : State) (d a b : VReg) (kd : KReg) (c : FRedSel) (cc : FCond) (k : KReg) (t : FP2), Performed s →
    let f := fp2Fmt t
    let ftz := s.ctx.fpctl.getLsbD 2
    let w := fpBytes t
    let n := 128 / w
    let m := s.k k
    let lanes := (List.range n).map fun i => if m.getLsbD i then lane w (s.v a) i else fredId c f
    let op (x y : Nat) : Nat := (fredOp c f (rounding s) ftz x y).1
    (∃ x fl hot, exec (.vredFp d a c k t) s = .next (flying s { ordinary s (.v d) x 4 with flags := fl, hot := hot }) ∧
      [lane w x 0] = tree op (Nat.log2 n) lanes ∧ (∀ i < n, i ≠ 0 → lane w x i = 0) ∧
      (hot = 0 ∨ hot = 1) ∧ (hot = 1 ↔ ∃ j < 5, fl.getLsbD j = true ∧ s.ctx.fpctl.getLsbD (8 + j) = true)) ∧
    (∃ x fl hot, exec (.vscanFp d a c k t) s = .next (flying s { ordinary s (.v d) x 4 with flags := fl, hot := hot }) ∧
      ∀ i < n, lane w x i = (((List.range (i + 1)).filter fun j => m.getLsbD j).foldl
        (fun y j => op y (lane w (s.v a) j)) (fredId c f)) % 2 ^ (8 * w)) ∧
    (∃ r fl hot, exec (.vfcmp kd a b k cc t) s = .next (if kd = 0 ∧ fl = 0 then s else flying s
        { ordinary s (if kd = 0 then .none else .k kd) (r.setWidth 1024) 4 with flags := fl, hot := hot }) ∧
      IsMask r n (fun i => m.getLsbD i = true ∧ (fcmp cc (datum s t (s.v a) i) (datum s t (s.v b) i)).1 = true) ∧
      (∀ j < 6, fl.getLsbD j = true ↔ ∃ i < n, m.getLsbD i = true ∧
        (fcmp cc (datum s t (s.v a) i) (datum s t (s.v b) i)).2.getLsbD j = true) ∧
      IsHot s hot n m fun i => (fcmp cc (datum s t (s.v a) i) (datum s t (s.v b) i)).2)

/-- Integer words on vectors (R33, R150, R151). -/
def Obligations.VectorIntegers : Prop := Claims.VectorIntegerWords ∧ Claims.VectorSaturationAndLogic

/-- Permutes, moves, narrowing and widening (R162, R163, R170). -/
def Obligations.VectorShapes : Prop := Claims.VectorPermutes ∧ Claims.VectorMoves ∧ Claims.VectorNarrowAndWiden

/-- Mask words and integer reductions (R49, R67, R164, R165, R169, R171). -/
def Obligations.MasksAndReductions : Prop := Claims.MaskWords ∧ Claims.IntegerReductions

/-- Conversions and floating-point reductions (R42, R43, R47, R49, R94, R160, R161, R164, R165, R169). -/
def Obligations.ConversionsAndSums : Prop := Claims.ConversionWords ∧ Claims.FloatingPointReductions

/-! ### The matrix unit -/

namespace Sys2Proof.Claims

/-- A word joins the queue of the tile's matrix unit; nothing else of the unit changes, and no byte of memory (R175, R186). -/
def Queues (s u : State) (kind : MKind) : Prop :=
  u.tile.matrix = { s.tile.matrix with queue := s.tile.matrix.queue ++
    [{ kind := kind, owner := s.strand.owner, strand := s.curK, seq := s.q, ba := s.issue.ba, spoil := false, read := false,
       left := none }] } ∧
  u.cur = s.cur ∧ SameMemory s u

/-- The strand holds the unit (R172). -/
def Holds (s : State) : Prop := ∃ k, s.tile.matrix.holder = some (s.strand.owner, k)

/-- An M word without operands can issue: the bundle has been checked, or the strand holds the unit, no acquire of it is
outstanding, and the queue has room (R172, R175). -/
def UnitReady (s : State) : Prop :=
  Performed s ∧ (s.issue.checked = true ∨
    (Holds s ∧ (∀ p ∈ s.ctx.pends, p.acq = false) ∧ s.tile.matrix.queue.length < 8))

/-- The M words that queue at once join the unit's queue: those without an operand, and the ring words (R175, R180, R182,
R184). -/
def MatrixWordsQueue : Prop :=
  ∀ (s : State) (a b h : GReg) (c : Acc), UnitReady s →
    (∃ u, exec (.mzero c) s = .next u ∧ Queues s u (.mzero c)) ∧
    (∃ u, exec (.mswap c) s = .next u ∧ Queues s u (.mswap c)) ∧
    (∃ u i j, exec (.mfix a b c) s = .next u ∧ Queues s u (.mfix c i j ((s.g b).setWidth 32)) ∧
      i.val = ux (s.g a) % 32 ∧ j.val = ux (s.g a) / 32 % 32) ∧
    (s.latchOpen = .pass →
      (∃ u, exec (.mringLatch h) s = .next u ∧ Queues s u (.send (s.g h) none false)) ∧
      (∃ u, exec (.mringLatchPop h) s = .next u ∧ Queues s u (.send (s.g h) none true)) ∧
      (∃ u, exec .mringPop s = .next u ∧ Queues s u .pop))

/-- The M words with an operand take it as it stands at issue, hand its pane over as STAGED, and join the queue; the words that
write a pane hand it over as their destination (R179, R180, R182–R184). -/
def MatrixOperandWordsQueue : Prop :=
  ∀ (s : State) (a b d h : GReg) (c : Acc) (k : Bool) (x y : Operand) (l : List Operand) (off : Nat),
    s.operandAt (s.g a) = some x →
    (s.operandAt (s.g b) = some y →
      Passes s (s.unitCheck (interleave (s.operandChecks (s.g a)) (s.operandChecks (s.g b)))) →
      (∃ u, exec (.mma a b c k) s = .next u ∧ Queues s u (.mma false k c x y)) ∧
      (∃ u, exec (.mmat a b c k) s = .next u ∧ Queues s u (.mma true k c x y))) ∧
    (s.tile.matrix.latch = y :: l → Passes s (s.ringCheck (s.g a)) →
      (∃ u, exec (.mmaRing a c k) s = .next u ∧ Queues s u (.mma false k c x y)) ∧
      (∃ u, exec (.mmatRing a c k) s = .next u ∧ Queues s u (.mma true k c x y))) ∧
    (Passes s (s.unitCheck (interleave (s.operandChecks (s.g a)) [])) →
      ∃ u, exec (.mringSend a h) s = .next u ∧ Queues s u (.send (s.g h) (some x) false)) ∧
    (Passes s (s.unitCheck (s.latchOpen.sooner (interleave (s.operandChecks (s.g a)) []))) →
      ∃ u, exec (.mringSendPop a h) s = .next u ∧ Queues s u (.send (s.g h) (some x) true)) ∧
    (s.ownWindow .read (s.g a) = .ok (off, false) → off + 4096 ≤ 0x80000 →
      Passes s (s.unitCheck (s.wholePaneCheck .read (s.g a) 4096 4096)) →
      ∃ u, exec (.mldacc a c) s = .next u ∧ Queues s u (.mldacc c
        { fmt := .bf16, bytes := ownBytes s off 4096, poison := s.placeBad (.win s.cur off) 4096, pane := some (paneOf off),
          addr := s.g a })) ∧
    (s.ownWindow .write (s.g a) = .ok (off, false) → Passes s (s.unitCheck (s.wholePaneCheck .write (s.g a) 4096 4096)) →
      ∃ u, exec (.mstacc a c) s = .next u ∧ Queues s u (.mstacc c (paneOf off)) ∧
        u.tile.panes[paneOf off] = { s.tile.panes[paneOf off] with engine := true, handed := true }) ∧
    (s.ownWindow .write (s.g a) = .ok (off, false) → Passes s (s.unitCheck (s.wholePaneCheck .write (s.g a) 64 576)) →
      ∃ u, exec (.mchk a d c) s = .next u ∧ Queues s u (.mchk c (paneOf off) (off % 4096) s.fresh) ∧
        u.tile.panes[paneOf off] = { s.tile.panes[paneOf off] with engine := true, handed := true } ∧
        awaits s u { uid := s.fresh, dest := if d = 0 then .none else .g d, dest2 := .none, fmt := .word, need := 1, val := 0,
                     act := 0, flags := 0, fault := none, acq := false, rel := false, mem := false, ba := s.issue.ba })

/-- The unit is claimed and released, its status is read and its queue waited for; without the claim the other words raise
PERMISSION with TRAPVAL 0, unless their own checks stop them for a cause that stands before it in the order of R99 (R99, R172, R173,
R176, R185). -/
def MatrixUnitHeld : Prop :=
  ∀ (s : State) (d a b : GReg) (c : Acc) (k : Bool),
    (Performed s → Holds s → exec .mclaim s = .next s) ∧
    (Performed s → s.tile.matrix.holder = none → s.tile.matrix.clearing = false →
      exec .mclaim s = .next (s.modMatrix s.cur fun m => { m with holder := some (s.strand.owner, s.curK) })) ∧
    (Performed s → ¬ Holds s → exec .mrel s = .next s) ∧
    (Performed s → Holds s → s.tile.matrix.queue = [] → ∃ u, exec .mrel s = .next u ∧ u.tile.matrix.holder = none ∧
      u.tile.matrix.clearing = true ∧ (∀ x : Acc, u.tile.matrix.accs[x] = { work := AccBank.zero, vis := AccBank.zero }) ∧ SameMemory s u) ∧
    (Performed s → ∃ x, exec (.mstat d) s = .next (gives s d x 1) ∧ (s.tile.matrix.queue.length < 16 →
      (x.getLsbD 20 = true ↔ Holds s) ∧ (x.getLsbD 21 = true ↔ s.tile.matrix.holder ≠ none) ∧
      (Holds s → ux x / 2 ^ 4 % 16 = s.tile.matrix.queue.length))) ∧
    (Performed s → Holds s → (∀ w ∈ s.tile.matrix.queue, w.owner ≠ s.strand.owner) →
      s.issue.checked = true ∨ (∀ p ∈ s.ctx.pends, p.rel = false) → exec .mwait s = .next s) ∧
    (Unchecked s → ¬ Holds s →
      let one := interleave (s.operandChecks (s.g a)) []
      let two := interleave (s.operandChecks (s.g a)) (s.operandChecks (s.g b))
      ∀ p ∈ [(Instr.mma a b c k, two), (.mmat a b c k, two), (.mmaRing a c k, s.latchOpen.sooner one),
          (.mmatRing a c k, s.latchOpen.sooner one), (.mringSend a b, one), (.mringSendPop a b, s.latchOpen.sooner one),
          (.mldacc a c, s.wholePaneCheck .read (s.g a) 4096 4096), (.mstacc a c, s.wholePaneCheck .write (s.g a) 4096 4096),
          (.mchk a d c, s.wholePaneCheck .write (s.g a) 64 576), (.mringLatch b, s.latchOpen), (.mringLatchPop b, s.latchOpen),
          (.mringPop, s.latchOpen), (.mzero c, .pass), (.mswap c, .pass), (.mfix a b c, .pass), (.mwait, .pass)],
        exec p.1 s = .next (if p.2.order < 5 then s.stopBy p.2 else refusedBy s .permission 0))

/-- What a queued word does to the accumulators (R48, R180, R182): each product element is the exact sum of the old element and
the 32 products, rounded once; the visible and the working bank change places; an element is replaced; a bank is cleared, or
stored under a live key (R227). No other accumulator changes. -/
def MatrixWordsAct : Prop :=
  ∀ (s : State) (t : TileId) (w : MWord) (a : Acc),
    let m := s.tiles[t].matrix
    let u := s.performWord t w
    let others : Prop := ∀ c : Acc, c ≠ a → u.tiles[t].matrix.accs[c] = m.accs[c]
    (∀ trans chk x y, w.kind = .mma trans chk a x y → x.poison = false → y.poison = false → others ∧
      u.tiles[t].matrix.accs[a].vis = m.accs[a].vis ∧
      ∀ i j : Fin 32, ∀ e : Fin 1024, e.val = 32 * i.val + j.val →
        u.tiles[t].matrix.accs[a].work.m[e] = BitVec.ofNat 32 (exactSum (f32Num m.accs[a].work.m[e] ::
          (List.range 32).map fun k => Num.times (if trans then at2 x.elems k i.val else at2 x.elems i.val k)
            (at2 y.elems k j.val))).1) ∧
    (w.kind = .mzero a → others ∧ u.tiles[t].matrix.accs[a] = { m.accs[a] with work := AccBank.zero }) ∧
    (w.kind = .mswap a → others ∧ u.tiles[t].matrix.accs[a] = { work := m.accs[a].vis, vis := m.accs[a].work }) ∧
    (∀ i j x, w.kind = .mfix a i j x → others ∧ u.tiles[t].matrix.accs[a].work = m.accs[a].work ∧
      ∀ e : Fin 1024, u.tiles[t].matrix.accs[a].vis.m[e] =
        if e.val = 32 * i.val + j.val then x else m.accs[a].vis.m[e]) ∧
    (∀ o, w.kind = .mldacc a o → o.poison = false → others ∧ u.tiles[t].matrix.accs[a].work = m.accs[a].work ∧
      ∀ e : Fin 1024, u.tiles[t].matrix.accs[a].vis.m[e] =
        BitVec.ofNat 32 (valueOf ((List.range 4).map fun i => o.bytes.getD (4 * e.val + i) 0))) ∧
    (∀ p : Fin 128, w.kind = .mstacc a p → w.spoil = false →
      let key := s.keyOn w.seq (dieOf t)
      key.w ≠ 0 → u.tiles[t].matrix = m ∧
      (∀ key b, (∀ j < 4096, b ≠ storeKey t (4096 * p.val + j)) → u.byteAs key b = s.byteAs key b) ∧
      (key.w = key.k0 ∨ key.w = key.k1 → ∀ (e : Fin 1024) (j : Fin 4),
        u.byteAs key (storeKey t (4096 * p.val + 4 * e.val + j.val)) =
          (m.accs[a].vis.m[e]).extractLsb' (8 * j.val) 8))

/-- MATRIX_WORD_COMPLETE moves a queued word on. While it has operands to read it reads them first, and its panes are STAGED by it no
longer. Then it is performed, once no earlier word holds it back and it can complete, and leaves the queue; a word that must wait
stays. A send whose entry the injection queue does not take whole puts in as many words as there is room for. MATRIX_CLEAR_END ends the
clearing (R173, R175, R179, R205, R290, R291). -/
def MatrixSteps : Prop :=
  (∀ (s : State) (t : TileId) (n : Fin 8) (w : MWord),
    let m := s.tiles[t].matrix
    let q := m.queue
    let free : Prop := m.mayRead n.val w = false ∧ ∀ e ∈ q.take n.val, w.kind.after e.kind = false
    q[n.val]? = some w → s.still t = false →
    (m.mayRead n.val w = true → ∃ u, exec (.matrixWordComplete t n) s = .next u ∧
      u.tiles[t].matrix = { m with queue := q.modify n.val fun x => { x with read := true } } ∧
      (∀ p : Fin 128, p ∉ w.kind.staged → u.tiles[t].panes[p] = s.tiles[t].panes[p]) ∧
      (∀ p : Fin 128, w.kind.staged = [p] → (∀ k r, s.tiles[t].core.strandOf w.owner = some k →
          (s.strandAt t k).work = .rewrite r → p ∉ r.staged) →
        u.tiles[t].panes[p] = { s.tiles[t].panes[p] with staged := s.tiles[t].panes[p].staged - 1 }) ∧ SameMemory s u) ∧
    (free → s.wordReady t w = true → s.tiles[t].core.injArmed = false → (∀ k, m.holder ≠ some (0, k)) →
      ∃ u, exec (.matrixWordComplete t n) s = .next u ∧ u.tiles[t].matrix.queue = q.eraseIdx n.val ∧
        u.tiles[t].matrix.accs = (s.performWord t w).tiles[t].matrix.accs) ∧
    (m.mayRead n.val w = false → (∃ e ∈ q.take n.val, w.kind.after e.kind = true) →
      exec (.matrixWordComplete t n) s = .next s) ∧
    (free → s.wordReady t w = false → (∀ h src pop, w.kind ≠ .send h src pop) → exec (.matrixWordComplete t n) s = .next s) ∧
    (∀ h src pop c l, free → w.kind = .send h src pop → s.latchCircuit h t w.seq = some c → w.left = some l →
      0 < c.queueRoom → c.queueRoom < l.length → ∃ u, exec (.matrixWordComplete t n) s = .next u ∧
        u.tiles[t].matrix = { m with queue := q.modify n.val fun x => { x with left := some (l.drop c.queueRoom) } })) ∧
  (∀ (s : State) (t : TileId),
    exec (.matrixClearEnd t) s = .next (s.modMatrix t fun m => { m with clearing := false }))

end Sys2Proof.Claims

/-- The words of the matrix unit: how they issue, and that they are refused without the claim (R99, R172–R185). -/
def Obligations.MatrixWords : Prop := MatrixWordsQueue ∧ MatrixOperandWordsQueue ∧ MatrixUnitHeld

/-- What the queued words of the matrix unit do, and the steps that perform them (R48, R173, R175, R179, R180, R182, R205, R227, R290,
R291). -/
def Obligations.MatrixWordsPerformed : Prop := MatrixWordsAct ∧ MatrixSteps

/-! ### Copy words -/

namespace Sys2Proof.Claims

/-- A command joins a channel's queue and the strand's open batch; the strand's earlier memory words come before it; no other
channel, no register and no byte changes (R190, R191). -/
def Commands (s u : State) (c : ChanId) (kind : CmdKind) (step : CmdStep) : Prop :=
  (∃ m, u.tile.chans[c].queue = s.tile.chans[c].queue ++ [m] ∧ m.kind = kind ∧ m.step = step ∧ m.seq = s.q ∧
    m.owner = s.strand.owner ∧ m.batch = s.ctx.batchnow ∧ m.after = (s.ctx.pends.filter (·.mem)).map (·.uid)) ∧
  (∀ x : ChanId, x ≠ c → u.tile.chans[x] = s.tile.chans[x]) ∧ u.ctx = s.ctx.join ∧ SameMemory s u

/-- The register n after another; the words that read it name one below the last (R194). -/
def after_ (r : GReg) (n : Nat) : GReg := ⟨(r.val + n) % 64, Nat.mod_lt _ (by decide)⟩

end Sys2Proof.Claims

/-- The copy words queue their commands with their operands as they stand (R190, R193–R195); in a rewrite they are ILLEGAL_OP, and
CPY and CHAIN refuse addresses that are not 64-byte aligned (R188, R194). -/
def Obligations.CopyCommandsQueue : Prop :=
  ∀ (s : State) (a b : GReg) (l : BitVec 6) (x : XPose) (c : ChanId),
    let len := 64 * (l.toNat + 1)
    let shape : W := BitVec.ofNat 64 ((len - 1) * 2 ^ 12 + len * 2 ^ 24 + len * 2 ^ 44)
    let b1 := s.g (after_ b 1)
    let b2 := s.g (after_ b 2)
    (Passes s (s.singleCheck c (singleRec .copy .none (s.g b) (s.g a) shape 0) (unaligned64 [s.g a, s.g b])) →
      ∃ u, exec (.cpy a b l c) s = .next u ∧ Commands s u c (.single .copy .none (s.g b) (s.g a) shape 0) .rows) ∧
    (b.val < 63 → Passes s (s.singleCheck c (singleRec .copy x (s.g b) (s.g a) b1 0)
        (singleRec .copy x (s.g b) (s.g a) b1 0).misaligned) →
      ∃ u, exec (.cpys a b x c) s = .next u ∧ Commands s u c (.single .copy x (s.g b) (s.g a) b1 0) .rows) ∧
    (b.val < 62 → Passes s (s.singleCheck c (singleRec .gather .none (s.g b) (s.g a) b1 b2)
        (singleRec .gather .none (s.g b) (s.g a) b1 b2).misaligned) →
      ∃ u, exec (.cgath a b c) s = .next u ∧ Commands s u c (.single .gather .none (s.g b) (s.g a) b1 b2) .rows) ∧
    (b.val < 62 → Passes s (s.singleCheck c (singleRec .scatter .none (s.g b) (s.g a) b1 b2)
        (singleRec .scatter .none (s.g b) (s.g a) b1 b2).misaligned) →
      ∃ u, exec (.cscat a b c) s = .next u ∧ Commands s u c (.single .scatter .none (s.g b) (s.g a) b1 b2) .rows) ∧
    (Performed s → s.issue.checked = true ∨
        (s.rewriting = none ∧ ux (s.g a) % 64 = 0 ∧ s.tile.chans[c].queue.length < 16) →
      ∃ u, exec (.chain a c) s = .next u ∧ Commands s u c (.chain (s.g a)) .fetch) ∧
    (Unchecked s → s.rewriting.isSome → ∀ i ∈ [Instr.cpy a b l c, .cpys a b x c, .cgath a b c, .cscat a b c, .chain a c,
        .cseal a, .cwait 0, .cstat a true c, .cstat a false c, .ccancel c],
      exec i s = .next (refusedBy s .illegalOp (wordVal s))) ∧
    (Unchecked s → s.rewriting = none → ux (s.g a) % 64 ≠ 0 → ∀ i ∈ [Instr.cpy a b l c, .chain a c],
      exec i s = .next (refusedBy s .misalign (s.g a)))

namespace Sys2Proof.Claims

/-- CSEAL seals the open batch and opens the next; CWAIT goes on with at most n batches unfinished, and a fault that it reports is
due at the next boundary; CSTAT gives the status or the last record, and its read of the status forgets the cause; CCANCEL takes
the sequence's waiting commands out of the channel and stops the running one (R191, R192, R201, R202). -/
def BatchWords : Prop :=
  ∀ (s : State) (d : GReg) (n : Fin 16) (c : ChanId), Performed s → s.issue.checked = true →
    (∃ u, exec (.cseal d) s = .next u ∧ u.ctx.batchnow = s.ctx.batchnow + 1 ∧
      (d ≠ 0 → ordinary s (.g d) (s.ctx.batchnow.setWidth 1024) 1 ∈ u.ctx.inflight) ∧
      ∀ x ∈ u.ctx.batches, x.num = s.ctx.batchnow → x.sealed = true) ∧
    (∃ u, exec (.cwait n) s = .next u ∧ u.ctx.regs = s.ctx.regs ∧ SameMemory s u ∧
      (s.ctx.reportable = none → u.ctx.due = s.ctx.due) ∧
      (∀ b k cause v, s.ctx.reportable = some b → b.fault = some (k, cause, v) →
        u.ctx.due = s.ctx.due ++ [{ cause := cause, val := v, mask := some 0 }])) ∧
    exec (.cstat d true c) s =
      .next (gives s d (((s.tile.chans[c].lastRec.find? fun y => y.1 == s.q).map (·.2)).getD 0) 1) ∧
    exec (.cstat d false c) s = .next ((gives s d (s.tile.chans[c].status s.q) 1).modChan s.cur c fun y =>
      { y with lastCause := y.lastCause.filter fun z => z.1 != s.q }) ∧
    (∃ u, exec (.ccancel c) s = .next u ∧ (s.tile.chans[c].queue = [] → u = s) ∧
      ∀ m rest, s.tile.chans[c].queue = m :: rest → m.seq = s.q → s.tile.chans[c].state = .run →
        u.tile.chans[c].state = .cancel ∧ ∀ x ∈ u.tile.chans[c].queue.tail, x.seq ≠ s.q)

/-- TRANSFER_RECORD lets the running command of a channel go on by one step, and CHAIN_OWN_POLL reads a record that is waited for
again; a channel that waits, or has nothing, does not move (R196, R197). -/
def CopySteps : Prop :=
  ∀ (s : State) (t : TileId) (c : ChanId),
    let x := s.tiles[t].chans[c]
    (x.queue = [] → exec (.transferRecord t c) s = .next s ∧ exec (.chainOwnPoll t c) s = .next s) ∧
    (∀ m l, x.queue = m :: l → s.still t = false → m.parked = false →
      (x.state ≠ .waitOwn → s.cmdReady t m = true → exec (.transferRecord t c) s = .next (s.engineStep t c m)) ∧
      (x.state = .waitOwn → exec (.transferRecord t c) s = .next s ∧
        exec (.chainOwnPoll t c) s = .next (s.engineStep t c m)) ∧
      (x.state ≠ .waitOwn → exec (.chainOwnPoll t c) s = .next s))

/-- One row of a copy between two places of tile stores that its channel reaches: the row's bytes are those of its source, every
other byte stays, and the next row follows (R196). -/
def CopyRow : Prop :=
  ∀ (s : State) (t : TileId) (c : ChanId) (m : Cmd) (a b n : Nat),
    let r := m.rec_
    let src := strided r.src m.row r.sstride
    let dst := strided r.dst m.row r.dstride
    m.step = .rows → m.cancel = false → 0 < m.row → m.row < r.rows → r.op = 0 → r.xp = 0 → r.arrive = false → r.rowb = n →
    a + n ≤ 0x80000 → b + n ≤ 0x80000 → n ≤ 64 →
    s.engineXlates t c m .read (piecesOf src n) = (s, .ok [(.win t a, n, src)]) →
    s.engineXlates t c m .write (piecesOf dst n) = (s, .ok [(.win t b, n, dst)]) →
    s.pieceStop m.seq true (.win t a) n src = none → s.pieceStop m.seq true (.win t b) n dst = none →
    s.enginePoison [(.win t a, n, src)] = none →
    let v := s.engineStep t c m
    let key := s.keyOn m.seq (dieOf t)
    (∀ k x, (∀ j < n, x ≠ storeKey t (b + j)) → v.byteAs k x = s.byteAs k x) ∧
    (key.w ≠ 0 → key.w = key.k0 ∨ key.w = key.k1 →
      ∀ j < n, v.byteAs key (storeKey t (b + j)) = s.byteAs key (storeKey t (a + j))) ∧
    (m ∈ s.tiles[t].chans[c].queue → ∃ y ∈ v.tiles[t].chans[c].queue, y.uid = m.uid ∧ y.row = m.row + 1)

end Sys2Proof.Claims

/-- Batches, status and cancellation of copy work, and the steps of its engine (R191, R192, R196, R197, R201, R202). -/
def Obligations.CopyWork : Prop := BatchWords ∧ CopySteps ∧ CopyRow

/-! ### Circuits -/

namespace Sys2Proof.Claims

/-- A request joins the queue of the Meridian of the strand's die and the strand's open batch (R203, R237). -/
def Requests (s u : State) (req : MeridianReq) (reply : Option W) : Prop :=
  (∃ m, u.dies[dieOf s.cur].meridian = s.dies[dieOf s.cur].meridian ++ [m] ∧ m.req = req ∧ m.reply = reply ∧
    m.tile = s.cur ∧ m.seq = s.q ∧ m.owner = s.strand.owner ∧ m.batch = s.ctx.batchnow) ∧
  u.ctx = s.ctx.join ∧ u.circuits = s.circuits ∧ SameMemory s u

/-- A circuit whose handle a register holds, the only one with that handle. -/
def Names (s : State) (g : W) (c : Circuit) : Prop :=
  c.handle = g.setWidth 32 ∧ ∃ l r, s.circuits = l ++ c :: r ∧ ∀ x ∈ l ++ r, x.handle ≠ c.handle

/-- CIRQ, CIRZ and CIRX send their requests; CSEND puts its words into the injection queue and spends as many credits; CRECV waits
for its words; a handle that names no circuit of the strand raises CIRCUIT (R203–R206). -/
def CircuitWords : Prop :=
  ∀ (s : State) (a b h : GReg) (n : BitVec 6) (v : VReg) (m : Fin 4),
    (Performed s → s.issue.checked = true →
      (∃ u, exec (.cirq a b) s = .next u ∧ Requests s u (.open_ (s.g a)) (some (s.g b))) ∧
      (∃ u, exec (.cirz a h n) s = .next u ∧ Requests s u (.resize ((s.g h).setWidth 32) n) (some (s.g a))) ∧
      (∃ u, exec (.cirx a h) s = .next u ∧
        Requests s u (.close ((s.g h).setWidth 32)) (if a = 0 then none else some (s.g a))) ∧
      (∀ c, Names s (s.g h) c →
        (∃ u c', exec (.csend h v m) s = .next u ∧ Names u (s.g h) c' ∧ c'.credits = c.credits - (m.val + 1) ∧
          c'.queue.length = c.queue.length + m.val + 1 ∧ (∀ i ≤ m.val, (c'.queue[c.queue.length + i]?).map (·.word) =
            some ((s.v v).extractLsb' (256 * i) 256)) ∧ c'.queue.take c.queue.length = c.queue ∧ c'.wire = c.wire ∧
          SameMemory s u) ∧
        (c.waiters = [] → c.landed < c.read + (m.val + 1) → ∃ u c', exec (.crecv h v m) s = .next u ∧ Names u (s.g h) c' ∧
          c'.waiters = [(s.strand.owner, s.fresh, m.val + 1)] ∧ c'.read = c.read ∧ SameMemory s u ∧
          awaits s u { uid := s.fresh, dest := .v v, dest2 := .none, fmt := .word, need := 1, val := 0, act := 0, flags := 0,
                       fault := none, acq := false, rel := false, mem := true, ba := s.issue.ba }))) ∧
    (Unchecked s → s.rewriting = none → (∀ c ∈ s.circuits, c.handle ≠ (s.g h).setWidth 32) →
      let bad := refusedBy s .circuit (((s.g h).setWidth 32).setWidth 64)
      exec (.csend h v m) s = .next bad ∧ exec (.crecv h v m) s = .next bad ∧
      (ux (s.g a) % 64 = 0 → exec (.cirx a h) s = .next bad ∧ (n ≠ 0 → exec (.cirz a h n) s = .next bad)))

/-- Words on a circuit: one leaves in a slot that the circuit owns, not before R232 allows, and lands D slots later where the slot tables
bring it to the circuit's end; a router that discards it counts a misroute; landing in a ring it is the ring's next 32 bytes, and the
count of landed words rises; on a latch its last word makes an entry (R232, R234, R241, R242, R293). -/
def CircuitWordsTravel : Prop :=
  ∀ (s : State) (h : BitVec 32) (c : Circuit), s.circuit h = some c →
    (∀ q rest t, c.queue = q :: rest → s.mayInject c = true →
      (let first := Max.max s.domain.sid (Max.max (Max.max (q.entered + 2) (c.lastLeft + 1)) c.live)
       c.departure s.domain.wheel first (2 * s.domain.wheel + (c.sets.getLast?).elim 0 (·.1)) = some t →
       first ≤ t ∧ t % s.domain.wheel ∈ c.slotsAt t ∧
       ∃ u c', exec (.circuitWordInject h) s = .next u ∧ u.domain.sid = t ∧ SameMemory s u ∧ u.circuit h = some c' ∧
        c'.queue = rest ∧ c'.lastLeft = t ∧
        c'.wire = (if (s.sendAlong c t).1 then c.wire ++ [{ word := q.word, lands := t + c.delay, done := q.done }] else c.wire) ∧
        ∀ v : TileId, u.tiles[v].misroutes = s.tiles[v].misroutes + (s.sendAlong c t).2.count v)) ∧
    (c.queue = [] → exec (.circuitWordInject h) s = .next s) ∧
    (c.entryDue = false → exec (.circuitWordLand h) s = .next (s.landWord c) ∧ exec (.latchEntryLand h) s = .next s) ∧
    (c.entryDue = true → exec (.latchEntryLand h) s = .next (s.landWord c) ∧ exec (.circuitWordLand h) s = .next s) ∧
    (∀ x rest, c.wire = x :: rest → c.peer = none → c.latch = false → c.barrier = none → x.done = none → c.waiters = [] →
      (s.eventOwners c.dst (some c.seq)) = [] →
      let u := s.landWord c
      let off := 4096 * c.ringPane.val + 32 * c.landed % (4096 * c.ringPanes)
      let key := s.keyOn c.seq (dieOf c.dst)
      x.lands ≤ u.domain.sid ∧ (∃ c', u.circuit h = some c' ∧ c'.landed = c.landed + 1 ∧ c'.wire = rest) ∧
      (∀ k a, (∀ j < 32, a ≠ storeKey c.dst (off + j)) → u.byteAs k a = s.byteAs k a) ∧
      (key.w ≠ 0 → key.w = key.k0 ∨ key.w = key.k1 → ∀ j < 32,
        u.byteAs key (storeKey c.dst (off + j)) = x.word.extractLsb' (8 * j) 8)) ∧
    (∀ x rest f, c.wire = x :: rest → c.peer = none → c.latch = true → c.failed = false → x.done = none → c.incoming ≠ [] →
      entryOf (c.incoming ++ [x.word]) = some f →
      (s.landWord c).tiles[c.dst].matrix.latch = s.tiles[c.dst].matrix.latch ++ [f])

/-- The Meridian's steps: a request that stands first is handled, by its kind; a record that is judged and granted opens a circuit
over the slots granted, its words in them; a failure is answered with its STATUS; what would run through a die with a transplant under
way is held (R237, R248–R255). -/
def MeridianSteps : Prop :=
  ∀ (s : State) (d : DieId),
    (s.meridianHead d = none → exec (.cirqRequest d) s = .next s ∧ exec (.cirzRequest d) s = .next s ∧
      exec (.cirxRequest d) s = .next s) ∧
    (∀ m, s.meridianHead d = some m →
      (∀ va pl rp f a b, m.req = .open_ va → s.meridianXlate d m .read va = (a, .ok pl) → a.placeBad pl 64 = false →
        a.replyPlace d m = (b, .ok (rp, f)) →
        let r := circRec (b.readWords m.seq pl 8)
        (∀ st, b.judge m.seq r = .error st →
          exec (.cirqRequest d) s = .next (b.meridianEnd d m rp f (failWords st))) ∧
        (∀ p l pane bar, b.judge m.seq r = .ok (p, l, pane, bar) → exec (.cirqRequest d) s =
          .next (if b.pathHeld (tileRoute r.src) p then b else b.grant d m r rp f p l pane bar))) ∧
      (∀ h n rp f b, m.req = .resize h n → s.replyPlace d m = (b, .ok (rp, f)) →
        (b.circuit h = none → exec (.cirzRequest d) s = .next (b.meridianEnd d m rp f (failWords 0x08))) ∧
        (∀ c new, b.circuit h = some c → c.closing = false → b.pathHeld c.route c.path = false →
          b.resized c n.toNat = .ok new → new.length ≠ c.lastSet.length → exec (.cirzRequest d) s =
            .next ((b.resize c new (b.liveFor c 0)).meridianEnd d m rp f (c.words new (b.liveFor c 0))))) ∧
      (∀ h rp f b, m.req = .close h → s.replyPlace d m = (b, .ok (rp, f)) →
        (b.circuit h = none → exec (.cirxRequest d) s = .next (b.meridianEnd d m rp f (failWords 0x08))) ∧
        (∀ c, b.circuit h = some c → c.closing = false → b.pathHeld c.route c.path = false →
          ∃ u c', exec (.cirxRequest d) s = .next u ∧ u.circuit h = some c' ∧
          c'.closing = true ∧ c'.closeAt = s.domain.sid ∧ c'.queue = c.queue ∧ SameMemory b u)))

/-- A circuit that closes is gone once its words have landed, with its table entries and its landing point; configuration words go
down the tree by levels and are acted on in their routers; the table writes of one time are applied together (R245, R246,
R254). -/
def CircuitTables : Prop :=
  ∀ (s : State) (h : BitVec 32) (n : Nat),
    (∀ c, s.circuit h = some c → c.closing = true → c.queue = [] → c.wire = [] → ∃ u, exec (.circuitCloseEnd h) s = .next u ∧
      (∀ x ∈ u.circuits, x.handle ≠ h) ∧ c.lastLeft + c.delay + 1 ≤ u.domain.sid) ∧
    (∀ c, s.circuit h = some c → c.closing = false → exec (.circuitCloseEnd h) s = .next s) ∧
    (∀ w, s.config[n]? = some w →
      (w.levels = 0 → exec (.configWord n) s =
        .next (({ s.until w.next with config := s.config.filter fun x => x.uid != w.uid } : State).configAct w.target w.body)) ∧
      (w.levels ≠ 0 → ∃ u, exec (.configWord n) s = .next u ∧ u.config = s.config.map fun x =>
        if x.uid = w.uid then { x with levels := x.levels - 1, next := x.next + s.domain.wheel } else x)) ∧
    (s.pending = [] → exec .slotTableActivation s = .next s) ∧
    (s.pending ≠ [] → ∃ t u, exec .slotTableActivation s = .next u ∧ (∃ w ∈ s.pending, w.at_ = t) ∧
      (∀ w ∈ s.pending, t ≤ w.at_) ∧ u.pending = (s.pending.filter fun x => x.at_ != t) ∧ t ≤ u.domain.sid ∧
      u.tables = (s.pending.filter fun x => x.at_ == t).foldl (fun a x => putEntry a x.entry) s.tables)

end Sys2Proof.Claims

/-- The circuit words, and the steps by which circuits are opened, carry words and are closed (R203–R206, R232–R255, R293). -/
def Obligations.CircuitWordsAndSteps : Prop :=
  CircuitWords ∧ CircuitWordsTravel ∧ MeridianSteps ∧ CircuitTables

/-! ### Messages and nets -/

/-- MSEND sends its bytes to a tile of the partition, or puts them into the commit buffer of a rewrite; a tile outside raises
PERMISSION; MRECV is marked until a message has come; MPOLL counts the messages that wait (R207–R209, R258). -/
def Obligations.MessageWords : Prop :=
  ∀ (s : State) (d a : GReg) (v : VReg) (l : Fin 64),
    let dst : TileId := ⟨ux (s.g a) % 1024, Nat.mod_lt _ (by decide)⟩
    let tag : BitVec 16 := BitVec.ofNat 16 (ux (s.g a) / 2 ^ 16)
    let data : BitVec 512 := BitVec.ofNat 512 ((s.v v).toNat % 2 ^ (8 * (l.val + 1)))
    (Performed s → s.issue.checked = true ∨ (s.inPart (partOf s.q) dst = true ∧ s.hopTo s.cur dst ≠ 0 ∧
        s.outgoing s.cur < 16 ∧ s.hopsPending s.cur = false) →
      ∃ u, exec (.msend a v l) s = .next u ∧ SameMemory s u ∧
        (s.rewriting = none → sends s u dst (.msg s.q s.strand.owner s.fresh tag (l.val + 1) data)
          ((s.ctx.pends.filter (·.mem)).map fun p => (s.strand.owner, p.uid))) ∧
        (∀ r, s.rewriting = some r → r.buf.length < 128 → Commits s u (.send dst tag (l.val + 1) data))) ∧
    (Unchecked s → s.inPart (partOf s.q) dst = false → exec (.msend a v l) s = .next (refusedBy s .permission (s.g a))) ∧
    (Performed s → s.issue.checked = true ∨ (s.rewriting = none ∧ ∀ p ∈ s.ctx.pends, p.acq = false ∧ p.rel = false) →
      s.waiting s.cur s.q = 0 →
      ∃ u, exec (.mrecv d v) s = .next u ∧ SameMemory s u ∧
        awaits s u { uid := s.fresh, dest := if d = 0 then .none else .g d, dest2 := .v v, fmt := .message, need := 1, val := 0,
                     act := 0, flags := 0, fault := none, acq := true, rel := false, mem := true, ba := s.issue.ba }) ∧
    (Performed s → exec (.mpoll d) s = .next (gives s d (BitVec.ofNat 64 (s.waiting s.cur s.q)) 1))

namespace Sys2Proof.Claims

/-- The net words of a rewrite, each an entry of its commit buffer (R137, R215–R220). -/
def NetWordsBuffered : Prop :=
  ∀ (s : State) (d n m h : GReg) (r q p : Fin 4) (w : Rewrite), s.rewriting = some w → w.buf.length < 128 →
    Performed s → s.issue.checked = true →
    (∃ u, exec (.nfree n) s = .next u ∧ Commits s u (.free (s.g n)) ∧ SameMemory s u) ∧
    (∃ u, exec (.nlink n m r q p) s = .next u ∧ SameMemory s u ∧ Commits s u (.link (.port (lineOf (s.g n)) p)
      (if m = 0 then .free q else .port (lineOf (s.g m)) q) r)) ∧
    (∃ u, exec (.npush n m r) s = .next u ∧ Commits s u (.push (s.g n) (s.g m) r) ∧ SameMemory s u) ∧
    (∃ u, exec (.spawn n m) s = .next u ∧ Commits s u (.spawn (ux (s.g n)) (s.g m)) ∧ SameMemory s u) ∧
    (∀ s1 node addr, s.takeNode s.q s.cur (s.g h) = some (s1, node, addr) →
      ∃ u, exec (.nalloc d h) s = .next u ∧ Commits s u (.init node (hdrInit (s.g h)) addr) ∧
        ∃ x ∈ u.ctx.inflight, x.dest = (if d = 0 then .none else .g d) ∧ x.val = node.setWidth 1024)

/-- The net words of a thread act at once where the node is homed on its tile and nothing is to be waited for, neither an earlier
operation nor a line that does not stand at its home, and send their act to the home otherwise (R212, R215–R219, R276). -/
def NetWordsOfThreads : Prop :=
  ∀ (s : State) (d n m : GReg) (r q p : Fin 4), s.rewriting = none → Performed s → s.issue.checked = true →
    (∀ x ∈ s.ctx.pends, x.mem = false ∧ x.acq = false) →
    let touched := s.touch (s.g n)
    let home (l : BitVec 50) : TileId := s.homeOf s.q s.cur l
    let reads := touched.homeOf s.q s.cur (lineOf (s.g n))
    let ln := lineOf (s.g n)
    let low := if m ≠ 0 ∧ (lineOf (s.g m)).toNat < ln.toNat then lineOf (s.g m) else ln
    let b := if m = 0 then WireEnd.free q else .port (lineOf (s.g m)) q
    let acts (i : Instr) (at_ : TileId) (op : NetOp) : Prop := ∃ u, exec i s = .next u ∧
      let spans := touched.netSpans s.q s.cur op
      (at_ = s.cur → touched.absent spans = [] → u = ((touched.useLines spans).doNetop s.cur s.q op).1) ∧
      (at_ ≠ s.cur ∨ touched.absent spans ≠ [] → sends s u at_ (.netop op s.q s.strand.owner s.fresh) [] ∧ SameMemory s u)
    acts (.nfree n) (home ln) (.free (s.g n)) ∧
    acts (.nlink n m r q p) (home low) (.link (.port ln p) b r) ∧
    (∃ u e, exec (.npush n m r) s = .next u ∧ e.seq = s.q ∧ e.pri = r ∧
      ((e.lineA = ln ∧ e.lineB = lineOf (s.g m)) ∨ (e.lineA = lineOf (s.g m) ∧ e.lineB = ln)) ∧
      (s.homeOf s.q s.cur e.lineA = s.cur → u = s.pushPair s.cur e []) ∧
      (s.homeOf s.q s.cur e.lineA ≠ s.cur →
        sends s u (s.homeOf s.q s.cur e.lineA) (.pair (s.typed s.cur e) false (s.strand.owner, s.fresh)) [] ∧
          SameMemory s u)) ∧
    exec (.spawn n m) s = .next (s.spawnAt s.cur s.q (ux (s.g n)) (s.g m) s.strand.pri) ∧
    (∀ hdr, ∃ u, exec (.nport d n hdr p) s = .next u ∧ SameMemory s u ∧
      let span := touched.nodeSpan s.q s.cur ln
      (reads ≠ s.cur ∨ touched.absent span ≠ [] →
        sends s u reads (.netop (.port (s.g n) p hdr) s.q s.strand.owner s.fresh) []) ∧
      (reads = s.cur → touched.absent span = [] → ∀ x, (touched.useLines span).portRead s.q s.cur (s.g n) p hdr = (x, none) →
        u = flying (touched.useLines span) (ordinary s (if d = 0 then .none else .g d) (x.setWidth 1024) 1))) ∧
    (s.takeNode s.q s.cur (s.g m) = none → exec (.nalloc d m) s =
      .next (flying s (ordinary s (if d = 0 then .none else .g d) 0 1))) ∧
    (∀ s1 node addr, s.takeNode s.q s.cur (s.g m) = some (s1, node, addr) → ∃ u, exec (.nalloc d m) s = .next u ∧
      let op := NetOp.init node (hdrInit (s.g m)) addr
      (s1.absent (s1.netSpans s.q s.cur op) = [] → u.ctx.inflight = s.ctx.inflight ++
        (if d = 0 then [] else [ordinary s (.g d) (node.setWidth 1024) 1])) ∧
      (s1.absent (s1.netSpans s.q s.cur op) ≠ [] → sends s u s.cur (.netop op s.q s.strand.owner s.fresh) [] ∧ SameMemory s u))

/-- The ends of a rewrite: RCOMMIT performs its commit where nothing is waited for, and waits otherwise; RABORT discards it, its
pair to run again or to be dropped; outside a rewrite both are ILLEGAL_OP (R212, R221, R222). -/
def RewriteEnds : Prop :=
  ∀ (s : State) (x : Bool),
    (∀ r, s.rewriting = some r → Performed s →
      (s.commitReady s.cur s.curK r = true → exec .rcommit s = .next ((s.endCommit s.cur s.curK r).atEnd)) ∧
      (s.commitReady s.cur s.curK r = false → ∃ u, exec .rcommit s = .next u ∧ SameMemory s u ∧
        u.rewriting = some { r with committing := true } ∧ u.issue.atEnd = true) ∧
      exec (.rabort x) s =
        .next (((s.discard s.cur s.curK r (if x then .drop else .again)).switchEvent s.cur).atEnd)) ∧
    (s.rewriting = none → Unchecked s →
      exec .rcommit s = .next (refusedBy s .illegalOp (wordVal s)) ∧
      exec (.rabort x) s = .next (refusedBy s .illegalOp (wordVal s)))

end Sys2Proof.Claims

/-- The net words, of a rewrite and of a thread, and the ends of a rewrite (R211–R222, R276). -/
def Obligations.NetWordsAndRewriteEnds : Prop := NetWordsBuffered ∧ NetWordsOfThreads ∧ RewriteEnds

/-! ### Relay messages -/

namespace Sys2Proof.Claims

/-- Message m, the n-th in flight, has been sent and not dropped, and its way takes it: the tables of its tile are written, and every
interface on the way is its partition's (R257–R259). -/
def OnItsWay (s : State) (n : Nat) (m : Msg) : Prop :=
  s.relay[n]? = some m ∧ (s.relay.find? fun x => x.uid == m.uid) = some m ∧ m.served = false ∧ m.arrived = none ∧
  m.launched = true ∧ m.lost = false ∧ s.hopsPending m.src = false ∧ s.passes m = true

/-- Message m, the n-th in flight, is the next of its pair and stands at its destination. -/
def Comes (s : State) (n : Nat) (m : Msg) : Prop := OnItsWay s n m ∧ m.seqno = s.recvCount m.src m.dst

/-- The event that is the arrival of the n-th message, which carries a body. -/
def ArrivalOf (n : Nat) (b : Body) (e : Instr) : Prop :=
  match b with
  | .read _ => e = .readreq n
  | .readRsp .. => e = .readrsp n
  | .write .. => e = .write n
  | .amo .. => e = .amoreq n
  | .amoRsp .. => e = .amorsp n
  | .pair .. => e = .pairpush n
  | .netop .. => e = .netop n
  | .netrsp .. => e = .netrsp n
  | .borrow => e = .borrow n
  | .msg .. => e = .msg n
  | .creditWords .. | .creditSeq _ => e = .credit n
  | .ack _ => e = .ack n
  | .recall _ => e = .recall n
  | .slice .. => e = .sliceArrival n

/-- What the acceptance of a message does (R136, R259): the receive count of its pair rises by one and no other count changes, the message
is marked, an ACK with its number is on its way back, and no tile changes but for the contention counters of a request's sender. -/
def Acceptance : Prop :=
  ∀ (s : State) (m : Msg), let u := s.accept m
    u.recvCount m.src m.dst = s.recvCount m.src m.dst + 1 ∧
    (∀ a b, (a, b) ≠ (m.src, m.dst) → u.recvCount a b = s.recvCount a b) ∧ u.sent = s.sent ∧ u.mem = s.mem ∧
    (∀ t : TileId, ∃ p, u.tiles[t] = { s.tiles[t] with predictor := p } ∧
      (t ≠ m.src ∨ m.body.req = none → p = s.tiles[t].predictor)) ∧
    ∃ k, u.relay = (s.relay.map fun x => if x.uid = m.uid then { x with arrived := some s.fresh, held := false } else x) ++ [k] ∧
      k.src = m.dst ∧ k.dst = m.src ∧ k.part = m.part ∧ k.body = .ack m.seqno ∧ k.arrived = none ∧ k.launched = true

/-- Messages that are not accepted. One that has not been sent, or has been dropped, does not come, nor one whose tile's next-hop words
are still on the tree; one that an interface on its way refuses, or that fails its CRC, is dropped there and counted; one ahead of its pair's count is held,
up to eight of a source, and dropped beyond them; each is sent again later (R257–R259). -/
def Strays : Prop :=
  ∀ (s : State) (n : Nat) (m : Msg) (e : Instr), s.relay[n]? = some m → (s.relay.find? fun x => x.uid == m.uid) = some m →
    m.served = false → m.arrived = none → m.body.isAck = false → ArrivalOf n m.body e →
    let marks (f : Msg → Msg) (drops : Nat) : Prop := ∃ u, exec e s = .next u ∧ u.drops = s.drops + drops ∧ u.tiles = s.tiles ∧
      u.mem = s.mem ∧ u.received = s.received ∧ u.relay = s.relay.map fun x => if x.uid = m.uid then f x else x
    (m.launched = false ∨ m.lost = true → exec e s = .next s) ∧
    (m.launched = true → m.lost = false → (∀ r i d k, m.body ≠ .slice r i d k) →
      (s.hopsPending m.src = true → exec e s = .next s) ∧ (m.struck = true → s.passes m = false) ∧
      (s.hopsPending m.src = false → s.passes m = false → marks (fun x => { x with lost := true, held := false }) 1)) ∧
    (OnItsWay s n m → m.seqno ≠ s.recvCount m.src m.dst →
      (m.held = true → exec e s = .next s) ∧
      (m.held = false → s.heldAhead m < 8 → marks (fun x => { x with held := true }) 0) ∧
      (m.held = false → 8 ≤ s.heldAhead m → marks (fun x => { x with lost := true, held := false }) 0))

/-- A request served where it has arrived: performed, held, or refused with a cause. -/
def Answers (m : Msg) (v : Serve) (go : State → State) (no : Cause → State) (o : Host.Outcome State Fault Refusal) : Prop :=
  (∀ x, v = .go x → o = .next ((go x).finishMsg m.uid)) ∧ (∀ x, v = .hold x → o = .next x) ∧
  (∀ c, v = .refuse c → o = .next ((no c).finishMsg m.uid))

/-- READREQ, WRITE and AMOREQ (R126, R134, R257) at message m, already accepted, in state x: a read answers with the bytes, those of the
reader's own buffer over them, or POISON; a write stores; an atomic stores its new value and answers with the old one. -/
def RequestServed (x : State) (m : Msg) (o : Host.Outcome State Fault Refusal) : Prop :=
  (∀ r, m.body = .read r → Answers m (x.ready m r false false)
    (fun y => (y.correct r.pl r.n).send m.dst r.tile m.part (.readRsp r (y.readThrough (.seq r.seq) r.pl r.n r.fwd)
      (if y.placeBad r.pl r.n then some .poison else none)) [])
    (fun c => x.send m.dst r.tile m.part (.readRsp r [] (some c)) []) o) ∧
  (∀ r w, m.body = .write r w → Answers m (x.ready m r true false)
    (fun y => (y.writeNum (.seq r.seq) r.pl r.n w.toNat).answer r.tile r.owner r.pend 0 0 0 none)
    (fun c => if r.owner = 0 then x.faultEvent r.tile 0 r.seq 1 c.code
      else x.answer r.tile r.owner r.pend 0 0 0 (some (c, r.va))) o) ∧
  (∀ r op w c, m.body = .amo r op w c → r.owner ≠ 0 → Answers m (x.ready m r true true)
    (fun y =>
      let old := BitVec.ofNat 64 (y.readNum (.seq r.seq) r.pl r.n)
      let v := amoValue op (r.n == 8) old w c
      let z := match v.1 with
        | some a => y.writeNum (.seq r.seq) r.pl r.n a.toNat
        | none => y
      if y.placeBad r.pl r.n then y.send m.dst r.tile m.part (.amoRsp r 0 0 (some .poison)) []
      else z.send m.dst r.tile m.part (.amoRsp r old v.2 none) [])
    (fun e => x.send m.dst r.tile m.part (.amoRsp r 0 0 (some e)) []) o)

/-- Requests to memory: accepted first and then served, in the order of arrival; held ones are tried again. -/
def RequestsArrive : Prop :=
  ∀ (s : State) (n : Nat) (m : Msg) (e : Instr), ArrivalOf n m.body e →
    (Comes s n m → RequestServed (s.accept m) { m with arrived := some s.fresh, held := false } (exec e s)) ∧
    (s.relay[n]? = some m → (s.relay.find? fun x => x.uid == m.uid) = some m → m.served = false → m.arrived.isSome = true →
      RequestServed s m (exec e s))

/-- READRSP, AMORSP and NETRSP (R58, R134, R354): the result reaches the register of the operation that waits for it; RECALL (R136):
what is queued for the line is performed, the line leaves the near buffer and its counter rises. -/
def RepliesArrive : Prop :=
  ∀ (s : State) (n : Nat) (m : Msg), Comes s n m → let u := s.accept m
    (∀ r data bad, m.body = .readRsp r data bad →
      exec (.readrsp n) s = .next ((u.answer r.tile r.owner r.pend r.at_ (bytesV data) 0 (bad.map fun c => (c, r.va))).finishMsg m.uid)) ∧
    (∀ r old f bad, m.body = .amoRsp r old f bad →
      exec (.amorsp n) s =
        .next ((u.answer r.tile r.owner r.pend 0 (old.setWidth 1024) f (bad.map fun c => (c, r.va))).finishMsg m.uid)) ∧
    (∀ o p x bad, m.body = .netrsp o p x bad →
      exec (.netrsp n) s = .next ((u.answer m.dst o p 0 (x.setWidth 1024) 0 bad).finishMsg m.uid)) ∧
    (∀ l, m.body = .recall l → l ∈ s.tiles[m.dst].near →
      exec (.recall n) s = .next ((((u.drainNear m.dst l u.relay.length).modTile m.dst fun x =>
        { x with near := x.near.filter (· != l) }).predict m.dst l true).finishMsg m.uid)) ∧
    (∀ l, m.body = .recall l → l ∉ s.tiles[m.dst].near → exec (.recall n) s = .next (u.finishMsg m.uid))

/-- NETOP, PAIRPUSH and BORROW (R276, R354, R359, R360, R368, R427, R438): a node's home performs the operation once the lines stand there,
and answers; on a die where the sequence's key is not live it completes with KEY_VOID; a pair joins the bag, or is refused where the bag
has no room for it beside the pushes refused before it; a tile that is asked lends its oldest entry of the highest priority that may be lent, or
answers nothing. -/
def NetsArrive : Prop :=
  ∀ (s : State) (n : Nat) (m : Msg), Comes s n m → let u := s.accept m
    (∀ op q o p, m.body = .netop op q o p → let spans := u.netSpans q m.dst op
      let r := (u.useLines spans).doNetop m.dst q op
      ((∃ x ∈ spans, u.keyLive q x.1.die = false) →
        exec (.netop n) s = .next ((u.netVoid { m with arrived := some s.fresh, held := false } op q o p).finishMsg m.uid)) ∧
      ((∀ x ∈ spans, u.keyLive q x.1.die = true) →
        (u.absent spans = [] →
          exec (.netop n) s = .next ((r.1.send m.dst m.src m.part (.netrsp o p r.2.1 r.2.2) []).finishMsg m.uid)) ∧
        (u.absent spans ≠ [] → exec (.netop n) s = .next (u.askLines q spans)))) ∧
    (∀ e d, m.body = .pair e false d →
      let before := s.refusedBefore m.dst m.uid m.refused (Body.pairOf e.seq)
      (s.bagRoom m.dst e before = true → ∀ w, u.bagPut m.dst e = some w →
        exec (.pairpush n) s = .next ((w.answer m.src d.1 d.2 0 0 0 none).finishMsg m.uid)) ∧
      (s.bagRoom m.dst e before = false → exec (.pairpush n) s = .next (s.refuse m))) ∧
    (m.body = .borrow → (∀ e, u.lendOne m.dst m.src = some e →
        exec (.borrow n) s = .next (((u.bagTake m.dst e).send m.dst m.src m.part
          (.pair (u.typed m.dst { e with spilled := false }) true (0, 0)) []).finishMsg m.uid)) ∧
      (u.lendOne m.dst m.src = none → exec (.borrow n) s = .next (u.finishMsg m.uid)))

/-- The queue of messages for a sequence on a tile. -/
def mail (s : State) (t : TileId) (q : SeqId) : List (TileId × BitVec 16 × Nat × BitVec 512) := (s.tiles[t].seqOn q).messages

/-- MSG (R208, R209, R438): a message for which the queue of 32 has no room beside those refused before it is refused; another joins the queue, the sequence's events on the tile are set, a waiting
MRECV takes the oldest, and the sender's MSEND is performed. -/
def MessagesArrive : Prop :=
  ∀ (s : State) (n : Nat) (m : Msg), Comes s n m → ∀ q o p tag len data, m.body = .msg q o p tag len data →
    let before := s.refusedBefore m.dst m.uid m.refused (Body.msgTo q)
    (32 ≤ (mail s m.dst q).length + before → exec (.msg n) s = .next (s.refuse m)) ∧
    ((mail s m.dst q).length + before < 32 →
      let u := (s.accept m).modTileSeq m.dst q fun y => { y with messages := y.messages ++ [(m.src, tag, len, data)] }
      exec (.msg n) s = .next ((((u.wake m.dst (some q)).serveMsg m.dst q).answer m.src o p 0 0 0 none).finishMsg m.uid))

/-- CREDIT (R184, R205, R438): the credits of a circuit rise by those carried; a message that was refused and dropped, for which there
is room, leaves again at once. -/
def CreditsArrive : Prop :=
  ∀ (s : State) (n : Nat) (m : Msg), Comes s n m → let u := s.accept m
    (∀ h k, m.body = .creditWords h k → ∃ v, exec (.credit n) s = .next v ∧
      v.circuits = s.circuits.map fun c => if c.handle = h then { c with credits := c.credits + k } else c) ∧
    (∀ k, m.body = .creditSeq k →
      exec (.credit n) s = .next (({ u with relay := u.relay.map fun (x : Msg) =>
        if x.src = m.dst ∧ x.dst = m.src ∧ x.seqno = k ∧ x.turnedAway = true ∧ x.lost = true then
          { x with lost := false, last := s.domain.sid, struck := false } else x }).finishMsg m.uid))

/-- ACK and ACK_FORCED (R257, R259): the sender keeps an acknowledged message no longer once it has been performed, and what has been sent
stays otherwise as it is; an ACK leaves 4,096 slots after its launch at the latest; one that an interface refuses is dropped and
counted. -/
def AcksArrive : Prop :=
  ∀ (s : State) (n : Nat) (m : Msg) (k : BitVec 16), s.relay[n]? = some m → m.body = .ack k → s.hopsPending m.src = false →
    (s.relay.map (·.uid)).Nodup → (∀ x ∈ s.relay, x.launched = false → x.arrived = none) →
    let theirs (x : Msg) : Prop := x.src = m.dst ∧ x.dst = m.src ∧ x.seqno = k ∧ x.arrived ≠ none ∧ x.body.isAck = false
    let taken (u : State) : Prop := u.tiles = s.tiles ∧ u.mem = s.mem ∧
      (∀ x ∈ u.relay, x.uid ≠ m.uid ∧ (theirs x → x.acked = true ∧ x.served = false)) ∧
      (∀ x ∈ s.relay, x.launched = true → x.uid ≠ m.uid → ¬ theirs x → x ∈ u.relay)
    let dropped (u : State) : Prop := u.tiles = s.tiles ∧ u.mem = s.mem ∧ u.drops = s.drops + 1 ∧
      u.relay = s.relay.filter fun x => x.uid != m.uid
    ∃ u v, exec (.ack n) s = .next u ∧ exec (.ackForced n) s = .next v ∧ u.domain = s.domain ∧
      v.domain.sid = Nat.max s.domain.sid (m.last + 4096) ∧
      (s.passes m = true → taken u ∧ taken v) ∧ (s.passes m = false → dropped u ∧ dropped v)

/-- RELAY_RESEND (R259, R438): 16,384 slots after its last sending a message that has not been acknowledged is sent again; its
destination, if it has it already, answers with its ACK again. -/
def ResendsHappen : Prop :=
  ∀ (s : State) (n : Nat) (m : Msg), s.relay[n]? = some m → m.body.isAck = false → m.launched = true → m.acked = false →
    let sid := Nat.max s.domain.sid (m.last + 16384)
    let u : State := { s with domain := { s.domain with sid := sid }, relay := s.relay.map fun (x : Msg) =>
      if x.uid = m.uid then { x with lost := false, last := sid, struck := false } else x }
    (m.arrived = none → exec (.relayResend n) s = .next u) ∧
    (m.arrived ≠ none → exec (.relayResend n) s = .next (u.send m.dst m.src m.part (.ack m.seqno) []))

/-- SLICE_ARRIVAL (R166, R167, R438): a slice whose object's lines are ready is contributed where the hold has room for it beside those
refused before it, and its sender's VRORD is performed; one that finds the hold full is refused; the lines of SUM are asked for. -/
def SlicesArrive : Prop :=
  ∀ (s x : State) (n : Nat) (m : Msg) (r : Req) (i : Nat) (d : V) (k : K), Comes s n m → m.body = .slice r i d k →
    s.ready m r true false = .go x →
    let sums := r.objectSpans.drop 1
    let y := x.useLines sums
    let room := y.sliceRoom r i (y.refusedBefore m.dst m.uid m.refused Body.isSlice)
    (x.absent sums ≠ [] → exec (.sliceArrival n) s = .next (x.askLines r.seq sums)) ∧
    (x.absent sums = [] → Comes y n m →
      (room = false → exec (.sliceArrival n) s = .next (y.refuse m)) ∧
      (room = true → (∀ z ∈ r.objectSpans, (y.accept m).placeBad z.1 z.2 = false) →
        exec (.sliceArrival n) s =
          .next ((((y.accept m).contribute r i d k).answer r.tile r.owner r.pend 0 0 0 none).finishMsg m.uid)))

end Sys2Proof.Claims

open Sys2Proof Sys2Proof.Machine in
/-- Relay messages are accepted in order, counted and acknowledged, strays change nothing but a counter, and each kind acts at its
destination (R126, R134, R136, R167, R184, R208, R209, R257–R259, R276, R354, R359, R360, R368, R427, R438). -/
def Obligations.RelayMessages : Prop :=
  Claims.Acceptance ∧ Claims.Strays ∧ Claims.RequestsArrive ∧ Claims.RepliesArrive ∧ Claims.NetsArrive ∧ Claims.MessagesArrive ∧
  Claims.CreditsArrive ∧ Claims.AcksArrive ∧ Claims.ResendsHappen ∧ Claims.SlicesArrive

/-! ### Memory service -/

namespace Sys2Proof.Claims

/-- A request taken out of the list of transfers. -/
def without (s : State) (uid : Nat) : State := { s with transfers := s.transfers.filter fun x => x.uid != uid }

/-- The requests in a port's queue with a request (R270). -/
def before (s : State) (m : MemReq) : List MemReq := s.transfers.filter fun x => x.queued && x.sameQueue m

/-- The partition of a request has its request circuit to the request's port (R272). -/
def Circuited (s : State) (m : MemReq) : Prop := (s.memCircuit (partOf m.seq) (portOf m.pa) false).isSome = true

/-- MEMORY_READ and MEMORY_WRITE (R270, R272–R274): a request goes over its partition's circuit and joins the end of its port's queue of
32, or waits while that is full; a partition without the circuit reaches no port. -/
def PortsReached : Prop :=
  ∀ (s : State) (n : Nat) (m : MemReq), s.transfers[n]? = some m → m.queued = false →
    (Circuited s m → (before s m).length < 32 →
      let u : State := { s with transfers := s.transfers.eraseIdx n ++ [{ m with queued := true }] }
      (m.op = .read → exec (.memoryRead n) s = .next u) ∧ (m.op = .write → exec (.memoryWrite n) s = .next u)) ∧
    (32 ≤ (before s m).length ∨ ¬ Circuited s m → m.op = .read ∨ m.op = .write →
      exec (.memoryRead n) s = .next s ∧ exec (.memoryWrite n) s = .next s)

/-- PORT_SERVICE (R273–R275, R281): the oldest request of a partition's queue is served, unless another partition's for the same line came
before it. On a fenced pseudo-channel it is refused; a read finds the line's two poison marks; a write leaves them; both are counted. A
stack that retrains or is down serves nothing. -/
def PortsServed : Prop :=
  ∀ (s : State) (p : Fin 96) (q : PartId) (c : Fin 48) (m : MemReq),
    (s.transfers.find? fun x => x.queued && partOf x.seq == q && portOf x.pa == p && chanOf x.pa == c) = some m →
    (∀ uid, m.op ≠ .bypass uid) →
    let k := s.hbmStacks[stackOf m.pa]
    let is (f : MemReq → MemReq) : State := s.modReq m.uid f
    let found (x : MemReq) : MemReq :=
      { x with op := .rdata, queued := false, bad0 := k.bad.contains (m.pa % 2 ^ 36 / 32),
               bad1 := k.bad.contains ((m.pa + 32) % 2 ^ 36 / 32) }
    (k.up = false ∨ k.retraining = true ∨ s.servedBefore m = true → exec (.portService p q c) s = .next s) ∧
    (k.up = true → k.retraining = false → s.servedBefore m = false →
      (pseudoOf m.pa ∈ k.fenced → exec (.portService p q c) s = .next (is fun x => { x with op := .nack, queued := false })) ∧
      (pseudoOf m.pa ∉ k.fenced → m.op = .read →
        exec (.portService p q c) s =
          .next ((is found).modCounts m.seq fun y => { y with linesRead := y.linesRead + 1 })) ∧
      (pseudoOf m.pa ∉ k.fenced → m.op ≠ .read →
        exec (.portService p q c) s = .next ((((is fun x => { x with op := .wack, queued := false }).markStack m.pa
          m.bad0).markStack (m.pa + 32) m.bad1).modCounts m.seq fun y => { y with linesWritten := y.linesWritten + 1 })))

/-- RDATA (R276, R277): the line comes into its home's bank with its marks, most recently used of a set of 16 ways; where the set is full
the least recently used goes if it is clean, is written back first if it is dirty, and recalled if a near buffer has it (R136); a home in
reset keeps nothing. -/
def LinesInstalled : Prop :=
  ∀ (s : State) (n : Nat) (m : MemReq), s.transfers[n]? = some m → m.op = .rdata →
    let ways := s.tiles[m.home].bank.filter fun l => sameSet l.line m.line
    let line : BankLine := { line := m.line, seq := m.seq, dirty := false, bad0 := m.bad0, bad1 := m.bad1 }
    let comes (keep : Nat → Prop) (u : State) : Prop := exec (.rdata n) s = .next u ∧ u.transfers = (without s m.uid).transfers ∧
      (∃ l, u.tiles[m.home].bank = line :: l ∧ ∀ x, x ∈ l ↔ x ∈ s.tiles[m.home].bank ∧ keep x.line) ∧
      (∀ t : TileId, t ≠ m.home → u.tiles[t] = s.tiles[t]) ∧ u.mem = s.mem
    (s.tiles[m.home].inReset = true → exec (.rdata n) s = .next (without s m.uid)) ∧
    (s.tiles[m.home].inReset = false → ways.length < 16 → ∃ u, comes (· ≠ m.line) u) ∧
    (∀ v, s.tiles[m.home].inReset = false → 16 ≤ ways.length → ways.getLast? = some v →
      (∀ t, s.nearHolder v.line = some t → exec (.rdata n) s = .next (s.recall m.home t (partOf v.seq) v.line)) ∧
      (s.nearHolder v.line = none → v.dirty = false → (∀ y ∈ s.transfers, ¬(y.home = m.home ∧ y.line = v.line)) →
        ∃ u, comes (fun l => l ≠ m.line ∧ l ≠ v.line) u) ∧
      (s.nearHolder v.line = none → v.dirty = true → (∀ y ∈ s.transfers, ¬(y.home = m.home ∧ y.line = v.line)) →
        ∃ u w, exec (.rdata n) s = .next u ∧ u.transfers = s.transfers ++ [w] ∧ w.op = .write ∧ w.line = v.line ∧ w.home = m.home ∧
          w.queued = false ∧ w.bad0 = v.bad0 ∧ w.bad1 = v.bad1 ∧
          u.tiles[m.home].bank = s.tiles[m.home].bank.map fun l => if l.line = v.line then { l with dirty := false } else l))

/-- WACK and NACK (R136, R273, R276): a line that has been written back is released unless it is dirty again or in a near buffer; a
refused read brings its line
poisoned, and a refused write poisons the line that is there. -/
def WritesAnswered : Prop :=
  ∀ (s : State) (n : Nat) (m : MemReq), s.transfers[n]? = some m →
    (m.op = .wack → exec (.wack n) s = .next ((without s m.uid).modTile m.home fun x =>
      { x with bank := x.bank.filter fun l => l.line != m.line || l.dirty || (s.nearHolder l.line).isSome })) ∧
    (m.op = .nack → s.bankLine m.pa m.home ≠ none → exec (.nack n) s = .next ((without s m.uid).modTile m.home fun x =>
      { x with bank := x.bank.map fun l => if l.line == m.line then { l with bad0 := true, bad1 := true } else l })) ∧
    (m.op = .nack → s.bankLine m.pa m.home = none → exec (.nack n) s = .next (s.installLine m true true))

/-- BYPASS (R270, R275, R278): an access of a message whose home is in bypass joins its port's queue, and is performed at the port behind
the requests before it; a read brings its bytes. -/
def BypassServed : Prop :=
  ∀ (s : State) (n : Nat) (m : MemReq) (uid : Nat), s.transfers[n]? = some m → m.op = .bypass uid →
    let k := s.hbmStacks[stackOf m.pa]
    (m.queued = false → Circuited s m → (before s m).length < 32 → (∃ x, (s.relay.find? fun y => y.uid == uid) = some x ∧
        x.body.byop < 4) →
      exec (.bypass n) s = .next { s with transfers := s.transfers.eraseIdx n ++ [{ m with queued := true }] }) ∧
    (m.queued = true → k.up = false ∨ k.retraining = true ∨ s.servedBefore m = true → exec (.bypass n) s = .next s) ∧
    (m.queued = true → k.up = true → k.retraining = false → s.servedBefore m = false → pseudoOf m.pa ∉ k.fenced →
      ∀ i x r, s.relay[i]? = some x → (s.relay.findIdx? fun y => y.uid == uid) = some i → x.arrived.isSome = true →
      x.served = false → x.body = .read r →
      exec (.bypass n) s = .next (without (((s.correct r.pl r.n).send x.dst r.tile x.part (.readRsp r
        (s.readThrough (.seq r.seq) r.pl r.n r.fwd) (if s.placeBad r.pl r.n then some .poison else none)) []).finishMsg uid)
        m.uid))

end Sys2Proof.Claims

open Sys2Proof Sys2Proof.Machine in
/-- Memory service: requests reach their ports, are served in order, and their replies come home (R136, R270, R272–R278, R281). -/
def Obligations.MemoryServed : Prop :=
  Claims.PortsReached ∧ Claims.PortsServed ∧ Claims.LinesInstalled ∧ Claims.WritesAnswered ∧ Claims.BypassServed

/-! ### The scheduler and translation -/

namespace Sys2Proof.Claims

/-- The scheduler chooses again on a tile, in the next move of its core. -/
def rechooses (s : State) (t : TileId) : State := s.switchEvent t

/-- The foreground strand of a tile. -/
def Front (s : State) (t : TileId) (k : StrandId) : Prop := s.tiles[t].core.fg = some k

/-- SCOREBOARD_SWITCH (R58, R381), QUANTUM_EXPIRY (R383) and PREEMPT_LIMIT (R385): the events at which the foreground strand gives way. -/
def StrandsGiveWay : Prop :=
  ∀ (s : State) (t : TileId) (k : StrandId), Front s t k → let x := s.strandAt t k
    (0 < x.waited → exec (.scoreboardSwitch t) s =
      .next (rechooses ((s.elapse wordExec t (9 - x.waited) true false).modStrandAt t k fun y => { y with waited := 9 }) t)) ∧
    (4096 ≤ x.quantum → s.rival wordExec t k = true → exec (.quantumExpiry t) s = .next (rechooses s t)) ∧
    (4096 ≤ x.quantum → s.rival wordExec t k = false →
      exec (.quantumExpiry t) s = .next (s.modStrandAt t k fun y => { y with quantum := 0 })) ∧
    (x.quantum < 4096 → exec (.quantumExpiry t) s = .next s) ∧
    (∀ n, x.preempt = some n → (256 ≤ n → exec (.preemptLimit t) s = .next ((rechooses s t).settle t)) ∧
      (n < 256 → exec (.preemptLimit t) s = .next s))

/-- AGING (R382): time passes on a tile until a waiting candidate has waited a further full 65,536 cycles: no waiting pair passes beyond its
next one. -/
def PairsAge : Prop :=
  ∀ (s : State) (t : TileId) (e : BagEntry), e ∈ s.tiles[t].bag → e.park = 0 →
    ∃ n, exec (.aging t) s = .next (s.elapse wordExec t n false false) ∧ 0 < n ∧ (e.waited + n) / 65536 ≤ e.waited / 65536 + 1 ∧
      n ≤ 65536

/-- THREAD_RESTORE_END (R297, R380, R391): the thread whose context has been loaded is resident and in the foreground, with what its
frame holds; one that held the matrix unit gets its accumulators back. While the unit is not free it waits, and the core issues from
its other strands if one of them holds the unit (log 112). -/
def ThreadsRestored : Prop :=
  ∀ (s : State) (t : TileId) (k : StrandId) (i : Fin 32) (th : Thread), s.tiles[t].core.loading = some (k, i) →
    s.tiles[t].core.threads[i] = some th →
    let m := s.tiles[t].matrix
    (th.accs = true → m.holder.isSome = true → exec (.threadRestoreEnd t k) s =
      .next (s.modCore t fun c => { c with loading := none, resched := true })) ∧
    (th.accs = true → m.holder = none → m.clearing = true ∨ m.queue ≠ [] → exec (.threadRestoreEnd t k) s = .next s) ∧
    (th.accs = false ∨ m.holder = none ∧ m.clearing = false ∧ m.queue = [] → ∃ u, exec (.threadRestoreEnd t k) s = .next u ∧
      Front u t k ∧ u.tiles[t].core.loading = none ∧ (u.strandAt t k).work = .thread i ∧ (u.strandAt t k).owner = th.owner ∧
      (u.strandAt t k).seq = th.seq ∧ (u.strandAt t k).pri = th.pri ∧ (u.strandAt t k).quantum = 0 ∧
      (u.strandAt t k).ctx = s.readFrame t th th.saved ∧ u.mem = s.mem ∧
      u.tiles[t].core.threads[i] = some { th with state := .resident k, ready := 0, accs := false, mapped := false } ∧
      (th.accs = true → u.tiles[t].matrix.holder = some (th.owner, k) ∧
        u.tiles[t].matrix.accs = s.readAccs th.seq (framePlace t th.frame)))

/-- RUNAWAY (R214): a rewrite's 4,097th bundle traps with 4,096 in TRAPVAL; an earlier one does not. -/
def RunawaysTrap : Prop :=
  ∀ (s : State) (t : TileId) (k : StrandId) (r : Rewrite), Front s t k → (s.strandAt t k).work = .rewrite r →
    (4096 ≤ r.bundles → exec (.runaway t) s = .next (s.takeTrap t k .runaway 4096 (some 0) (s.strandAt t k).ctx.pc)) ∧
    (r.bundles < 4096 → exec (.runaway t) s = .next s)

/-- BORROW_START (R368): a tile that has idled for 256 cycles, with fewer than 16 borrowed pairs, asks the next neighbour of its
partition. -/
def TilesBorrow : Prop :=
  ∀ (s : State) (t : TileId) (p : PartId), s.tiles[t].part = some p → let x := s.tiles[t].core.sched
    (∀ d u, s.askNext t = some (d, u) → 256 ≤ x.idle → x.borrowed < 16 → x.stopped = false →
      exec (.borrowStart t) s = .next ((s.modCore t fun c => { c with sched := { c.sched with idle := 0, lastAsked := d } }).send t u p
        .borrow []) ∧ s.tiles[u].part = some p ∧ neighbour t d = some u) ∧
    (x.idle < 256 ∨ 16 ≤ x.borrowed → exec (.borrowStart t) s = .next s)

/-- HELD_SPAWN_START (R380): the oldest held spawn starts where there is room. -/
def SpawnsStart : Prop :=
  ∀ (s : State) (t : TileId) (h : Spawn) (l : List Spawn), s.tiles[t].core.sched.held = h :: l →
    let free := s.modCore t fun c => { c with sched := { c.sched with held := l } }
    (s.tiles[t].core.sched.stopped = true → exec (.heldSpawnStart t) s = .next s) ∧
    (s.tiles[t].core.sched.stopped = false →
      (∀ u, free.startThread t h.seq h.entry h.arg h.pri = some u → exec (.heldSpawnStart t) s = .next u) ∧
      (free.startThread t h.seq h.entry h.arg h.pri = none → exec (.heldSpawnStart t) s = .next s))

/-- POOL_REFILL (R357): an empty pool gets a page of 64 nodes from the sequence's budget. -/
def PoolsRefilled : Prop :=
  ∀ (s : State) (t : TileId) (q : SeqId) (p : Page) (x : Sequence), s.seqs[q] = some x → (s.tiles[t].seqOn q).head = 0 →
    64 ≤ x.nodesLeft → p.va.toNat % 4096 = 0 → s.nodePlace q t (lineOf p.va) = some (.hbm p.pa t) →
    exec (.poolRefill t q p) s = .next ((((s.chainNodes q t p.va 0 64).modTileSeq t q fun y => { y with head := p.va }).modSeq q
      fun y => { y with nodesLeft := y.nodesLeft - 64 }).poolRefilled q)

/-- PARALLAX_RETRY (R300) and DIVIDE_COMPLETE (R106): a hold of 12 cycles ends; a quotient reaches its register, but not while the tile
stands still. -/
def HoldsEnd : Prop :=
  ∀ (s : State) (t : TileId),
    (s.tiles[t].core.hold = true →
      exec (.parallaxRetry t) s = .next ((s.elapse wordExec t 12 false false).modCore t fun c => { c with hold := false })) ∧
    (∀ v, s.tiles[t].core.divider = some v → s.still t = false → exec (.divideComplete t) s =
      .next ((s.modCore t fun c => { c with divider := none }).answer t v.owner v.pend 0 (v.val.setWidth 1024) 0 none))

/-- ILLEGAL_OP and FETCH_FAULT (R53, R80, R98, R435): a fetched bundle that breaks a rule issues no word and is refused with the TRAPVAL
of R435; a fetch that ends in a fault is refused with its cause and the address of the word. -/
def BundlesRefused : Prop :=
  ∀ (s : State) (t : TileId), s.atBundle t = true →
    (∀ l v, (s.focus t).nextBundle = .words l → bundleFault (slotsOf l) ((s.focus t).ctx.crossed (s.focus t).ctx.pc) = some v →
      exec (.illegalOp t) s = .next ((s.focus t).stopBy (.trap .illegalOp v))) ∧
    (∀ c a, (s.focus t).nextBundle = .stop (.fault c a) → exec (.fetchFault t) s = .next ((s.focus t).stopBy (.trap c a)))

/-- TRANSLATION_WALK (R276, R400, R408, R416): while an entry that the walk reads is not at its home the lines are asked for. Otherwise
the walk's slot is free again; a translation found is installed where it was missed, and a fault is told to each of those who wait. -/
def WalksEnd : Prop :=
  ∀ (s0 : State) (t : TileId) (n : Fin 2) (w : Walk), s0.tiles[t].walks[n.val]? = some w → s0.still t = false →
    let spans := s0.walkSpans w.seq t w.va
    let s := s0.useLines spans
    let u := s.modTile t fun x => { x with walks := x.walks.eraseIdx n.val }
    (s0.absent spans ≠ [] → exec (.translationWalk t n) s0 = .next (s0.askLines w.seq spans)) ∧
    (s0.absent spans = [] →
      (∀ e, s.walk w.seq t w.va = .done e →
        exec (.translationWalk t n) s0 = .next (w.into.foldl (fun a x => a.install t x.1 x.2 e) u)) ∧
      (∀ c, s.walk w.seq t w.va = .fault c →
        exec (.translationWalk t n) s0 = .next (w.who.foldl (fun a x => a.walkFault w c x) u)) ∧
      (s.walk w.seq t w.va = .poisoned →
        exec (.translationWalk t n) s0 = .next (w.who.foldl (fun a x => a.walkFault w .poison x) u)) ∧
      (∀ i z b, s.walk w.seq t w.va = .missing i z b →
        exec (.translationWalk t n) s0 = .next (w.who.foldl (fun a x => a.walkMissing w i z b x) u)) ∧
      (∀ f o, s.walk w.seq t w.va = .touch f o → exec (.translationWalk t n) s0 = .next (s.touchLeaf w.seq t f o)))

/-- QUIET_SWEEP (R371), COUNTER_WINDOW (R433): what happens at multiples of 65,536 slots and of 1.6 × 10^9 slots. -/
def SweepsHappen : Prop :=
  (∀ s : State, let at_ := (s.domain.sid / 65536 + 1) * 65536
    exec .quietSweep s =
      .next ((List.finRange 256).foldl State.sweepSeq { s with domain := { s.domain with sid := at_ } })) ∧
  (∀ s : State, ∃ u, exec .counterWindow s = .next u ∧ u.domain.sid % 1600000000 = 0 ∧ s.domain.sid < u.domain.sid ∧
    u.domain.sid ≤ s.domain.sid + 1600000000 ∧ u.mem = s.mem ∧ u.tiles = s.tiles ∧
    ∀ (q : SeqId) (x : Sequence), s.seqs[q] = some x → ∃ y, u.seqs[q] = some y ∧ y.window = x.counts.since x.windowBase ∧
      y.windowBase = x.counts ∧ y.windowEnd = u.domain.sid ∧ y.counts = x.counts)

/-- EVENT_SEND (R421, R422, R423): the oldest event of the next queue, round-robin after the last served, leaves for its function and is
kept until it is acknowledged; a die in reset sends nothing, and no more does a die whose event circuit to die 0 does not stand. -/
def EventsSent : Prop :=
  ∀ (s : State) (d : DieId) (n : Fin 17) (e : EventRec), let x := s.dies[d]
    (x.inReset = true ∨ s.eventWay d = false → exec (.eventSend d) s = .next s) ∧
    (x.inReset = false → s.eventWay d = true → x.nextQueue = some n → (x.events.find? fun y => y.queue == n) = some e →
      exec (.eventSend d) s = .next ((s.modDie d fun y => { y with events := takeEvent n y.events, lastQueue := n }).deviceSend e.fn 3 0
        ([BitVec.ofNat 64 (e.seq.val * 2 ^ 20 + e.part.val * 2 ^ 16 + e.code.toNat), BitVec.ofNat 64 e.time] ++ e.detail)))

/-- TRANSIT_SWEEP_UNIT (R429, R430): the bytes of the die's next unit that are under the old generation come under the new one, and no
other byte's key changes; the pointer moves on. -/
def TransitMovesOn : Prop :=
  ∀ (s : State) (d : DieId) (q : SeqId) (x : Sequence) (a : Nat) (rest : List Nat) (k : Fin 512), s.seqs[q] = some x →
    (x.sweepLeft.find? fun y => y.1 == d) = some (d, a :: rest) → x.slots[d] = some k →
    let left := x.sweepLeft.map fun y => if y.1 = d then (d, rest) else y
    let away : State := if a < 2 ^ 56 then
        { s with tiles := s.tiles.map fun (y : Tile) => { y with near := y.near.filter fun n => n != a / 64 } }
      else s
    exec (.transitSweepUnit d q) s =
      .next (((away.recipher s.dies[d].keys[k] a).modSeq q fun y => { y with sweepLeft := left }).endRotate q)

end Sys2Proof.Claims

open Sys2Proof Sys2Proof.Machine in
/-- The scheduler's events (R58, R106, R214, R297, R300, R357, R368, R380–R385, R391). -/
def Obligations.SchedulerEvents : Prop :=
  Claims.StrandsGiveWay ∧ Claims.PairsAge ∧ Claims.ThreadsRestored ∧ Claims.RunawaysTrap ∧ Claims.TilesBorrow ∧ Claims.SpawnsStart ∧
  Claims.PoolsRefilled ∧ Claims.HoldsEnd

open Sys2Proof Sys2Proof.Machine in
/-- Refused bundles, walks, sweeps, windows, the sending of events and the Transit pointer (R53, R276, R371, R400, R408, R416, R421, R422,
R429, R430, R433). -/
def Obligations.SystemEvents : Prop :=
  Claims.BundlesRefused ∧ Claims.WalksEnd ∧ Claims.SweepsHappen ∧ Claims.EventsSent ∧ Claims.TransitMovesOn

/-! ### The host port -/

namespace Sys2Proof.Claims

/-- A function's stream listens for a message: the package has booted, the datagram is good, the message is the next of the stream with
none ahead of it, and no command of the function is in progress (R417, R418). -/
def Listens (s : State) (h : HostHdr) (fn : Fin 193) (kind : BitVec 8) : Prop :=
  s.cold.booted = true ∧ h.kind = kind ∧ h.ver = 1 ∧ h.owner = h.fn ∧ h.lenOk = true ∧ h.form = .plain ∧ fnOf h.fn = some fn ∧ s.busy fn = false ∧
  s.streams[fn].ahead = [] ∧ h.seqno.toNat = s.streams[fn].expect

/-- The state with a message taken into its stream: its number is used up, and what its ACK acknowledges is kept no longer (R418). -/
def heard (s : State) (fn : Fin 193) (h : HostHdr) : State :=
  s.modStream fn fun x => { x with kept := x.kept.filter (fun m => h.ack.toNat ≤ m.seqno), expect := x.expect + 1 }

/-- A message that is performed as r says; then the port looks for more messages of the stream. -/
def Acts (s : State) (e : Instr) (fn : Fin 193) (r : State) : Prop := exec e s = .next (r.drain fn 33)

/-- A command answered with a STATUS and the words of its result. -/
def answers (r : State × BitVec 8 × List W) (fn : Fin 193) (h : HostHdr) : State := r.1.complete fn h r.2.1 r.2.2

/-- Datagrams that are dropped and counted (R417), and messages that are dropped, or bring back the COMPLETION that was sent (R418). -/
def PortFilters : Prop :=
  ∀ (s : State) (h : HostHdr) (c : HostCmd) (e : Instr), s.cold.booted = true → exec e s = .next (s.hostReceive h c) →
    (h.kind ≠ c.kind ∨ h.ver ≠ 1 ∨ fnOf h.fn = none ∨ h.fn ≠ h.owner ∨ h.lenOk = false →
      exec e s = .next { s with drops := s.drops + 1 }) ∧
    (∀ fn, badDatagram h c = false → fnOf h.fn = some fn → s.streams[fn].expect + 32 < h.seqno.toNat →
      ∃ u, exec e s = .next u ∧ u.streams[fn].ahead = s.streams[fn].ahead ∧ u.streams[fn].expect = s.streams[fn].expect ∧
        u.drops = s.drops ∧ u.seqs = s.seqs ∧ u.parts = s.parts) ∧
    (∀ fn, badDatagram h c = false → fnOf h.fn = some fn → h.seqno.toNat < s.streams[fn].expect →
      ∃ u, exec e s = .next u ∧ u.streams[fn].ahead = s.streams[fn].ahead ∧ u.streams[fn].expect = s.streams[fn].expect ∧
        u.streams[fn].egress = s.streams[fn].egress ++
          ((s.streams[fn].done.find? fun y => y.1 == h.seqno.toNat).map (·.2)).getD [] ∧ u.seqs = s.seqs ∧ u.parts = s.parts)

/-- A command with a CODE that is no command's is answered with STATUS 0x80; one with a reserved field set is refused: with 0x82,
START_SEQUENCE with BADIMAGE, and what its function may not ask for with 0x81 (R378, R419). The order of the two is the model's
choice (log 91). -/
def CommandsRefused : Prop :=
  ∀ (s : State) (h : HostHdr) (c : HostCmd) (e : Instr) (fn : Fin 193), exec e s = .next (s.hostReceive h c) → c.kind = 1 →
    Listens s { h with form := .plain } fn 1 → let u := heard s fn h
      (h.form = .unknown → Acts s e fn (u.complete fn h 0x80 [])) ∧
      (h.form = .reserved → Acts s e fn (u.complete fn h (u.reservedStatus fn c) [])) ∧
      (∀ n v q, fn = vfFn v → u.ownSeq v n = some q → u.reservedStatus fn (.keyRotate n) = 0x82) ∧
      (∀ n, fn = 192 → u.reservedStatus fn (.keyRotate n) = 0x81)

/-- Commands of the management function on partitions, stage 2 and injection (R229, R419, R420, R423, R437). -/
def ManagerCommands : Prop :=
  ∀ (s : State) (h : HostHdr), Listens s h 192 1 → let u := heard s 192 h
    (∀ b, Acts s (.createPartition h b) 192 ((u.create b).1.complete 192 h (u.create b).2 [])) ∧
    (∀ p, s.parts[p].isSome = true → Acts s (.destroyPartition h p) 192 ((u.destroyPart p).complete 192 h 0 [])) ∧
    (∀ p, s.parts[p] = none → Acts s (.destroyPartition h p) 192 (u.complete 192 h 0x83 []) ∧
      Acts s (.resetPartition h p) 192 (u.complete 192 h 0x83 [])) ∧
    (∀ v, Acts s (.resetVf h v) 192 ((u.resetOneVf v 0 v.val 1).complete 192 h 0 [])) ∧
    (∀ p, s.parts[p].isSome = true → Acts s (.resetPartition h p) 192 ((u.resetPart p 1).complete 192 h 0 [])) ∧
    (∀ d, s.dies[d].fenced = false → s.dies[d].stopping = none → s.dies[d].inReset = false →
      Acts s (.resetDie h d) 192 (u.startDieReset h d)) ∧
    Acts s (.resetPackage h) 192 (u.resetAll.flush.deviceSend 192 2 h.corr [0]) ∧
    (∀ b r, u.s2Write b = some r → Acts s (.s2Write h b) 192 (answers r 192 h)) ∧
    (∀ t a b, siteReserved a = false → s.running t = true →
      Acts s (.faultinjCommand h t a b) 192 ((u.inject t a b).complete 192 h 0 [])) ∧
    (∀ n i, Acts s (.attest h n i) 192 ((u.quote n none).1.completeAll 192 h (u.quote n none).2)) ∧
    (∀ i, s.parts[i].isSome = true → Acts s (.readCounters h i) 192 (u.complete 192 h 0 (u.partCounters i)))

/-- What CREATE_PARTITION does (R420): a body that no partition can have is refused with 0x82, one that cannot be had with 0x83, and
otherwise the partition has its blocks, functions, budgets and stage-2 root, and its tiles belong to it. -/
def PartitionsCreated : Prop :=
  ∀ (s : State) (b : CreateBody),
    (s.badCreate b = true → s.create b = (s, 0x82)) ∧
    (s.badCreate b = false → s.refusesCreate b = true → s.create b = (s, 0x83)) ∧
    (s.badCreate b = false → s.refusesCreate b = false → ∃ u x, s.create b = (u, 0) ∧ u.parts[b.part] = some x ∧
      x.blocks = b.blocks ∧ x.vfs = b.vfs ∧ x.linkbud = b.linkbud.toNat ∧ x.s2root = b.s2root.toNat ∧ x.mslots = b.mslots.toNat ∧
      (∀ p, p ≠ b.part → u.parts[p] = s.parts[p]) ∧ u.mem = s.mem ∧ u.seqs = s.seqs ∧
      (∀ t, b.blocks.getLsbD (blockOf t) = true → u.tiles[t].part = some b.part ∧ u.tiles[t].placemask = b.blocks) ∧
      (∀ t, b.blocks.getLsbD (blockOf t) = false → u.tiles[t].part = s.tiles[t].part))

/-- COOL and WARMUP (R283), PEER_CIRCUIT (R248, R252) and OCCULT (R266). -/
def PackageCommands : Prop :=
  ∀ (s : State) (h : HostHdr), Listens s h 192 1 → let u := heard s 192 h
    (s.cold.state = .warm → (∀ x ∈ s.temps, x ≤ 2500) → Acts s (.cool h) 192 ((u.goCold .nightfall).complete 192 h 0 [])) ∧
    (s.cold.state ≠ .warm → Acts s (.cool h) 192 (u.complete 192 h 0x83 [])) ∧
    (s.cold.state = .nightfall → Acts s (.warmup h) 192 ((u.goCold .warm).complete 192 h 0 [])) ∧
    (s.cold.state = .cold ∨ s.cold.state = .twilight → Acts s (.warmup h) 192 (u.daybreak.complete 192 h 0 [])) ∧
    (s.cold.state = .warm ∨ s.cold.state = .daybreak → Acts s (.warmup h) 192 (u.complete 192 h 0x83 [])) ∧
    (∀ b q, u.ownSeq b.vf b.seq = some q → let r := u.peerCircuit q b
      Acts s (.peerCircuit h b) 192 (if r.2.1 = true then (r.1.deviceSend (vfFn b.vf) 2 h.corr (0 :: r.2.2)).complete 192 h 0 r.2.2
        else r.1.complete 192 h (if (r.2.2.getD 0 0).toNat % 2 ^ 32 = 1 then 0x82 else 0x83) r.2.2)) ∧
    (∀ pkg b, Acts s (.occult h pkg b) 192 ((u.applyEpoch pkg u.newEpoch b).complete 192 h 0 []))

/-- Commands of a VF on its own sequences (R361, R378, R394, R395, R410, R419, R424, R427, R429, R432–R434), and its reset. -/
def SequenceCommands : Prop :=
  ∀ (s : State) (h : HostHdr) (v : Fin 192), let fn := vfFn v
    let u := heard s fn h
    (Listens s h fn 1 →
      Acts s (.resetVf h v) fn ((u.resetOneVf v 0 v.val 1).flush.deviceSend fn 2 h.corr [0]) ∧
      (∀ b, s.partOfVf v = none → Acts s (.startSequence h b) fn (u.complete fn h 0x09 [])) ∧
      (∀ b p, s.partOfVf v = some p → let r := u.launchSeq v p b
        Acts s (.startSequence h b) fn (r.1.complete fn h r.2.1 ((r.2.2.map fun q => BitVec.ofNat 64 (seqNo q).val).toList))) ∧
      (∀ n q, s.ownSeq v n = some q →
        Acts s (.endSequence h n) fn ((u.eclipse q (some 0)).complete fn h 0 []) ∧
        Acts s (.keyRotate h n) fn (u.startRotate fn h q) ∧
        (∀ x, Acts s (.attest h x n) fn ((u.quote x (some (v, q))).1.completeAll fn h (u.quote x (some (v, q))).2)) ∧
        Acts s (.readCounters h n) fn (u.complete fn h 0 (u.seqCounters q)) ∧
        (∀ va, va.toNat % 4096 = 0 →
          Acts s (.setDumparea h n va) fn ((u.modSeq q fun x => { x with dump := some va }).complete fn h 0 [])) ∧
        (∀ b x, b.seq = n → s.seqs[q] = some x → Acts s (.replay h b) fn (answers (u.replayNet q x b) fn h)) ∧
        (∀ b r, b.seq = n → u.tlbInval q b = some r → Acts s (.tlbInval h b) fn (answers r fn h)) ∧
        (∀ b, b.seq = n → Acts s (.unpark h b) fn (answers (u.unpark q b) fn h))) ∧
      (∀ n, s.ownSeq v n = none → Acts s (.endSequence h n) fn (u.complete fn h 0x81 []))) ∧
    (∀ b q, Listens s h fn 6 → s.ownSeq v b.seq = some q →
      (badAccess b false = false → Acts s (.hostRead h b) fn (u.startJob h q false b)) ∧
      (badAccess b false = true → Acts s (.hostRead h b) fn (u.complete fn h 0x82 []))) ∧
    (∀ b q, Listens s h fn 7 → s.ownSeq v b.seq = some q →
      (badAccess b true = false → Acts s (.hostWrite h b) fn (u.startJob h q true b)) ∧
      (badAccess b true = true → Acts s (.hostWrite h b) fn (u.complete fn h 0x82 [])))

/-- RESEND (R418): the messages kept from a number on leave again. -/
def MessagesResent : Prop :=
  ∀ (s : State) (h : HostHdr) (fn : Fin 193) (first : W), Listens s h fn 1 →
    Acts s (.resend h first) fn (((heard s fn h).modStream fn fun x =>
      { x with egress := x.egress ++ x.kept.filter fun m => first.toNat ≤ m.seqno }).complete fn h 0 [])

/-- PAGE_REPLY (R412, R414, R415): it answers the requesters of an outstanding tag, each of which goes on or is refused; a reply for a tag
that does not exist, or of a range that is not the tag's, is counted as late. -/
def RepliesAnswer : Prop :=
  ∀ (s : State) (h : HostHdr) (v : Fin 192) (b : ReplyBody), Listens s h (vfFn v) 5 →
    (∀ t, (s.streams[vfFn v].tags.find? fun x => x.tag == b.tag) = some t → t.ipa / 4096 = b.ipaPage.toNat → t.size = b.size →
      b.status.toNat ≤ 1 → t.retired = false → ∃ u : State, exec (.pageReply h b) s = .next (u.drain (vfFn v) 33) ∧
        ∃ w : State, u = w.modStream (vfFn v) (fun x => { x with expect := s.streams[vfFn v].expect + 1, ahead := [] }) ∧
          ∃ a : State, a.parts = s.parts ∧ a.seqs = s.seqs ∧ a.tiles = s.tiles ∧ a.dies = s.dies ∧ a.mem = s.mem ∧
            w = a.pageAnswer v t (b.status == 0)) ∧
    ((s.streams[vfFn v].tags.find? fun x => x.tag == b.tag) = none → ∃ u, exec (.pageReply h b) s = .next u ∧
      u.streams[vfFn v].late = s.streams[vfFn v].late + 1 ∧ u.streams[vfFn v].expect = s.streams[vfFn v].expect + 1 ∧
      u.tiles = s.tiles ∧ u.seqs = s.seqs ∧ u.mem = s.mem)

/-- HOST_READ and HOST_WRITE unit by unit (R424): eight bytes go to or come from the place of each unit; a fault of its translation ends
the access with 0x86 and the cause, poison with 0x84; the end completes it with the bytes read. -/
def HostUnits : Prop :=
  ∀ (s : State) (j : HostJob) (n : Nat),
    s.runJob j 0 = s.endJob j 0 (byteWords j.got (j.got.length / 8)) ∧
    (∀ c, s.hostUnit j.seq j.write j.va = .fault c → s.runJob j (n + 1) = s.endJob j 0x86 [c.code.setWidth 64]) ∧
    (∀ x, s.hostUnit j.seq j.write j.va = .hold x → s.runJob j (n + 1) = x.keepJob { j with left := n + 1 }) ∧
    (∀ pl, s.hostUnit j.seq j.write j.va = .at_ pl →
      (j.write = true → s.runJob j (n + 1) = (s.writePlace (.seq j.seq) pl (j.data.take 8)).runJob
        { j with va := j.va + 8, data := j.data.drop 8 } n) ∧
      (j.write = false → s.placeBad pl 8 = true → s.runJob j (n + 1) = (s.correct pl 8).endJob j 0x84 []) ∧
      (j.write = false → s.placeBad pl 8 = false → s.runJob j (n + 1) =
        (s.correct pl 8).runJob { j with va := j.va + 8, got := j.got ++ s.readPlace (.seq j.seq) pl 8 } n))

/-- The end of a die reset (R277, R423): its tiles leave reset with their work, and the command completes, unless 50 ms have passed since
its start; a die that has not ended it by then is fenced, and its partitions are reset. -/
def DieResetsEnd : Prop :=
  ∀ (s : State) (d : DieId) (h : HostHdr), s.dies[d].stopping = some h →
    let limit := if s.cold.slow then 40000000 else 80000000
    (s.dies[d].resetAt + limit ≤ s.domain.sid → exec (.dieResetEnd d) s = .next s) ∧
    (s.domain.sid < s.dies[d].resetAt + limit → s.dies[d].inReset = true → ∃ u : State, exec (.dieResetEnd d) s = .next (u.completeHdr h 0) ∧ u.dies[d].inReset = false ∧
      u.dies[d].stopping = none ∧ u.mem = s.mem ∧
      ∀ t : TileId, (dieOf t = d → u.tiles[t].inReset = false ∧ u.tiles[t].core.sched.stopped = false) ∧
        (dieOf t ≠ d → u.tiles[t] = s.tiles[t])) ∧
    (s.domain.sid < s.dies[d].resetAt + limit → s.dies[d].inReset = false → exec (.dieResetEnd d) s = .next (s.settleStop d)) ∧
    (let a := ({ s with domain := { s.domain with sid := Nat.max s.domain.sid (s.dies[d].resetAt + limit) } } : State).fenceDie d
     let b := a.modDie d fun x => { x with stopping := none, inReset := false }
     exec (.dieResetTimeout d) s = .next (((b.partsOn d).foldl (fun x p => x.resetPart p 1) b).completeHdr h 0x83))

end Sys2Proof.Claims

open Sys2Proof Sys2Proof.Machine in
/-- Commands of the management function: partitions, resets, stage 2, the cold, peers, injection, attestation and counters (R229, R248,
R266, R277, R283, R378, R419, R420, R423, R432, R433, R437), what the port drops (R417, R418), and the commands it refuses (R419). -/
def Obligations.ManagementCommands : Prop :=
  Claims.PortFilters ∧ Claims.CommandsRefused ∧ Claims.ManagerCommands ∧ Claims.PartitionsCreated ∧ Claims.PackageCommands ∧
    Claims.DieResetsEnd

open Sys2Proof Sys2Proof.Machine in
/-- Commands, accesses and replies of a VF (R361, R378, R394, R395, R410, R414, R415, R418, R419, R424, R427, R429, R432–R434). -/
def Obligations.FunctionCommands : Prop :=
  Claims.SequenceCommands ∧ Claims.MessagesResent ∧ Claims.RepliesAnswer ∧ Claims.HostUnits

/-! ### The cold -/

namespace Sys2Proof.Claims

/-- The band of R279 for a temperature in tenths of a kelvin that rises: the number of limits below it. -/
def risingBand (x : Nat) : Nat :=
  if x ≤ 850 then 0 else if x ≤ 1200 then 1 else if x ≤ 1800 then 2 else if x ≤ 2500 then 3 else 4

/-- The band for a temperature that falls: the limits are 3 K lower (R280). -/
def fallingBand (x : Nat) : Nat := risingBand (x + 30)

/-- A sensor's band after a reading (R279, R280): up where the temperature is above the band's upper limit, down where it is at or below
the limit beneath minus 3 K, and as it was otherwise. -/
def BandsMove : Prop :=
  ∀ (b : Fin 5) (x : Nat),
    (b.val < risingBand x → (nextBand b x).val = risingBand x) ∧
    (risingBand x ≤ b.val → fallingBand x < b.val → (nextBand b x).val = fallingBand x) ∧
    (risingBand x ≤ b.val → b.val ≤ fallingBand x → nextBand b x = b)

/-- The HBM rate of a band in 0.1 Gb/s (R279). -/
def rateOf (b : Fin 5) : Nat := [128, 128, 96, 64, 32].getD b.val 0

/-- A reading of a die and its stacks (R279–R281): each takes its temperature and its bands, and a stack whose pin rate changes
retrains. -/
def ReadingsTaken : Prop :=
  ∀ (s : State) (d : DieId) (x : Nat) (l : List Nat), let u := s.sense d x l Die.reads Stack.reads
    u.dies[d].temp = x ∧ u.dies[d].band = nextBand s.dies[d].band x ∧ u.mem = s.mem ∧ u.tiles = s.tiles ∧ u.cold = s.cold ∧
    (∀ e : DieId, e ≠ d → u.dies[e] = s.dies[e]) ∧
    ∀ i : Fin 3, let a := s.hbmStacks[stackAt d i]
      u.hbmStacks[stackAt d i] = { a with temp := l.getD i.val a.temp, band := nextBand a.band (l.getD i.val a.temp),
                                          refresh := nextBand a.refresh (l.getD i.val a.temp + 30),
                                          retraining := a.retraining ||
                                            rateOf (nextBand a.band (l.getD i.val a.temp)) != rateOf a.band }

/-- SENSOR_READ (R279, R283): without supply the temperatures change and nothing else. With it the reading is taken, the cold state
machine moves, and the slot clock follows the bands; in WARM and NIGHTFALL, below 250 K, nothing else moves, and a fall of more than 5 K
a minute is reported in NIGHTFALL. -/
def SensorsRead : Prop :=
  ∀ (s : State) (d : DieId) (x : Nat) (l : List Nat) (r : Nat), let u := s.sense d x l Die.reads Stack.reads
    (s.cold.supply = false → ∃ v, exec (.sensorRead d x l r) s = .next v ∧ v.dies[d].temp = x ∧ v.dies[d].band = s.dies[d].band ∧
      v.cold = s.cold ∧ v.mem = s.mem ∧ v.tiles = s.tiles) ∧
    (s.cold.supply = true → s.cold.state = .warm ∨ s.cold.state = .nightfall → x ≤ 2500 → (∀ y ∈ l, y ≤ 2500) → l.length = 3 →
      (r ≤ 50 → exec (.sensorRead d x l r) s = .next u.clockMove) ∧
      (s.cold.state = .nightfall → s.domain.member = false → 50 < r →
        exec (.sensorRead d x l r) s = .next (u.clockMove.packageEvent 0 0x0009 [1, BitVec.ofNat 64 r]))) ∧
    (s.cold.supply = true → s.cold.state = .cold ∨ s.cold.state = .twilight → r ≤ 50 →
      exec (.sensorRead d x l r) s = .next u.coldMove.coldMove.coldMove.clockMove)

/-- The slot clock that the bands ask for (R279, R285): while no band is 3 or 4, the fast one. -/
def ClockFollows : Prop :=
  ∀ s : State, (∀ b ∈ s.bands, b.val < 3) →
    s.clockMove = { s with cold := { s.cold with changing := if s.cold.slow then some false else none } }

/-- The moves of the cold state machine that readings make (R283, R284). -/
def ColdMoves : Prop :=
  ∀ s : State,
    (s.cold.state = .cold → (∃ b ∈ s.bands, b ≠ 0) → s.coldMove = s.goCold .twilight) ∧
    (s.cold.state = .cold → (∀ b ∈ s.bands, b = 0) → s.coldMove = s) ∧
    (s.cold.state = .twilight → 4 ∈ s.bands → s.coldMove = (s.goCold .daybreak).purge.leaveDomain) ∧
    (s.cold.state = .twilight → (∀ b ∈ s.bands, b = 0) → s.coldMove = s.goCold .cold) ∧
    (s.cold.state = .daybreak → (∀ x ∈ s.temps, 2500 < x) → s.coldMove = s.goCold .warm) ∧
    (s.cold.state = .warm ∨ s.cold.state = .nightfall → s.coldMove = s)

/-- NIGHTFALL_SETTLED (R283, R284): at 82 K the stacks come up, and the links of the die edges that have the modules for it (R310); every
key slot is zeroized, and the package is in COLD. -/
def NightfallEnds : Prop :=
  ∀ s : State,
    (s.cold.supply = true → s.cold.state = .nightfall → (∀ x ∈ s.temps, x ≤ 820) → ∃ u, exec .nightfallSettled s = .next u ∧
      u.cold.state = .cold ∧ (∀ k : StackId, u.hbmStacks[k].up = true ∧ u.hbmStacks[k].retraining = false) ∧ u.mem = s.mem ∧
      u.keyed = s.keyed ∧ ∀ d : DieId, u.dies[d].nextUp = decide (s.dies[d].modulesOut.length ≤ 4) ∧
      u.dies[nextDie d].prevUp = decide (s.dies[d].modulesOut.length ≤ 4) ∧ ∀ k : Fin 512, u.dies[d].keys[k] = KeySlot.zero) ∧
    (s.cold.state ≠ .nightfall → exec .nightfallSettled s = .next s)

/-- SLOT_CLOCK_CHANGE (R285) and HBM_RETRAIN_END (R281): the slot clock changes at the next revolution boundary once no word is in flight;
a package that joins a domain takes its SIDCOUNT at a revolution boundary of that count, likewise; a stack's retraining ends. -/
def ClocksChange : Prop :=
  (∀ (s : State) (b : Bool), s.cold.changing = some b →
    ((∀ c ∈ s.circuits, c.wire = []) → 0 < s.domain.wheel → ∃ u, exec .slotClockChange s = .next u ∧ u.cold.slow = b ∧ u.cold.changing = none ∧
      u.domain.sid % s.domain.wheel = 0 ∧ s.domain.sid < u.domain.sid ∧ u.domain.sid ≤ s.domain.sid + s.domain.wheel ∧
      u.mem = s.mem ∧ u.tiles = s.tiles ∧ u.circuits = s.circuits) ∧
    ((∃ c ∈ s.circuits, c.wire ≠ []) → exec .slotClockChange s = .next s)) ∧
  (∀ (s : State) (x : Int), s.cold.changing = none → s.domain.joining = some x →
    ((∀ c ∈ s.circuits, c.wire = []) → 0 < s.domain.wheel → 0 ≤ Int.ofNat s.domain.sid + x → ∃ u, exec .slotClockChange s = .next u ∧
      u.domain.member = true ∧ u.domain.joining = none ∧ u.domain.sid % s.domain.wheel = 0 ∧ u.mem = s.mem ∧ u.tiles = s.tiles ∧
      ∃ n, s.domain.sid ≤ n ∧ n < s.domain.sid + s.domain.wheel ∧ Int.ofNat u.domain.sid = Int.ofNat n + x) ∧
    ((∃ c ∈ s.circuits, c.wire ≠ []) → exec .slotClockChange s = .next s)) ∧
  (∀ s : State, s.cold.changing = none → s.domain.joining = none → exec .slotClockChange s = .next s) ∧
  (∀ (s : State) (k : StackId), exec (.hbmRetrainEnd k) s =
    .next { s with hbmStacks := s.hbmStacks.set k { s.hbmStacks[k] with retraining := false } })

/-- SUPPLY_LOSS (R31, R284): nothing of sequences, partitions, circuits or messages stays, no byte of memory can be read any more under a
key that was in use, and the stacks are down. SUPPLY_RETURN (R284, R431): the key slots are zeroized, boot has run, and the package is in
NIGHTFALL where every sensor reads at most 250 K, in WARM otherwise. -/
def SupplyComesAndGoes : Prop :=
  (∀ s : State, s.cold.supply = true → ∃ u, exec .supplyLoss s = .next u ∧ u.cold.supply = false ∧ u.cold.booted = false ∧
    (∀ q : SeqId, u.seqs[q] = none) ∧ (∀ p : PartId, u.parts[p] = none) ∧ u.circuits = [] ∧ u.relay = [] ∧ u.transfers = [] ∧
    u.mem = s.mem ∧ (∀ k : StackId, u.hbmStacks[k].up = false) ∧ ∀ x ∈ u.keyed, x.2 = s.fresh) ∧
  (∀ s : State, s.cold.supply = false → ∃ u : State, exec .supplyReturn s = .next u.clockMove ∧ u.cold.supply = true ∧ u.cold.booted = true ∧
    ((∀ x ∈ s.temps, x ≤ 2500) → u.cold.state = .nightfall) ∧ ((∃ x ∈ s.temps, 2500 < x) → u.cold.state = .warm) ∧ u.mem = s.mem ∧
    u.tiles = s.tiles ∧ ∀ (d : DieId) (k : Fin 512), u.dies[d].keys[k] = KeySlot.zero)

end Sys2Proof.Claims

open Sys2Proof Sys2Proof.Machine in
/-- The cold: bands, the state machine, the slot clock and the supply (R31, R279–R281, R283–R285, R310, R431). -/
def Obligations.ColdEvents : Prop :=
  Claims.BandsMove ∧ Claims.ReadingsTaken ∧ Claims.SensorsRead ∧ Claims.ClockFollows ∧ Claims.ColdMoves ∧ Claims.NightfallEnds ∧ Claims.ClocksChange ∧
  Claims.SupplyComesAndGoes

/-! ### Spares and lost parts -/

namespace Sys2Proof.Claims

/-- PATROL_SCRUB (R282, R309): the next line of a pseudo-channel, in ascending order and from the first again after the last, that is in
no bank. The errors found are counted for its pseudo-channel, whose 256th, or an uncorrectable one, starts a copy to a spare; an
uncorrectable one poisons the line. -/
def LinesScrubbed : Prop :=
  ∀ (s : State) (k : StackId) (n : Nat), s.cold.supply = true → n < 10 ^ 9 →
    let pa := k.val * 2 ^ 36 + 64 * n
    let pc := pseudoOf pa
    let went (x : Stack) (c e : Nat) : Stack := (x.scrubStep n).scrubbed pc (decide (n < 384)) c e
    (∀ i : Fin 3, s.hbmStacks[k].scrubDue n ≠ n → exec (.patrolScrub k n i) s = .next s) ∧
    (s.hbmStacks[k].scrubDue n = n → (∀ t : TileId, s.bankLine pa t = none) → (∀ f ∈ s.flips, f.1 ≠ pa / 32 ∧ f.1 ≠ pa / 32 + 1) →
      exec (.patrolScrub k n 0) s = .next (s.modStack k fun x => went x 0 0) ∧
      exec (.patrolScrub k n 1) s = .next (s.modStack k fun x => went x 1 0) ∧
      exec (.patrolScrub k n 2) s = .next (((s.modStack k fun x => went x 0 1).markStack pa true).markStack (pa + 32) true)) ∧
    (∀ (x : Stack) (c e : Nat), (went x c e).scrubDue n = if n + 384 < 10 ^ 9 then n + 384 else n % 384) ∧
    (∀ (x : Stack) (c e : Nat), (x.counts.find? fun y => y.1 == pc) = some (pc, (c, e)) →
      (256 ≤ c + 1 → ∃ y : Stack, x.scrubbed pc false 1 0 = y.startCopy pc) ∧ (c + 1 < 256 → (x.scrubbed pc false 1 0).copying = x.copying))

/-- PSEUDO_CHANNEL_COPY_END (R269, R309): the spare serves the pseudo-channel. -/
def CopiesEnd : Prop :=
  ∀ (s : State) (k : StackId) (c : Fin 384), c.val ∈ s.hbmStacks[k].copying → ∃ u, exec (.pseudoChannelCopyEnd k c) s = .next u ∧
    c.val ∉ u.hbmStacks[k].copying ∧ c.val ∈ u.hbmStacks[k].spared ∧ (∀ j : StackId, j ≠ k → u.hbmStacks[j] = s.hbmStacks[j]) ∧ u.mem = s.mem

/-- LANE_REPAIR (R14, R310): at a revolution boundary a spare lane takes the traffic of a failing one; a module without a spare goes out
of service, and with fewer than 20 in service the link is down. The modules of a die's next edge are 0 to 23, and module m of its previous
edge, here 24 + m, is the end of module 23 − m of the die before. -/
def LanesRepaired : Prop :=
  ∀ (s : State) (d : DieId) (n : Fin 48), 0 < s.domain.wheel → s.domain.sid % s.domain.wheel = 0 →
    let e := (edgeModule d n).1
    let m := (edgeModule d n).2
    (n.val < 24 → e = d ∧ m.val = n.val) ∧ (24 ≤ n.val → nextDie e = d ∧ m.val + (n.val - 24) = 23) ∧
    (m ∈ s.dies[e].modulesOut → exec (.laneRepair d false n) s = .next s) ∧
    (m ∉ s.dies[e].modulesOut →
      (s.dies[e].moduleSpares[m] ≠ 0 → ∃ u, exec (.laneRepair d false n) s = .next u ∧
        (u.dies[e].moduleSpares[m]).val + 1 = (s.dies[e].moduleSpares[m]).val ∧ u.dies[e].modulesOut = s.dies[e].modulesOut ∧
        u.mem = s.mem ∧ u.tiles = s.tiles) ∧
      (s.dies[e].moduleSpares[m] = 0 → s.dies[e].modulesOut.length < 4 → ∃ u, exec (.laneRepair d false n) s = .next u ∧
        u.dies[e].modulesOut = s.dies[e].modulesOut ++ [m] ∧ u.dies[e].nextUp = s.dies[e].nextUp ∧ u.mem = s.mem ∧ u.tiles = s.tiles) ∧
      (s.dies[e].moduleSpares[m] = 0 → 4 ≤ s.dies[e].modulesOut.length →
        exec (.laneRepair d false n) s = .next ((s.modDie e fun y => { y with modulesOut := y.modulesOut ++ [m] }).edgeDown e))) ∧
    (∀ h : n.val < 4, exec (.laneRepair d true n) s = .next ((s.modDie d fun x =>
      { x with peerSpare := x.peerSpare &&& ~~~(BitVec.ofNat 4 (2 ^ n.val)) }).dropLink (peerPort d ⟨n.val, h⟩))) ∧
    (4 ≤ n.val → exec (.laneRepair d true n) s = .next s)

/-- TILE_TRANSPLANT (R306–R308): a fenced tile moves to the die's next spare; without one its partition is reset. TILE_TRANSPLANT_END: the
tile goes on. An uncorrectable error in a strand's context, scoreboard or commit buffer fences its tile (R306), and a thread whose context
holds one when the tile is read is stopped, with an EVENT that names its entry of the thread table (R307). -/
def TilesMove : Prop :=
  ∀ (s : State) (t : TileId), let d := dieOf t
    let x := s.dies[d]
    (s.running t = true → s.tiles[t].core.lost ≠ [] →
      s.coreMove exec t = ({ s with cur := t } : State).fenceTile t) ∧
    (∀ k i th, (s.strandAt t k).work = .thread i → s.tiles[t].core.threads[i] = some th →
      s.liftStrand t k = if s.tiles[t].core.lost.contains k
        then (s.seqEvent d (s.strandAt t k).seq 0x000A [BitVec.ofNat 64 i.val]).endWork t k
        else s.writeFrame t th (s.strandAt t k).ctx) ∧
    (s.tiles[t].core.fenced = true → x.fenced = false → x.inReset = false → x.transplant = none → s.cold.supply = true →
      (x.sparesUsed < 16 → ∃ u n, exec (.tileTransplant t) s = .next u ∧ u.dies[d].transplant = some t ∧
        u.dies[d].sparesUsed = n + 1 ∧ (t, n) ∈ u.dies[d].moved ∧
        ((∀ k : StrandId, s.tiles[t].core.strands[k].work = .free) → n = x.sparesUsed) ∧ u.tiles[t].bank = [] ∧ u.tiles[t].near = [] ∧
        u.tiles[t].tlbLoad = [] ∧ u.tiles[t].core.icache = []) ∧
      (∀ p, 16 ≤ x.sparesUsed → s.tiles[t].part = some p → exec (.tileTransplant t) s = .next (s.resetPart p 1))) ∧
    (x.transplant = some t → ∃ u, exec (.tileTransplantEnd d) s = .next u ∧ u.dies[d].transplant = none ∧ u.dies[d].quieted = [] ∧
      u.tiles[t].core.fenced = false ∧ u.tiles[t].core.hold = false ∧ u.mem = s.mem ∧ ∀ a : TileId, a ≠ t → u.tiles[a] = s.tiles[a])

/-- DIE_LINK_DOWN (R311): the link is out of service at both ends, and each circuit that crosses it is moved, without the words that have
not passed it, or closed. DIE_SPLIT (R312): a
die that does not reach die 0 fences itself with its keys zeroized. DIE_LINK_HEAL (R312): the link is in service again. -/
def EdgesFailAndHeal : Prop :=
  ∀ (s : State) (d : DieId),
    (s.dies[d].nextUp = true ∨ s.dies[nextDie d].prevUp = true →
      exec (.dieLinkDown d) s = .next ((((s.circuits.filter fun c => c.uses.any fun x => x.crosses d).map (·.handle)).foldl
        (fun a h => a.repath (Circuit.pastEdge d) true h)
        ((s.setEdge d false).restand fun y => y.uses.any fun x => x.crosses d)).rewriteHops)) ∧
    (s.dies[d].nextUp = false → s.dies[nextDie d].prevUp = false → exec (.dieLinkDown d) s = .next s) ∧
    (s.meetsZero d = false → s.dies[d].fenced = false → ∃ u, exec (.dieSplit d) s = .next u ∧ u.dies[d].fenced = true ∧
      ∀ k : Fin 512, u.dies[d].keys[k] = KeySlot.zero) ∧
    (s.meetsZero d = true → exec (.dieSplit d) s = .next s) ∧
    (∃ u, exec (.dieLinkHeal d) s = .next u ∧ u.dies[d].nextUp = true ∧ u.dies[nextDie d].prevUp = true ∧ u.mem = s.mem)

end Sys2Proof.Claims

open Sys2Proof Sys2Proof.Machine in
/-- Scrubbing, spares, transplants and die-edge links (R14, R269, R282, R306–R312). -/
def Obligations.SparingEvents : Prop :=
  Claims.LinesScrubbed ∧ Claims.CopiesEnd ∧ Claims.LanesRepaired ∧ Claims.TilesMove ∧ Claims.EdgesFailAndHeal

/-! ### Slot domains -/

namespace Sys2Proof.Claims

/-- PEER_LINK_TRAIN and PEER_LINK_WANDER (R15, R240, R261): a link trained with the package's own W, in COLD or TWILIGHT, comes into
service with its delay in whole slots, at least 1; one that is not, or that wanders, goes out of service, and its circuits close. PEERUP
shows the link in a domain only. -/
def PeerLinksTrain : Prop :=
  ∀ (s : State) (p : Fin 16) (n w : Nat) (k : Fin 4096),
    let down := (s.cutWhere (fun c => c.peer.any fun x => x.1 == p) 1).modPort p fun y => { y with up := false }
    (s.cold.state = .cold ∨ s.cold.state = .twilight →
      (w = s.domain.wheel → ∃ u, exec (.peerLinkTrain p true n w k) s = .next u ∧ u.ports[p].up = true ∧ u.ports[p].attached = k ∧
        n ≤ 256 * u.ports[p].delay ∧ (n ≠ 0 → 256 * u.ports[p].delay < n + 256) ∧ 1 ≤ u.ports[p].delay ∧
        (u.peerUp (portDie p)).getLsbD (p.val % 4) = s.domain.member ∧
        ((∀ c ∈ s.circuits, c.peer.any (fun x => x.1 == p) = false) → (∀ q : Fin 16, q ≠ p → u.ports[q] = s.ports[q]) ∧
          u.circuits = s.circuits ∧ u.mem = s.mem)) ∧
      (∀ b, b = false ∨ w ≠ s.domain.wheel → exec (.peerLinkTrain p b n w k) s = .next down)) ∧
    (s.cold.state ≠ .cold → s.cold.state ≠ .twilight → ∀ b, exec (.peerLinkTrain p b n w k) s = .next s) ∧
    exec (.peerLinkWander p) s = .next down ∧ (down.peerUp (portDie p)).getLsbD (p.val % 4) = false

/-- The layout of the tag word (R262): PKEY, CTL and CPAY; and a CTL word that is sent stands in a tag word of its port, in a slot to
come. -/
def TagWords : Prop :=
  (∀ (k : BitVec 16) (c : Fin 16) (x : BitVec 44), tagWord k c x = k ++ BitVec.ofNat 4 c.val ++ x) ∧
  ∀ (s : State) (p : Fin 16) (c : Fin 16) (x : BitVec 44), s.domain.sid < s.ctlSlot p ∧
    ∃ (k : BitVec 16) (w : Option (BitVec 32 × BitVec 256)), (s.ctlSlot p, tagWord k c x, w) ∈ (s.sendCtl p c x).ports[p].sent

/-- SYNC_PERIOD, SYNC and DREQ (R262, R263): at a multiple of 65,536 slots the upstream end sends SYNC with the stamp of its departure; the
downstream end stamps its arrival and answers with DREQ, with the stamp of that departure; the upstream end answers with DRESP, which
carries the stamp of the DREQ's arrival. A stamp counts 1/256 slots: SIDCOUNT and a fraction of 8 bits. -/
def StampsExchanged : Prop :=
  ∀ (s : State) (p : Fin 16) (x : Stamp), let at_ := (s.domain.sid / 65536 + 1) * 65536
    let on : State := { s with domain := { s.domain with sid := at_ } }
    (s.domain.upstream ≠ some p → s.ports[p].up = true → exec (.syncPeriod p x) s =
      .next (on.sendCtl p 1 (stampPay (256 * on.ctlSlot p))) ∧
      exec (.dreq p x) s = .next (s.sendCtl p 3 (stampPay (256 * s.domain.sid + x % 256)))) ∧
    (s.domain.upstream = some p → (∃ u, exec (.syncPeriod p x) s = .next u ∧ u.ports[p].t1 = some x ∧ u.domain.sid = at_ ∧
        u.tiles = s.tiles ∧ u.mem = s.mem) ∧
      (s.ports[p].t1.isSome = true → exec (.sync p x) s = .next ((s.modPort p fun y =>
        { y with t2 := some (256 * s.domain.sid + x % 256), t3 := some (256 * s.ctlSlot p) }).sendCtl p 2 (stampPay (256 * s.ctlSlot p)))) ∧
      (∃ u, exec (.dreq p x) s = .next u ∧ u.ports[p].t4 = some x ∧ u.ports[p].t1 = s.ports[p].t1 ∧ u.tiles = s.tiles))

/-- A gap between two stamps that a stamp's 44 bits can tell. -/
def Near (a b : Stamp) : Prop := -(2 ^ 43) ≤ Int.ofNat b - Int.ofNat a ∧ Int.ofNat b - Int.ofNat a < 2 ^ 43

/-- DRESP (R239, R263, R285): from the four stamps the package computes twice its offset, (t2 − t1) − (t4 − t3), and twice its delay,
(t2 − t1) + (t4 − t3), in 1/256 slot. A member slews while the offset is above 1/16 slot and leaves the domain above 1/4; a package that is
not a member, and may join, takes the domain's SIDCOUNT at the next revolution boundary. -/
def OffsetsComputed : Prop :=
  ∀ (s : State) (p : Fin 16) (n a b c e : Nat), s.domain.upstream = some p → s.ports[p].t1 = some a → s.ports[p].t2 = some b →
    s.ports[p].t3 = some c → s.ports[p].t4 = some e → Near a b → Near c e →
    let o : Int := (Int.ofNat b - Int.ofNat a) - (Int.ofNat e - Int.ofNat c)
    let d : Int := (Int.ofNat b - Int.ofNat a) + (Int.ofNat e - Int.ofNat c)
    let shift := Int.ofNat (joinSid s.domain.sid a b c e n) - Int.ofNat s.domain.sid
    ∃ u : State, u.domain.offset = o / 2 ∧ u.domain.delay = d / 2 ∧ u.domain.slewing = decide (2 * 16 < o.natAbs) ∧ u.tiles = s.tiles ∧
      u.circuits = s.circuits ∧ u.domain.sid = s.domain.sid ∧ u.domain.member = s.domain.member ∧ u.ports[p].t1 = none ∧
      (s.domain.member = true → o.natAbs ≤ 2 * 64 → exec (.dresp p n) s = .next u) ∧
      (s.domain.member = true → 2 * 64 < o.natAbs → exec (.dresp p n) s = .next u.leaveDomain) ∧
      (s.domain.member = false → s.mayJoin = true → s.ports[p].up = true → exec (.dresp p n) s =
        .next { u with domain := { u.domain with joining := some shift } }) ∧
      (s.domain.member = false → s.mayJoin = false ∨ s.ports[p].up = false → exec (.dresp p n) s = .next u) ∧
      (s.mayJoin = true ↔ s.cold.slow = false ∧ s.cold.changing = none ∧ (∀ x ∈ s.bands, x.val < 3) ∧
        s.domain.own ∉ s.domain.fencedPkgs ∧ s.domain.own ∉ s.domain.revokedPkgs)

/-- SLOT_DOMAIN_FORMATION (R240, R263, R285): W, the packages and the upstream port are set, and with another W no peer link is in
service; W does not change while a circuit of a tenant or of a partition holds slots. -/
def DomainsForm : Prop :=
  ∀ (s : State) (w : Fin 4) (r own : Fin 4096) (up : Option (Fin 16)),
    let held := s.circuits ≠ [] ∨ s.domain.frozen ≠ [] ∨ ∃ y ∈ s.standing, y.part.isSome = true
    (¬ held ∨ s.domain.wheel = 8 * 2 ^ w.val → ∃ u, exec (.slotDomainFormation w r own up) s = .next u ∧
      u.domain.wheel = 8 * 2 ^ w.val ∧ u.domain.refPkg = r ∧ u.domain.own = own ∧ u.domain.upstream = (if own = r then none else up) ∧
      (u.domain.member = true ↔ own = r ∧ s.cold.slow = false ∧ s.cold.changing = none ∧ (∀ x ∈ s.bands, x.val < 3) ∧
        own ∉ s.domain.revokedPkgs) ∧
      (s.domain.wheel ≠ 8 * 2 ^ w.val → ∀ p : Fin 16, u.ports[p].up = false) ∧ u.domain.sid = s.domain.sid ∧ u.tiles = s.tiles ∧
      u.mem = s.mem) ∧
    (held → s.domain.wheel ≠ 8 * 2 ^ w.val → exec (.slotDomainFormation w r own up) s = .next s)

/-- No circuit of the package runs to, from or through a package. -/
def NoCircuitOf (s : State) (k : Fin 4096) : Prop := ∀ c ∈ s.circuits, c.through s.domain.own k = false

/-- REVOKE and PEER_LINK_FAILURE (R265, R266): an epoch is applied and forwarded once: every port revokes, or restores, the sixteen keys of
the package, and revocation closes its circuits and starts drain rounds. A package whose keys are revoked is sent nothing. -/
def KeysRevoked : Prop :=
  ∀ (s : State) (k : Fin 4096) (n : BitVec 12) (b : Bool),
    (n ∈ s.domain.epochs → exec (.revoke k n b) s = .next s) ∧
    (n ∉ s.domain.epochs → ∃ u, exec (.revoke k n b) s = .next u ∧ u = s.applyEpoch k n b ∧
      (b = true → n ∈ u.domain.epochs ∧ u.mem = s.mem ∧ k ∉ u.domain.revokedPkgs ∧ u.domain.fencedPkgs = s.domain.fencedPkgs ∧
        ∀ (p : Fin 16) (i : Fin 16), pkeyOf k i ∉ u.ports[p].revoked) ∧
      (b = false → NoCircuitOf s k → n ∈ u.domain.epochs ∧ u.mem = s.mem ∧ k ∈ u.domain.revokedPkgs ∧ u.domain.barred k = true ∧
        (∀ (p : Fin 16) (i : Fin 16), pkeyOf k i ∈ u.ports[p].revoked) ∧ ∃ x ∈ u.domain.drains, x.1 = k)) ∧
    (∀ p : Fin 16, s.ports[p].attached = k → exec (.peerLinkFailure p) s = .next (s.applyEpoch k s.newEpoch false))

/-- LSU_DOWN, LSU_UP, DRAIN and DRAIN_ROUND_END (R267): a fenced package is recorded, drained and sent nothing; it is readmitted only with
an LSU up word and with its keys restored; a round is entered once, its words are discarded, and after the third the closed circuits' slots are free. -/
def PackagesDrained : Prop :=
  ∀ (s : State) (k : Fin 4096),
    (k ∈ s.domain.fencedPkgs → exec (.lsuDown k) s = .next s) ∧
    (k ∉ s.domain.fencedPkgs → ∃ u, exec (.lsuDown k) s = .next u ∧
      k ∈ u.domain.fencedPkgs ∧ u.domain.barred k = true ∧ (∃ x ∈ u.domain.drains, x.1 = k) ∧
      (NoCircuitOf s k → u.mem = s.mem ∧ u.tiles = s.tiles)) ∧
    (k ∈ s.domain.fencedPkgs → ∃ u, exec (.lsuUp k) s = .next u ∧ k ∉ u.domain.fencedPkgs ∧
      (u.domain.barred k = true ↔ k ∈ s.domain.revokedPkgs) ∧ u.tiles = s.tiles ∧ u.mem = s.mem) ∧
    (k ∉ s.domain.fencedPkgs → exec (.lsuUp k) s = .next s) ∧
    (∀ r n : Fin 4, (s.domain.drains.find? fun x => x.1 == k) = some (k, n) →
      (n.val < r.val → ∃ u, exec (.drain k r) s = .next u ∧ (u.domain.drains.find? fun x => x.1 == k) = some (k, r) ∧
        ∀ c ∈ u.circuits, c.through s.domain.own k = true → c.queue = [] ∧ c.wire = []) ∧
      (r.val ≤ n.val → exec (.drain k r) s = .next s)) ∧
    (∀ n : Fin 4, (s.domain.drains.find? fun x => x.1 == k) = some (k, n) →
      (n.val < 3 → ∃ u, exec (.drainRoundEnd k) s = .next u ∧
        (∃ m : Fin 4, (u.domain.drains.find? fun x => x.1 == k) = some (k, m) ∧ m.val = n.val + 1) ∧
        (NoCircuitOf s k → u.domain.sid = s.domain.sid + 65536 ∧ u.mem = s.mem ∧ u.tiles = s.tiles)) ∧
      (n.val = 3 → ∃ u, exec (.drainRoundEnd k) s = .next u ∧ u.domain.sid = s.domain.sid + 65536 ∧
        (∀ x ∈ u.domain.drains, x.1 ≠ k) ∧ (∀ x ∈ u.domain.frozen, x.1 ≠ k) ∧ u.circuits = s.circuits ∧ u.mem = s.mem))

/-- PEER_WORD_INGRESS (R261, R265): a word with a revoked key is discarded and counted; another is forwarded, the link's P slots after an
owned slot of the circuit that it belongs to, and lands as many slots after that slot as the circuit's delay says (R232). -/
def PeerWordsLand : Prop :=
  ∀ (s : State) (p : Fin 16) (k : BitVec 16) (h : BitVec 32) (w : BitVec 256), s.ports[p].up = true →
    (k ∈ s.ports[p].revoked → ∃ u, exec (.peerWordIngress p k h w) s = .next u ∧
      u.ports[p].revokedDrops = s.ports[p].revokedDrops + 1 ∧ u.tiles = s.tiles ∧ u.circuits = s.circuits ∧ u.mem = s.mem) ∧
    (∀ c, k ∉ s.ports[p].revoked → s.circuit h = some c → c.peer = some (p, false) →
      exec (.peerWordIngress p k h w) s = .next (s.ingress c w) ∧
      ∀ (n m : Nat), n = Nat.max (Nat.max (c.lastLeft + 1) c.live) (s.domain.sid - c.lead) →
        c.departure s.domain.wheel n (2 * s.domain.wheel + (c.sets.getLast?).elim 0 (·.1)) = some m →
        let at_ : State := s.until (m + c.lead)
        n ≤ m ∧ (c.slotsAt m).contains (m % s.domain.wheel) = true ∧ m + c.lead ≤ (s.ingress c w).domain.sid ∧
        ((at_.sendAlong c m).1 = true → ∃ y, (s.ingress c w).circuit h = some y ∧ y.wire = c.wire ++ [⟨w, m + c.delay, none⟩]) ∧
        ((at_.sendAlong c m).1 = false → ∃ y, (s.ingress c w).circuit h = some y ∧ y.wire = c.wire))

end Sys2Proof.Claims

open Sys2Proof Sys2Proof.Machine in
/-- Peer links, slot domains, Occultation and drain rounds (R15, R232, R239, R240, R261–R267, R285). -/
def Obligations.SlotDomainEvents : Prop :=
  Claims.PeerLinksTrain ∧ Claims.TagWords ∧ Claims.StampsExchanged ∧ Claims.OffsetsComputed ∧ Claims.DomainsForm ∧ Claims.KeysRevoked ∧
  Claims.PackagesDrained ∧ Claims.PeerWordsLand

/-! ### The step -/

/-- CALL's link is no destination field, so another word of the bundle may name g63; both results land at n + 1, and the link lands after
the other (R111). -/
def Obligations.CallLinkWins : Prop :=
  (∀ q : BitVec 22, (usesOf (.call q)).dests = []) ∧
  (∀ (s : State) (q : BitVec 22), Performed s → ∃ l, exec (.call q) s = .next (goesTo (flying s l) (target s q.toInt) false) ∧
    l.dest = .g 63 ∧ l.val = (after s).setWidth 1024 ∧ l.due = s.ctx.clock + 1 ∧ l.cls = 2 ∧ l.fault = none) ∧
  (∀ (s : State) (x : W), gives s 63 x 1 = flying s (ordinary s (.g 63) (x.setWidth 1024) 1) ∧
    (ordinary s (.g 63) (x.setWidth 1024) 1).due = s.ctx.clock + 1 ∧ (ordinary s (.g 63) (x.setWidth 1024) 1).cls = 1) ∧
  (∀ (s : State) (t : TileId) (k : StrandId) (a b : Landing), a.dest = .g 63 → b.dest = .g 63 → a.due = b.due → a.cls = 1 → b.cls = 2 →
    a.fault = none → b.fault = none → a.due ≤ (s.strandAt t k).ctx.clock →
    (s.strandAt t k).ctx.inflight = [a, b] ∨ (s.strandAt t k).ctx.inflight = [b, a] →
    ((s.land t k).strandAt t k).ctx.g 63 = b.val.setWidth 64)

namespace Sys2Proof.Claims

/-- The foreground strand of the current tile stands at the boundary of a bundle, with nothing due there and nothing that would keep it
from issuing: a state after what has been due has landed. -/
def AtBoundary (u v : State) (k : StrandId) : Prop :=
  let t := u.cur
  let c := u.tiles[t].core
  let x := v.strandAt t k
  u.running t = true ∧ c.lost = [] ∧ c.hold = false ∧ (u.strandAt t k).ctx.tail = none ∧ c.loading = none ∧ c.fg = some k ∧ c.resched = false ∧ c.retry = 0 ∧ u.settle t = u ∧
  u.stands t k = false ∧ (u.strandAt t k).ctx.running = none ∧ (u.strandAt t k).committing = none ∧ v = u.land t k ∧
  x.ctx.due = [] ∧ x.ctx.parked = false ∧ x.ctx.sleeping = false ∧ x.ctx.halting = false ∧ x.overdue = false ∧ x.quantum < 4096 ∧
  x.ranOut = false

/-- What is done around the words of a bundle that issues (R54, R55, R59): its lines are kept, the bundle is counted, its words are
performed, and the strand goes on at its next bundle, after 1 + W cycles and those of a taken transfer. -/
def fetched1 (s : State) (x : Slot) : State :=
  { s.keepLines s.ctx.pc 1 with issue := { issueOf s.ctx.pc [x] with checked := true, first := s.fresh } }

/-- The end of a bundle of one word. -/
def after1 (s r0 : State) : State :=
  let r := r0.modCore s.cur Core.retried
  let atEnd := r.issue.atEnd
  if !atEnd && r.ctx.tail.isSome then r.elapse exec s.cur 1 true false
  else (if atEnd then r else r.epilogue).elapse exec s.cur (1 + r.issue.w + if atEnd then 0 else r.goOn.2.2) true false

/-- A next state that does not pass what is due on the wheel (R234, R238, R246). -/
def InTime (s u : State) : Prop := ∀ (n : Nat) (x : Due), s.nextDue = some (n, x) → u.domain.sid ≤ n

end Sys2Proof.Claims

/-- A step runs the decoded instruction. With an empty agenda and SIDCOUNT even, the core of the current tile moves: where its foreground
strand's next bundle is one word, which decodes to i, and passes the checks, the next state is what exec gives for i from the registers
at issue, between what is done before and after a bundle's words: an early read is marked (R59), before the word unless the word reads
state of the tile. An event at the head of the agenda is performed by exec as it stands. What is due on the wheel before the next state's
SIDCOUNT comes first. (Which agent moves next is the model's choice, log entry 13.) -/
def Obligations.StepRunsDecodedInstruction : Prop :=
  (∀ (s u v : State) (k : StrandId) (n : Nat) (w : Word) (r : State), s.agenda = [] → s.domain.sid % 2 = 0 →
    u = { s.tick with cur := s.cur } → AtBoundary u v k → (v.focus s.cur).nextBundle = .words [n] → decodeWord n = .ok w →
    let x : Slot := { pos := 0, raw := n, word := some w }
    let f := v.focus s.cur
    f.nextVerdict exec = (.pass, [x]) → f.tile.core.released = [] → f.tile.core.retryRegs = none → (fetched1 f x).mismatched [x] = false →
    (let b := (fetched1 f x).countBundle
     let e := (f.ctx.early [x]).isSome
     let a := b.markEarly e
     (rankOf x = 0 → exec w.i { b with issue := b.issue.at_ x } = .next r → InTime s (after1 f (r.markEarly e)) →
       step s = .next (after1 f (r.markEarly e))) ∧
     (rankOf x ≠ 0 → exec w.i { a with issue := a.issue.at_ x } = .next r → InTime s (after1 f r) → step s = .next (after1 f r)))) ∧
  (∀ (s u : State) (i : Instr) (l : List Move), s.agenda = .step i :: l → exec i { s with agenda := l } = .next u → InTime s u →
    step s = .next u) ∧
  (∀ (s u : State) (t : TileId) (l : List Move), s.agenda = .core t :: l → u = ({ s with agenda := l } : State).tick.coreMove exec t →
    InTime s u → step s = .next u) ∧
  (∀ (s u : State) (x : Task), s.agenda = [] → s.domain.sid % 2 = 1 → s.background = some x → s.tick.doTask x = .next u → InTime s u →
    step s = .next u) ∧
  (∀ (s u : State) (n : Nat) (x : Due), s.proposed = .next u → s.nextDue = some (n, x) → n < u.domain.sid → step s = s.doDue x)

/-- An instruction word (R51): 32 bits, fetched as the four bytes at its address in its line, the least significant first (R2), which lie
in one line where the address is 4-byte-aligned; its fields are E in bit 31, which ends the bundle (R53), W in bits 30 and 29, MAJ in bits
28 to 24, and the body, and the instruction is what MAJ and the body encode. Poison faults with the word's address (R304). -/
def Obligations.FetchReadsTheWord : Prop :=
  (∀ (n : Nat) (w : Word), n < 2 ^ 32 → decodeWord n = .ok w → ∃ maj body, maj < 2 ^ 5 ∧ body < 2 ^ 24 ∧
    n = (if w.e then 2 ^ 31 else 0) + w.w.val * 2 ^ 29 + maj * 2 ^ 24 + body ∧ encodeInstr w.i = some (maj * 2 ^ 24 + body) ∧
    ∀ (e : Bool) (k : Fin 4), decodeWord ((if e then 2 ^ 31 else 0) + k.val * 2 ^ 29 + maj * 2 ^ 24 + body) = .ok { e := e, w := k, i := w.i }) ∧
  (∀ va : W, va.toNat % 4 = 0 → va.toNat % 64 + 4 ≤ 64) ∧
  ∀ (s : State) (va : W) (l : ILine) (a b c d : Byte), s.fetchLine va = .ok l →
    (l.bytes.drop (va.toNat % 64)).take 4 = [a, b, c, d] →
    let n := a.toNat + 2 ^ 8 * b.toNat + 2 ^ 16 * c.toNat + 2 ^ 24 * d.toNat
    (l.poison = false → s.fetchWord va = .word n ∧ (d.toNat ≥ 128 → s.fetchBundle va 4 = .words [n]) ∧
      (∀ x, d.toNat < 128 → s.fetchBundle (va + 4) 3 = .words x → s.fetchBundle va 4 = .words (n :: x))) ∧
    (l.poison = true → s.fetchWord va = .fault .poison va ∧ s.fetchBundle va 4 = .stop (.fault .poison va))

/-- Every instruction answers a next state in every state, and so does every step: traps are taken, and nothing is refused. The meaning by
which the scheduler knows a strand's readiness is that of exec. -/
def Obligations.EveryInstructionAnswers : Prop :=
  (∀ (i : Instr) (s : State), ∃ t, exec i s = .next t) ∧ (∀ s : State, ∃ t, step s = .next t) ∧
  (∀ (x : Word) (s : State), (encodeWord x).isSome = true → wordExec x.i s = exec x.i s)

/-- What the spec says of the package after power-on: WARM, no partition, no sequence, no circuit, every key slot empty, peer ports down,
and no tile's core running (R31, R227, R261, R283, R284, R419, R431). Reset values that the spec does not give are no part of it. -/
def Obligations.ResetState : Prop :=
  let s := State.reset
  s.cold.state = .warm ∧ (∀ p : PartId, s.parts[p] = none) ∧ (∀ q : SeqId, s.seqs[q] = none) ∧ s.circuits = [] ∧
  (∀ (d : DieId) (k : Fin 512), s.dies[d].keys[k].state = .empty) ∧ (∀ p : Fin 16, s.ports[p].up = false) ∧
  (∀ t : TileId, s.running t = false ∧ s.tiles[t].part = none)

/-- The invariant holds after reset: memory and its keys are in their canonical form, and W is one of 8, 16, 32 and 64. -/
def Obligations.InvariantAtReset : Prop := State.reset.Inv

/-- Every step keeps the invariant: memory keeps its canonical form, so that equal memories are equal data; the record of the keys under
which bytes were written keeps its own; and W stays one of 8, 16, 32 and 64 (R232, R240). -/
def Obligations.InvariantKept : Prop := ∀ s t : State, s.Inv → step s = .next t → t.Inv
end

