-- ==== Sys2Proof/Laws/State.lean ====
section
/-! SUPPORT. The updates of a state, field by field: what each leaves unchanged, by definition. -/

namespace Sys2Proof.Machine

/-! ### modTile -/
@[simp] theorem State.modTile_dies (s : State) (t : TileId) (f : Tile → Tile) : (s.modTile t f).dies = s.dies := rfl
@[simp] theorem State.modTile_stacks (s : State) (t : TileId) (f : Tile → Tile) : (s.modTile t f).hbmStacks = s.hbmStacks := rfl
@[simp] theorem State.modTile_seqs (s : State) (t : TileId) (f : Tile → Tile) : (s.modTile t f).seqs = s.seqs := rfl
@[simp] theorem State.modTile_parts (s : State) (t : TileId) (f : Tile → Tile) : (s.modTile t f).parts = s.parts := rfl
@[simp] theorem State.modTile_mem (s : State) (t : TileId) (f : Tile → Tile) : (s.modTile t f).mem = s.mem := rfl
@[simp] theorem State.modTile_keyed (s : State) (t : TileId) (f : Tile → Tile) : (s.modTile t f).keyed = s.keyed := rfl
@[simp] theorem State.modTile_flips (s : State) (t : TileId) (f : Tile → Tile) : (s.modTile t f).flips = s.flips := rfl
@[simp] theorem State.modTile_circuits (s : State) (t : TileId) (f : Tile → Tile) : (s.modTile t f).circuits = s.circuits := rfl
@[simp] theorem State.modTile_standing (s : State) (t : TileId) (f : Tile → Tile) : (s.modTile t f).standing = s.standing := rfl
@[simp] theorem State.modTile_tables (s : State) (t : TileId) (f : Tile → Tile) : (s.modTile t f).tables = s.tables := rfl
@[simp] theorem State.modTile_pending (s : State) (t : TileId) (f : Tile → Tile) : (s.modTile t f).pending = s.pending := rfl
@[simp] theorem State.modTile_config (s : State) (t : TileId) (f : Tile → Tile) : (s.modTile t f).config = s.config := rfl
@[simp] theorem State.modTile_relay (s : State) (t : TileId) (f : Tile → Tile) : (s.modTile t f).relay = s.relay := rfl
@[simp] theorem State.modTile_sent (s : State) (t : TileId) (f : Tile → Tile) : (s.modTile t f).sent = s.sent := rfl
@[simp] theorem State.modTile_received (s : State) (t : TileId) (f : Tile → Tile) : (s.modTile t f).received = s.received := rfl
@[simp] theorem State.modTile_reductions (s : State) (t : TileId) (f : Tile → Tile) : (s.modTile t f).reductions = s.reductions := rfl
@[simp] theorem State.modTile_transfers (s : State) (t : TileId) (f : Tile → Tile) : (s.modTile t f).transfers = s.transfers := rfl
@[simp] theorem State.modTile_streams (s : State) (t : TileId) (f : Tile → Tile) : (s.modTile t f).streams = s.streams := rfl
@[simp] theorem State.modTile_hostJobs (s : State) (t : TileId) (f : Tile → Tile) : (s.modTile t f).hostJobs = s.hostJobs := rfl
@[simp] theorem State.modTile_ports (s : State) (t : TileId) (f : Tile → Tile) : (s.modTile t f).ports = s.ports := rfl
@[simp] theorem State.modTile_domain (s : State) (t : TileId) (f : Tile → Tile) : (s.modTile t f).domain = s.domain := rfl
@[simp] theorem State.modTile_cold (s : State) (t : TileId) (f : Tile → Tile) : (s.modTile t f).cold = s.cold := rfl
@[simp] theorem State.modTile_drops (s : State) (t : TileId) (f : Tile → Tile) : (s.modTile t f).drops = s.drops := rfl
@[simp] theorem State.modTile_agenda (s : State) (t : TileId) (f : Tile → Tile) : (s.modTile t f).agenda = s.agenda := rfl
@[simp] theorem State.modTile_cur (s : State) (t : TileId) (f : Tile → Tile) : (s.modTile t f).cur = s.cur := rfl
@[simp] theorem State.modTile_issue (s : State) (t : TileId) (f : Tile → Tile) : (s.modTile t f).issue = s.issue := rfl
@[simp] theorem State.modTile_free (s : State) (t : TileId) (f : Tile → Tile) : (s.modTile t f).free = s.free := rfl
@[simp] theorem State.modTile_fresh (s : State) (t : TileId) (f : Tile → Tile) : (s.modTile t f).fresh = s.fresh := rfl

/-! ### modCore -/
@[simp] theorem State.modCore_dies (s : State) (t : TileId) (f : Core → Core) : (s.modCore t f).dies = s.dies := rfl
@[simp] theorem State.modCore_stacks (s : State) (t : TileId) (f : Core → Core) : (s.modCore t f).hbmStacks = s.hbmStacks := rfl
@[simp] theorem State.modCore_seqs (s : State) (t : TileId) (f : Core → Core) : (s.modCore t f).seqs = s.seqs := rfl
@[simp] theorem State.modCore_parts (s : State) (t : TileId) (f : Core → Core) : (s.modCore t f).parts = s.parts := rfl
@[simp] theorem State.modCore_mem (s : State) (t : TileId) (f : Core → Core) : (s.modCore t f).mem = s.mem := rfl
@[simp] theorem State.modCore_keyed (s : State) (t : TileId) (f : Core → Core) : (s.modCore t f).keyed = s.keyed := rfl
@[simp] theorem State.modCore_flips (s : State) (t : TileId) (f : Core → Core) : (s.modCore t f).flips = s.flips := rfl
@[simp] theorem State.modCore_circuits (s : State) (t : TileId) (f : Core → Core) : (s.modCore t f).circuits = s.circuits := rfl
@[simp] theorem State.modCore_standing (s : State) (t : TileId) (f : Core → Core) : (s.modCore t f).standing = s.standing := rfl
@[simp] theorem State.modCore_tables (s : State) (t : TileId) (f : Core → Core) : (s.modCore t f).tables = s.tables := rfl
@[simp] theorem State.modCore_pending (s : State) (t : TileId) (f : Core → Core) : (s.modCore t f).pending = s.pending := rfl
@[simp] theorem State.modCore_config (s : State) (t : TileId) (f : Core → Core) : (s.modCore t f).config = s.config := rfl
@[simp] theorem State.modCore_relay (s : State) (t : TileId) (f : Core → Core) : (s.modCore t f).relay = s.relay := rfl
@[simp] theorem State.modCore_sent (s : State) (t : TileId) (f : Core → Core) : (s.modCore t f).sent = s.sent := rfl
@[simp] theorem State.modCore_received (s : State) (t : TileId) (f : Core → Core) : (s.modCore t f).received = s.received := rfl
@[simp] theorem State.modCore_reductions (s : State) (t : TileId) (f : Core → Core) : (s.modCore t f).reductions = s.reductions := rfl
@[simp] theorem State.modCore_transfers (s : State) (t : TileId) (f : Core → Core) : (s.modCore t f).transfers = s.transfers := rfl
@[simp] theorem State.modCore_streams (s : State) (t : TileId) (f : Core → Core) : (s.modCore t f).streams = s.streams := rfl
@[simp] theorem State.modCore_hostJobs (s : State) (t : TileId) (f : Core → Core) : (s.modCore t f).hostJobs = s.hostJobs := rfl
@[simp] theorem State.modCore_ports (s : State) (t : TileId) (f : Core → Core) : (s.modCore t f).ports = s.ports := rfl
@[simp] theorem State.modCore_domain (s : State) (t : TileId) (f : Core → Core) : (s.modCore t f).domain = s.domain := rfl
@[simp] theorem State.modCore_cold (s : State) (t : TileId) (f : Core → Core) : (s.modCore t f).cold = s.cold := rfl
@[simp] theorem State.modCore_drops (s : State) (t : TileId) (f : Core → Core) : (s.modCore t f).drops = s.drops := rfl
@[simp] theorem State.modCore_agenda (s : State) (t : TileId) (f : Core → Core) : (s.modCore t f).agenda = s.agenda := rfl
@[simp] theorem State.modCore_cur (s : State) (t : TileId) (f : Core → Core) : (s.modCore t f).cur = s.cur := rfl
@[simp] theorem State.modCore_issue (s : State) (t : TileId) (f : Core → Core) : (s.modCore t f).issue = s.issue := rfl
@[simp] theorem State.modCore_free (s : State) (t : TileId) (f : Core → Core) : (s.modCore t f).free = s.free := rfl
@[simp] theorem State.modCore_fresh (s : State) (t : TileId) (f : Core → Core) : (s.modCore t f).fresh = s.fresh := rfl

/-! ### modMatrix -/
@[simp] theorem State.modMatrix_dies (s : State) (t : TileId) (f : Matrix → Matrix) : (s.modMatrix t f).dies = s.dies := rfl
@[simp] theorem State.modMatrix_stacks (s : State) (t : TileId) (f : Matrix → Matrix) : (s.modMatrix t f).hbmStacks = s.hbmStacks := rfl
@[simp] theorem State.modMatrix_seqs (s : State) (t : TileId) (f : Matrix → Matrix) : (s.modMatrix t f).seqs = s.seqs := rfl
@[simp] theorem State.modMatrix_parts (s : State) (t : TileId) (f : Matrix → Matrix) : (s.modMatrix t f).parts = s.parts := rfl
@[simp] theorem State.modMatrix_mem (s : State) (t : TileId) (f : Matrix → Matrix) : (s.modMatrix t f).mem = s.mem := rfl
@[simp] theorem State.modMatrix_keyed (s : State) (t : TileId) (f : Matrix → Matrix) : (s.modMatrix t f).keyed = s.keyed := rfl
@[simp] theorem State.modMatrix_flips (s : State) (t : TileId) (f : Matrix → Matrix) : (s.modMatrix t f).flips = s.flips := rfl
@[simp] theorem State.modMatrix_circuits (s : State) (t : TileId) (f : Matrix → Matrix) : (s.modMatrix t f).circuits = s.circuits := rfl
@[simp] theorem State.modMatrix_standing (s : State) (t : TileId) (f : Matrix → Matrix) : (s.modMatrix t f).standing = s.standing := rfl
@[simp] theorem State.modMatrix_tables (s : State) (t : TileId) (f : Matrix → Matrix) : (s.modMatrix t f).tables = s.tables := rfl
@[simp] theorem State.modMatrix_pending (s : State) (t : TileId) (f : Matrix → Matrix) : (s.modMatrix t f).pending = s.pending := rfl
@[simp] theorem State.modMatrix_config (s : State) (t : TileId) (f : Matrix → Matrix) : (s.modMatrix t f).config = s.config := rfl
@[simp] theorem State.modMatrix_relay (s : State) (t : TileId) (f : Matrix → Matrix) : (s.modMatrix t f).relay = s.relay := rfl
@[simp] theorem State.modMatrix_sent (s : State) (t : TileId) (f : Matrix → Matrix) : (s.modMatrix t f).sent = s.sent := rfl
@[simp] theorem State.modMatrix_received (s : State) (t : TileId) (f : Matrix → Matrix) : (s.modMatrix t f).received = s.received := rfl
@[simp] theorem State.modMatrix_reductions (s : State) (t : TileId) (f : Matrix → Matrix) : (s.modMatrix t f).reductions = s.reductions := rfl
@[simp] theorem State.modMatrix_transfers (s : State) (t : TileId) (f : Matrix → Matrix) : (s.modMatrix t f).transfers = s.transfers := rfl
@[simp] theorem State.modMatrix_streams (s : State) (t : TileId) (f : Matrix → Matrix) : (s.modMatrix t f).streams = s.streams := rfl
@[simp] theorem State.modMatrix_hostJobs (s : State) (t : TileId) (f : Matrix → Matrix) : (s.modMatrix t f).hostJobs = s.hostJobs := rfl
@[simp] theorem State.modMatrix_ports (s : State) (t : TileId) (f : Matrix → Matrix) : (s.modMatrix t f).ports = s.ports := rfl
@[simp] theorem State.modMatrix_domain (s : State) (t : TileId) (f : Matrix → Matrix) : (s.modMatrix t f).domain = s.domain := rfl
@[simp] theorem State.modMatrix_cold (s : State) (t : TileId) (f : Matrix → Matrix) : (s.modMatrix t f).cold = s.cold := rfl
@[simp] theorem State.modMatrix_drops (s : State) (t : TileId) (f : Matrix → Matrix) : (s.modMatrix t f).drops = s.drops := rfl
@[simp] theorem State.modMatrix_agenda (s : State) (t : TileId) (f : Matrix → Matrix) : (s.modMatrix t f).agenda = s.agenda := rfl
@[simp] theorem State.modMatrix_cur (s : State) (t : TileId) (f : Matrix → Matrix) : (s.modMatrix t f).cur = s.cur := rfl
@[simp] theorem State.modMatrix_issue (s : State) (t : TileId) (f : Matrix → Matrix) : (s.modMatrix t f).issue = s.issue := rfl
@[simp] theorem State.modMatrix_free (s : State) (t : TileId) (f : Matrix → Matrix) : (s.modMatrix t f).free = s.free := rfl
@[simp] theorem State.modMatrix_fresh (s : State) (t : TileId) (f : Matrix → Matrix) : (s.modMatrix t f).fresh = s.fresh := rfl

/-! ### modStrandAt -/
@[simp] theorem State.modStrandAt_dies (s : State) (t : TileId) (k : StrandId) (f : Strand → Strand) : (s.modStrandAt t k f).dies = s.dies := rfl
@[simp] theorem State.modStrandAt_stacks (s : State) (t : TileId) (k : StrandId) (f : Strand → Strand) : (s.modStrandAt t k f).hbmStacks = s.hbmStacks := rfl
@[simp] theorem State.modStrandAt_seqs (s : State) (t : TileId) (k : StrandId) (f : Strand → Strand) : (s.modStrandAt t k f).seqs = s.seqs := rfl
@[simp] theorem State.modStrandAt_parts (s : State) (t : TileId) (k : StrandId) (f : Strand → Strand) : (s.modStrandAt t k f).parts = s.parts := rfl
@[simp] theorem State.modStrandAt_mem (s : State) (t : TileId) (k : StrandId) (f : Strand → Strand) : (s.modStrandAt t k f).mem = s.mem := rfl
@[simp] theorem State.modStrandAt_keyed (s : State) (t : TileId) (k : StrandId) (f : Strand → Strand) : (s.modStrandAt t k f).keyed = s.keyed := rfl
@[simp] theorem State.modStrandAt_flips (s : State) (t : TileId) (k : StrandId) (f : Strand → Strand) : (s.modStrandAt t k f).flips = s.flips := rfl
@[simp] theorem State.modStrandAt_circuits (s : State) (t : TileId) (k : StrandId) (f : Strand → Strand) : (s.modStrandAt t k f).circuits = s.circuits := rfl
@[simp] theorem State.modStrandAt_standing (s : State) (t : TileId) (k : StrandId) (f : Strand → Strand) : (s.modStrandAt t k f).standing = s.standing := rfl
@[simp] theorem State.modStrandAt_tables (s : State) (t : TileId) (k : StrandId) (f : Strand → Strand) : (s.modStrandAt t k f).tables = s.tables := rfl
@[simp] theorem State.modStrandAt_pending (s : State) (t : TileId) (k : StrandId) (f : Strand → Strand) : (s.modStrandAt t k f).pending = s.pending := rfl
@[simp] theorem State.modStrandAt_config (s : State) (t : TileId) (k : StrandId) (f : Strand → Strand) : (s.modStrandAt t k f).config = s.config := rfl
@[simp] theorem State.modStrandAt_relay (s : State) (t : TileId) (k : StrandId) (f : Strand → Strand) : (s.modStrandAt t k f).relay = s.relay := rfl
@[simp] theorem State.modStrandAt_sent (s : State) (t : TileId) (k : StrandId) (f : Strand → Strand) : (s.modStrandAt t k f).sent = s.sent := rfl
@[simp] theorem State.modStrandAt_received (s : State) (t : TileId) (k : StrandId) (f : Strand → Strand) : (s.modStrandAt t k f).received = s.received := rfl
@[simp] theorem State.modStrandAt_reductions (s : State) (t : TileId) (k : StrandId) (f : Strand → Strand) : (s.modStrandAt t k f).reductions = s.reductions := rfl
@[simp] theorem State.modStrandAt_transfers (s : State) (t : TileId) (k : StrandId) (f : Strand → Strand) : (s.modStrandAt t k f).transfers = s.transfers := rfl
@[simp] theorem State.modStrandAt_streams (s : State) (t : TileId) (k : StrandId) (f : Strand → Strand) : (s.modStrandAt t k f).streams = s.streams := rfl
@[simp] theorem State.modStrandAt_hostJobs (s : State) (t : TileId) (k : StrandId) (f : Strand → Strand) : (s.modStrandAt t k f).hostJobs = s.hostJobs := rfl
@[simp] theorem State.modStrandAt_ports (s : State) (t : TileId) (k : StrandId) (f : Strand → Strand) : (s.modStrandAt t k f).ports = s.ports := rfl
@[simp] theorem State.modStrandAt_domain (s : State) (t : TileId) (k : StrandId) (f : Strand → Strand) : (s.modStrandAt t k f).domain = s.domain := rfl
@[simp] theorem State.modStrandAt_cold (s : State) (t : TileId) (k : StrandId) (f : Strand → Strand) : (s.modStrandAt t k f).cold = s.cold := rfl
@[simp] theorem State.modStrandAt_drops (s : State) (t : TileId) (k : StrandId) (f : Strand → Strand) : (s.modStrandAt t k f).drops = s.drops := rfl
@[simp] theorem State.modStrandAt_agenda (s : State) (t : TileId) (k : StrandId) (f : Strand → Strand) : (s.modStrandAt t k f).agenda = s.agenda := rfl
@[simp] theorem State.modStrandAt_cur (s : State) (t : TileId) (k : StrandId) (f : Strand → Strand) : (s.modStrandAt t k f).cur = s.cur := rfl
@[simp] theorem State.modStrandAt_issue (s : State) (t : TileId) (k : StrandId) (f : Strand → Strand) : (s.modStrandAt t k f).issue = s.issue := rfl
@[simp] theorem State.modStrandAt_free (s : State) (t : TileId) (k : StrandId) (f : Strand → Strand) : (s.modStrandAt t k f).free = s.free := rfl
@[simp] theorem State.modStrandAt_fresh (s : State) (t : TileId) (k : StrandId) (f : Strand → Strand) : (s.modStrandAt t k f).fresh = s.fresh := rfl

/-! ### modStrand -/
@[simp] theorem State.modStrand_dies (s : State) (f : Strand → Strand) : (s.modStrand f).dies = s.dies := rfl
@[simp] theorem State.modStrand_stacks (s : State) (f : Strand → Strand) : (s.modStrand f).hbmStacks = s.hbmStacks := rfl
@[simp] theorem State.modStrand_seqs (s : State) (f : Strand → Strand) : (s.modStrand f).seqs = s.seqs := rfl
@[simp] theorem State.modStrand_parts (s : State) (f : Strand → Strand) : (s.modStrand f).parts = s.parts := rfl
@[simp] theorem State.modStrand_mem (s : State) (f : Strand → Strand) : (s.modStrand f).mem = s.mem := rfl
@[simp] theorem State.modStrand_keyed (s : State) (f : Strand → Strand) : (s.modStrand f).keyed = s.keyed := rfl
@[simp] theorem State.modStrand_flips (s : State) (f : Strand → Strand) : (s.modStrand f).flips = s.flips := rfl
@[simp] theorem State.modStrand_circuits (s : State) (f : Strand → Strand) : (s.modStrand f).circuits = s.circuits := rfl
@[simp] theorem State.modStrand_standing (s : State) (f : Strand → Strand) : (s.modStrand f).standing = s.standing := rfl
@[simp] theorem State.modStrand_tables (s : State) (f : Strand → Strand) : (s.modStrand f).tables = s.tables := rfl
@[simp] theorem State.modStrand_pending (s : State) (f : Strand → Strand) : (s.modStrand f).pending = s.pending := rfl
@[simp] theorem State.modStrand_config (s : State) (f : Strand → Strand) : (s.modStrand f).config = s.config := rfl
@[simp] theorem State.modStrand_relay (s : State) (f : Strand → Strand) : (s.modStrand f).relay = s.relay := rfl
@[simp] theorem State.modStrand_sent (s : State) (f : Strand → Strand) : (s.modStrand f).sent = s.sent := rfl
@[simp] theorem State.modStrand_received (s : State) (f : Strand → Strand) : (s.modStrand f).received = s.received := rfl
@[simp] theorem State.modStrand_reductions (s : State) (f : Strand → Strand) : (s.modStrand f).reductions = s.reductions := rfl
@[simp] theorem State.modStrand_transfers (s : State) (f : Strand → Strand) : (s.modStrand f).transfers = s.transfers := rfl
@[simp] theorem State.modStrand_streams (s : State) (f : Strand → Strand) : (s.modStrand f).streams = s.streams := rfl
@[simp] theorem State.modStrand_hostJobs (s : State) (f : Strand → Strand) : (s.modStrand f).hostJobs = s.hostJobs := rfl
@[simp] theorem State.modStrand_ports (s : State) (f : Strand → Strand) : (s.modStrand f).ports = s.ports := rfl
@[simp] theorem State.modStrand_domain (s : State) (f : Strand → Strand) : (s.modStrand f).domain = s.domain := rfl
@[simp] theorem State.modStrand_cold (s : State) (f : Strand → Strand) : (s.modStrand f).cold = s.cold := rfl
@[simp] theorem State.modStrand_drops (s : State) (f : Strand → Strand) : (s.modStrand f).drops = s.drops := rfl
@[simp] theorem State.modStrand_agenda (s : State) (f : Strand → Strand) : (s.modStrand f).agenda = s.agenda := rfl
@[simp] theorem State.modStrand_cur (s : State) (f : Strand → Strand) : (s.modStrand f).cur = s.cur := rfl
@[simp] theorem State.modStrand_issue (s : State) (f : Strand → Strand) : (s.modStrand f).issue = s.issue := rfl
@[simp] theorem State.modStrand_free (s : State) (f : Strand → Strand) : (s.modStrand f).free = s.free := rfl
@[simp] theorem State.modStrand_fresh (s : State) (f : Strand → Strand) : (s.modStrand f).fresh = s.fresh := rfl

/-! ### modCtx -/
@[simp] theorem State.modCtx_dies (s : State) (f : Ctx → Ctx) : (s.modCtx f).dies = s.dies := rfl
@[simp] theorem State.modCtx_stacks (s : State) (f : Ctx → Ctx) : (s.modCtx f).hbmStacks = s.hbmStacks := rfl
@[simp] theorem State.modCtx_seqs (s : State) (f : Ctx → Ctx) : (s.modCtx f).seqs = s.seqs := rfl
@[simp] theorem State.modCtx_parts (s : State) (f : Ctx → Ctx) : (s.modCtx f).parts = s.parts := rfl
@[simp] theorem State.modCtx_mem (s : State) (f : Ctx → Ctx) : (s.modCtx f).mem = s.mem := rfl
@[simp] theorem State.modCtx_keyed (s : State) (f : Ctx → Ctx) : (s.modCtx f).keyed = s.keyed := rfl
@[simp] theorem State.modCtx_flips (s : State) (f : Ctx → Ctx) : (s.modCtx f).flips = s.flips := rfl
@[simp] theorem State.modCtx_circuits (s : State) (f : Ctx → Ctx) : (s.modCtx f).circuits = s.circuits := rfl
@[simp] theorem State.modCtx_standing (s : State) (f : Ctx → Ctx) : (s.modCtx f).standing = s.standing := rfl
@[simp] theorem State.modCtx_tables (s : State) (f : Ctx → Ctx) : (s.modCtx f).tables = s.tables := rfl
@[simp] theorem State.modCtx_pending (s : State) (f : Ctx → Ctx) : (s.modCtx f).pending = s.pending := rfl
@[simp] theorem State.modCtx_config (s : State) (f : Ctx → Ctx) : (s.modCtx f).config = s.config := rfl
@[simp] theorem State.modCtx_relay (s : State) (f : Ctx → Ctx) : (s.modCtx f).relay = s.relay := rfl
@[simp] theorem State.modCtx_sent (s : State) (f : Ctx → Ctx) : (s.modCtx f).sent = s.sent := rfl
@[simp] theorem State.modCtx_received (s : State) (f : Ctx → Ctx) : (s.modCtx f).received = s.received := rfl
@[simp] theorem State.modCtx_reductions (s : State) (f : Ctx → Ctx) : (s.modCtx f).reductions = s.reductions := rfl
@[simp] theorem State.modCtx_transfers (s : State) (f : Ctx → Ctx) : (s.modCtx f).transfers = s.transfers := rfl
@[simp] theorem State.modCtx_streams (s : State) (f : Ctx → Ctx) : (s.modCtx f).streams = s.streams := rfl
@[simp] theorem State.modCtx_hostJobs (s : State) (f : Ctx → Ctx) : (s.modCtx f).hostJobs = s.hostJobs := rfl
@[simp] theorem State.modCtx_ports (s : State) (f : Ctx → Ctx) : (s.modCtx f).ports = s.ports := rfl
@[simp] theorem State.modCtx_domain (s : State) (f : Ctx → Ctx) : (s.modCtx f).domain = s.domain := rfl
@[simp] theorem State.modCtx_cold (s : State) (f : Ctx → Ctx) : (s.modCtx f).cold = s.cold := rfl
@[simp] theorem State.modCtx_drops (s : State) (f : Ctx → Ctx) : (s.modCtx f).drops = s.drops := rfl
@[simp] theorem State.modCtx_agenda (s : State) (f : Ctx → Ctx) : (s.modCtx f).agenda = s.agenda := rfl
@[simp] theorem State.modCtx_cur (s : State) (f : Ctx → Ctx) : (s.modCtx f).cur = s.cur := rfl
@[simp] theorem State.modCtx_issue (s : State) (f : Ctx → Ctx) : (s.modCtx f).issue = s.issue := rfl
@[simp] theorem State.modCtx_free (s : State) (f : Ctx → Ctx) : (s.modCtx f).free = s.free := rfl
@[simp] theorem State.modCtx_fresh (s : State) (f : Ctx → Ctx) : (s.modCtx f).fresh = s.fresh := rfl

/-! ### modDie -/
@[simp] theorem State.modDie_tiles (s : State) (d : DieId) (f : Die → Die) : (s.modDie d f).tiles = s.tiles := rfl
@[simp] theorem State.modDie_stacks (s : State) (d : DieId) (f : Die → Die) : (s.modDie d f).hbmStacks = s.hbmStacks := rfl
@[simp] theorem State.modDie_seqs (s : State) (d : DieId) (f : Die → Die) : (s.modDie d f).seqs = s.seqs := rfl
@[simp] theorem State.modDie_parts (s : State) (d : DieId) (f : Die → Die) : (s.modDie d f).parts = s.parts := rfl
@[simp] theorem State.modDie_mem (s : State) (d : DieId) (f : Die → Die) : (s.modDie d f).mem = s.mem := rfl
@[simp] theorem State.modDie_keyed (s : State) (d : DieId) (f : Die → Die) : (s.modDie d f).keyed = s.keyed := rfl
@[simp] theorem State.modDie_flips (s : State) (d : DieId) (f : Die → Die) : (s.modDie d f).flips = s.flips := rfl
@[simp] theorem State.modDie_circuits (s : State) (d : DieId) (f : Die → Die) : (s.modDie d f).circuits = s.circuits := rfl
@[simp] theorem State.modDie_standing (s : State) (d : DieId) (f : Die → Die) : (s.modDie d f).standing = s.standing := rfl
@[simp] theorem State.modDie_tables (s : State) (d : DieId) (f : Die → Die) : (s.modDie d f).tables = s.tables := rfl
@[simp] theorem State.modDie_pending (s : State) (d : DieId) (f : Die → Die) : (s.modDie d f).pending = s.pending := rfl
@[simp] theorem State.modDie_config (s : State) (d : DieId) (f : Die → Die) : (s.modDie d f).config = s.config := rfl
@[simp] theorem State.modDie_relay (s : State) (d : DieId) (f : Die → Die) : (s.modDie d f).relay = s.relay := rfl
@[simp] theorem State.modDie_sent (s : State) (d : DieId) (f : Die → Die) : (s.modDie d f).sent = s.sent := rfl
@[simp] theorem State.modDie_received (s : State) (d : DieId) (f : Die → Die) : (s.modDie d f).received = s.received := rfl
@[simp] theorem State.modDie_reductions (s : State) (d : DieId) (f : Die → Die) : (s.modDie d f).reductions = s.reductions := rfl
@[simp] theorem State.modDie_transfers (s : State) (d : DieId) (f : Die → Die) : (s.modDie d f).transfers = s.transfers := rfl
@[simp] theorem State.modDie_streams (s : State) (d : DieId) (f : Die → Die) : (s.modDie d f).streams = s.streams := rfl
@[simp] theorem State.modDie_hostJobs (s : State) (d : DieId) (f : Die → Die) : (s.modDie d f).hostJobs = s.hostJobs := rfl
@[simp] theorem State.modDie_ports (s : State) (d : DieId) (f : Die → Die) : (s.modDie d f).ports = s.ports := rfl
@[simp] theorem State.modDie_domain (s : State) (d : DieId) (f : Die → Die) : (s.modDie d f).domain = s.domain := rfl
@[simp] theorem State.modDie_cold (s : State) (d : DieId) (f : Die → Die) : (s.modDie d f).cold = s.cold := rfl
@[simp] theorem State.modDie_drops (s : State) (d : DieId) (f : Die → Die) : (s.modDie d f).drops = s.drops := rfl
@[simp] theorem State.modDie_agenda (s : State) (d : DieId) (f : Die → Die) : (s.modDie d f).agenda = s.agenda := rfl
@[simp] theorem State.modDie_cur (s : State) (d : DieId) (f : Die → Die) : (s.modDie d f).cur = s.cur := rfl
@[simp] theorem State.modDie_issue (s : State) (d : DieId) (f : Die → Die) : (s.modDie d f).issue = s.issue := rfl
@[simp] theorem State.modDie_free (s : State) (d : DieId) (f : Die → Die) : (s.modDie d f).free = s.free := rfl
@[simp] theorem State.modDie_fresh (s : State) (d : DieId) (f : Die → Die) : (s.modDie d f).fresh = s.fresh := rfl

/-! ### modStack -/
@[simp] theorem State.modStack_tiles (s : State) (k : StackId) (f : Stack → Stack) : (s.modStack k f).tiles = s.tiles := rfl
@[simp] theorem State.modStack_dies (s : State) (k : StackId) (f : Stack → Stack) : (s.modStack k f).dies = s.dies := rfl
@[simp] theorem State.modStack_seqs (s : State) (k : StackId) (f : Stack → Stack) : (s.modStack k f).seqs = s.seqs := rfl
@[simp] theorem State.modStack_parts (s : State) (k : StackId) (f : Stack → Stack) : (s.modStack k f).parts = s.parts := rfl
@[simp] theorem State.modStack_mem (s : State) (k : StackId) (f : Stack → Stack) : (s.modStack k f).mem = s.mem := rfl
@[simp] theorem State.modStack_keyed (s : State) (k : StackId) (f : Stack → Stack) : (s.modStack k f).keyed = s.keyed := rfl
@[simp] theorem State.modStack_flips (s : State) (k : StackId) (f : Stack → Stack) : (s.modStack k f).flips = s.flips := rfl
@[simp] theorem State.modStack_circuits (s : State) (k : StackId) (f : Stack → Stack) : (s.modStack k f).circuits = s.circuits := rfl
@[simp] theorem State.modStack_standing (s : State) (k : StackId) (f : Stack → Stack) : (s.modStack k f).standing = s.standing := rfl
@[simp] theorem State.modStack_tables (s : State) (k : StackId) (f : Stack → Stack) : (s.modStack k f).tables = s.tables := rfl
@[simp] theorem State.modStack_pending (s : State) (k : StackId) (f : Stack → Stack) : (s.modStack k f).pending = s.pending := rfl
@[simp] theorem State.modStack_config (s : State) (k : StackId) (f : Stack → Stack) : (s.modStack k f).config = s.config := rfl
@[simp] theorem State.modStack_relay (s : State) (k : StackId) (f : Stack → Stack) : (s.modStack k f).relay = s.relay := rfl
@[simp] theorem State.modStack_sent (s : State) (k : StackId) (f : Stack → Stack) : (s.modStack k f).sent = s.sent := rfl
@[simp] theorem State.modStack_received (s : State) (k : StackId) (f : Stack → Stack) : (s.modStack k f).received = s.received := rfl
@[simp] theorem State.modStack_reductions (s : State) (k : StackId) (f : Stack → Stack) : (s.modStack k f).reductions = s.reductions := rfl
@[simp] theorem State.modStack_transfers (s : State) (k : StackId) (f : Stack → Stack) : (s.modStack k f).transfers = s.transfers := rfl
@[simp] theorem State.modStack_streams (s : State) (k : StackId) (f : Stack → Stack) : (s.modStack k f).streams = s.streams := rfl
@[simp] theorem State.modStack_hostJobs (s : State) (k : StackId) (f : Stack → Stack) : (s.modStack k f).hostJobs = s.hostJobs := rfl
@[simp] theorem State.modStack_ports (s : State) (k : StackId) (f : Stack → Stack) : (s.modStack k f).ports = s.ports := rfl
@[simp] theorem State.modStack_domain (s : State) (k : StackId) (f : Stack → Stack) : (s.modStack k f).domain = s.domain := rfl
@[simp] theorem State.modStack_cold (s : State) (k : StackId) (f : Stack → Stack) : (s.modStack k f).cold = s.cold := rfl
@[simp] theorem State.modStack_drops (s : State) (k : StackId) (f : Stack → Stack) : (s.modStack k f).drops = s.drops := rfl
@[simp] theorem State.modStack_agenda (s : State) (k : StackId) (f : Stack → Stack) : (s.modStack k f).agenda = s.agenda := rfl
@[simp] theorem State.modStack_cur (s : State) (k : StackId) (f : Stack → Stack) : (s.modStack k f).cur = s.cur := rfl
@[simp] theorem State.modStack_issue (s : State) (k : StackId) (f : Stack → Stack) : (s.modStack k f).issue = s.issue := rfl
@[simp] theorem State.modStack_free (s : State) (k : StackId) (f : Stack → Stack) : (s.modStack k f).free = s.free := rfl
@[simp] theorem State.modStack_fresh (s : State) (k : StackId) (f : Stack → Stack) : (s.modStack k f).fresh = s.fresh := rfl

/-! ### bump -/
@[simp] theorem State.bump_tiles (s : State) : (s.bump).tiles = s.tiles := rfl
@[simp] theorem State.bump_dies (s : State) : (s.bump).dies = s.dies := rfl
@[simp] theorem State.bump_stacks (s : State) : (s.bump).hbmStacks = s.hbmStacks := rfl
@[simp] theorem State.bump_seqs (s : State) : (s.bump).seqs = s.seqs := rfl
@[simp] theorem State.bump_parts (s : State) : (s.bump).parts = s.parts := rfl
@[simp] theorem State.bump_mem (s : State) : (s.bump).mem = s.mem := rfl
@[simp] theorem State.bump_keyed (s : State) : (s.bump).keyed = s.keyed := rfl
@[simp] theorem State.bump_flips (s : State) : (s.bump).flips = s.flips := rfl
@[simp] theorem State.bump_circuits (s : State) : (s.bump).circuits = s.circuits := rfl
@[simp] theorem State.bump_standing (s : State) : (s.bump).standing = s.standing := rfl
@[simp] theorem State.bump_tables (s : State) : (s.bump).tables = s.tables := rfl
@[simp] theorem State.bump_pending (s : State) : (s.bump).pending = s.pending := rfl
@[simp] theorem State.bump_config (s : State) : (s.bump).config = s.config := rfl
@[simp] theorem State.bump_relay (s : State) : (s.bump).relay = s.relay := rfl
@[simp] theorem State.bump_sent (s : State) : (s.bump).sent = s.sent := rfl
@[simp] theorem State.bump_received (s : State) : (s.bump).received = s.received := rfl
@[simp] theorem State.bump_reductions (s : State) : (s.bump).reductions = s.reductions := rfl
@[simp] theorem State.bump_transfers (s : State) : (s.bump).transfers = s.transfers := rfl
@[simp] theorem State.bump_streams (s : State) : (s.bump).streams = s.streams := rfl
@[simp] theorem State.bump_hostJobs (s : State) : (s.bump).hostJobs = s.hostJobs := rfl
@[simp] theorem State.bump_ports (s : State) : (s.bump).ports = s.ports := rfl
@[simp] theorem State.bump_domain (s : State) : (s.bump).domain = s.domain := rfl
@[simp] theorem State.bump_cold (s : State) : (s.bump).cold = s.cold := rfl
@[simp] theorem State.bump_drops (s : State) : (s.bump).drops = s.drops := rfl
@[simp] theorem State.bump_agenda (s : State) : (s.bump).agenda = s.agenda := rfl
@[simp] theorem State.bump_cur (s : State) : (s.bump).cur = s.cur := rfl
@[simp] theorem State.bump_issue (s : State) : (s.bump).issue = s.issue := rfl
@[simp] theorem State.bump_free (s : State) : (s.bump).free = s.free := rfl

/-! ### useFree -/
@[simp] theorem State.useFree_tiles (s : State) : (s.useFree).tiles = s.tiles := rfl
@[simp] theorem State.useFree_dies (s : State) : (s.useFree).dies = s.dies := rfl
@[simp] theorem State.useFree_stacks (s : State) : (s.useFree).hbmStacks = s.hbmStacks := rfl
@[simp] theorem State.useFree_seqs (s : State) : (s.useFree).seqs = s.seqs := rfl
@[simp] theorem State.useFree_parts (s : State) : (s.useFree).parts = s.parts := rfl
@[simp] theorem State.useFree_mem (s : State) : (s.useFree).mem = s.mem := rfl
@[simp] theorem State.useFree_keyed (s : State) : (s.useFree).keyed = s.keyed := rfl
@[simp] theorem State.useFree_flips (s : State) : (s.useFree).flips = s.flips := rfl
@[simp] theorem State.useFree_circuits (s : State) : (s.useFree).circuits = s.circuits := rfl
@[simp] theorem State.useFree_standing (s : State) : (s.useFree).standing = s.standing := rfl
@[simp] theorem State.useFree_tables (s : State) : (s.useFree).tables = s.tables := rfl
@[simp] theorem State.useFree_pending (s : State) : (s.useFree).pending = s.pending := rfl
@[simp] theorem State.useFree_config (s : State) : (s.useFree).config = s.config := rfl
@[simp] theorem State.useFree_relay (s : State) : (s.useFree).relay = s.relay := rfl
@[simp] theorem State.useFree_sent (s : State) : (s.useFree).sent = s.sent := rfl
@[simp] theorem State.useFree_received (s : State) : (s.useFree).received = s.received := rfl
@[simp] theorem State.useFree_reductions (s : State) : (s.useFree).reductions = s.reductions := rfl
@[simp] theorem State.useFree_transfers (s : State) : (s.useFree).transfers = s.transfers := rfl
@[simp] theorem State.useFree_streams (s : State) : (s.useFree).streams = s.streams := rfl
@[simp] theorem State.useFree_hostJobs (s : State) : (s.useFree).hostJobs = s.hostJobs := rfl
@[simp] theorem State.useFree_ports (s : State) : (s.useFree).ports = s.ports := rfl
@[simp] theorem State.useFree_domain (s : State) : (s.useFree).domain = s.domain := rfl
@[simp] theorem State.useFree_cold (s : State) : (s.useFree).cold = s.cold := rfl
@[simp] theorem State.useFree_drops (s : State) : (s.useFree).drops = s.drops := rfl
@[simp] theorem State.useFree_agenda (s : State) : (s.useFree).agenda = s.agenda := rfl
@[simp] theorem State.useFree_cur (s : State) : (s.useFree).cur = s.cur := rfl
@[simp] theorem State.useFree_issue (s : State) : (s.useFree).issue = s.issue := rfl
@[simp] theorem State.useFree_fresh (s : State) : (s.useFree).fresh = s.fresh := rfl

/-! ### setByte -/
@[simp] theorem State.setByte_tiles (s : State) (key : KeyView) (a : Nat) (x : Byte) : (s.setByte key a x).tiles = s.tiles := rfl
@[simp] theorem State.setByte_dies (s : State) (key : KeyView) (a : Nat) (x : Byte) : (s.setByte key a x).dies = s.dies := rfl
@[simp] theorem State.setByte_stacks (s : State) (key : KeyView) (a : Nat) (x : Byte) : (s.setByte key a x).hbmStacks = s.hbmStacks := rfl
@[simp] theorem State.setByte_seqs (s : State) (key : KeyView) (a : Nat) (x : Byte) : (s.setByte key a x).seqs = s.seqs := rfl
@[simp] theorem State.setByte_parts (s : State) (key : KeyView) (a : Nat) (x : Byte) : (s.setByte key a x).parts = s.parts := rfl
@[simp] theorem State.setByte_flips (s : State) (key : KeyView) (a : Nat) (x : Byte) : (s.setByte key a x).flips = s.flips := rfl
@[simp] theorem State.setByte_circuits (s : State) (key : KeyView) (a : Nat) (x : Byte) : (s.setByte key a x).circuits = s.circuits := rfl
@[simp] theorem State.setByte_standing (s : State) (key : KeyView) (a : Nat) (x : Byte) : (s.setByte key a x).standing = s.standing := rfl
@[simp] theorem State.setByte_tables (s : State) (key : KeyView) (a : Nat) (x : Byte) : (s.setByte key a x).tables = s.tables := rfl
@[simp] theorem State.setByte_pending (s : State) (key : KeyView) (a : Nat) (x : Byte) : (s.setByte key a x).pending = s.pending := rfl
@[simp] theorem State.setByte_config (s : State) (key : KeyView) (a : Nat) (x : Byte) : (s.setByte key a x).config = s.config := rfl
@[simp] theorem State.setByte_relay (s : State) (key : KeyView) (a : Nat) (x : Byte) : (s.setByte key a x).relay = s.relay := rfl
@[simp] theorem State.setByte_sent (s : State) (key : KeyView) (a : Nat) (x : Byte) : (s.setByte key a x).sent = s.sent := rfl
@[simp] theorem State.setByte_received (s : State) (key : KeyView) (a : Nat) (x : Byte) : (s.setByte key a x).received = s.received := rfl
@[simp] theorem State.setByte_reductions (s : State) (key : KeyView) (a : Nat) (x : Byte) : (s.setByte key a x).reductions = s.reductions := rfl
@[simp] theorem State.setByte_transfers (s : State) (key : KeyView) (a : Nat) (x : Byte) : (s.setByte key a x).transfers = s.transfers := rfl
@[simp] theorem State.setByte_streams (s : State) (key : KeyView) (a : Nat) (x : Byte) : (s.setByte key a x).streams = s.streams := rfl
@[simp] theorem State.setByte_hostJobs (s : State) (key : KeyView) (a : Nat) (x : Byte) : (s.setByte key a x).hostJobs = s.hostJobs := rfl
@[simp] theorem State.setByte_ports (s : State) (key : KeyView) (a : Nat) (x : Byte) : (s.setByte key a x).ports = s.ports := rfl
@[simp] theorem State.setByte_domain (s : State) (key : KeyView) (a : Nat) (x : Byte) : (s.setByte key a x).domain = s.domain := rfl
@[simp] theorem State.setByte_cold (s : State) (key : KeyView) (a : Nat) (x : Byte) : (s.setByte key a x).cold = s.cold := rfl
@[simp] theorem State.setByte_drops (s : State) (key : KeyView) (a : Nat) (x : Byte) : (s.setByte key a x).drops = s.drops := rfl
@[simp] theorem State.setByte_agenda (s : State) (key : KeyView) (a : Nat) (x : Byte) : (s.setByte key a x).agenda = s.agenda := rfl
@[simp] theorem State.setByte_cur (s : State) (key : KeyView) (a : Nat) (x : Byte) : (s.setByte key a x).cur = s.cur := rfl
@[simp] theorem State.setByte_issue (s : State) (key : KeyView) (a : Nat) (x : Byte) : (s.setByte key a x).issue = s.issue := rfl
@[simp] theorem State.setByte_free (s : State) (key : KeyView) (a : Nat) (x : Byte) : (s.setByte key a x).free = s.free := rfl
@[simp] theorem State.setByte_fresh (s : State) (key : KeyView) (a : Nat) (x : Byte) : (s.setByte key a x).fresh = s.fresh := rfl

/-! ### fly -/
@[simp] theorem State.fly_dies (s : State) (f : Nat → W → Landing) : (s.fly f).dies = s.dies := rfl
@[simp] theorem State.fly_stacks (s : State) (f : Nat → W → Landing) : (s.fly f).hbmStacks = s.hbmStacks := rfl
@[simp] theorem State.fly_seqs (s : State) (f : Nat → W → Landing) : (s.fly f).seqs = s.seqs := rfl
@[simp] theorem State.fly_parts (s : State) (f : Nat → W → Landing) : (s.fly f).parts = s.parts := rfl
@[simp] theorem State.fly_mem (s : State) (f : Nat → W → Landing) : (s.fly f).mem = s.mem := rfl
@[simp] theorem State.fly_keyed (s : State) (f : Nat → W → Landing) : (s.fly f).keyed = s.keyed := rfl
@[simp] theorem State.fly_flips (s : State) (f : Nat → W → Landing) : (s.fly f).flips = s.flips := rfl
@[simp] theorem State.fly_circuits (s : State) (f : Nat → W → Landing) : (s.fly f).circuits = s.circuits := rfl
@[simp] theorem State.fly_standing (s : State) (f : Nat → W → Landing) : (s.fly f).standing = s.standing := rfl
@[simp] theorem State.fly_tables (s : State) (f : Nat → W → Landing) : (s.fly f).tables = s.tables := rfl
@[simp] theorem State.fly_pending (s : State) (f : Nat → W → Landing) : (s.fly f).pending = s.pending := rfl
@[simp] theorem State.fly_config (s : State) (f : Nat → W → Landing) : (s.fly f).config = s.config := rfl
@[simp] theorem State.fly_relay (s : State) (f : Nat → W → Landing) : (s.fly f).relay = s.relay := rfl
@[simp] theorem State.fly_sent (s : State) (f : Nat → W → Landing) : (s.fly f).sent = s.sent := rfl
@[simp] theorem State.fly_received (s : State) (f : Nat → W → Landing) : (s.fly f).received = s.received := rfl
@[simp] theorem State.fly_reductions (s : State) (f : Nat → W → Landing) : (s.fly f).reductions = s.reductions := rfl
@[simp] theorem State.fly_transfers (s : State) (f : Nat → W → Landing) : (s.fly f).transfers = s.transfers := rfl
@[simp] theorem State.fly_streams (s : State) (f : Nat → W → Landing) : (s.fly f).streams = s.streams := rfl
@[simp] theorem State.fly_hostJobs (s : State) (f : Nat → W → Landing) : (s.fly f).hostJobs = s.hostJobs := rfl
@[simp] theorem State.fly_ports (s : State) (f : Nat → W → Landing) : (s.fly f).ports = s.ports := rfl
@[simp] theorem State.fly_domain (s : State) (f : Nat → W → Landing) : (s.fly f).domain = s.domain := rfl
@[simp] theorem State.fly_cold (s : State) (f : Nat → W → Landing) : (s.fly f).cold = s.cold := rfl
@[simp] theorem State.fly_drops (s : State) (f : Nat → W → Landing) : (s.fly f).drops = s.drops := rfl
@[simp] theorem State.fly_agenda (s : State) (f : Nat → W → Landing) : (s.fly f).agenda = s.agenda := rfl
@[simp] theorem State.fly_cur (s : State) (f : Nat → W → Landing) : (s.fly f).cur = s.cur := rfl
@[simp] theorem State.fly_issue (s : State) (f : Nat → W → Landing) : (s.fly f).issue = s.issue := rfl
@[simp] theorem State.fly_free (s : State) (f : Nat → W → Landing) : (s.fly f).free = s.free := rfl
@[simp] theorem State.fly_fresh (s : State) (f : Nat → W → Landing) : (s.fly f).fresh = s.fresh := rfl

/-! ### later -/
@[simp] theorem State.later_dies (s : State) (d : Dest) (x : V) (n : Nat) : (s.later d x n).dies = s.dies := rfl
@[simp] theorem State.later_stacks (s : State) (d : Dest) (x : V) (n : Nat) : (s.later d x n).hbmStacks = s.hbmStacks := rfl
@[simp] theorem State.later_seqs (s : State) (d : Dest) (x : V) (n : Nat) : (s.later d x n).seqs = s.seqs := rfl
@[simp] theorem State.later_parts (s : State) (d : Dest) (x : V) (n : Nat) : (s.later d x n).parts = s.parts := rfl
@[simp] theorem State.later_mem (s : State) (d : Dest) (x : V) (n : Nat) : (s.later d x n).mem = s.mem := rfl
@[simp] theorem State.later_keyed (s : State) (d : Dest) (x : V) (n : Nat) : (s.later d x n).keyed = s.keyed := rfl
@[simp] theorem State.later_flips (s : State) (d : Dest) (x : V) (n : Nat) : (s.later d x n).flips = s.flips := rfl
@[simp] theorem State.later_circuits (s : State) (d : Dest) (x : V) (n : Nat) : (s.later d x n).circuits = s.circuits := rfl
@[simp] theorem State.later_standing (s : State) (d : Dest) (x : V) (n : Nat) : (s.later d x n).standing = s.standing := rfl
@[simp] theorem State.later_tables (s : State) (d : Dest) (x : V) (n : Nat) : (s.later d x n).tables = s.tables := rfl
@[simp] theorem State.later_pending (s : State) (d : Dest) (x : V) (n : Nat) : (s.later d x n).pending = s.pending := rfl
@[simp] theorem State.later_config (s : State) (d : Dest) (x : V) (n : Nat) : (s.later d x n).config = s.config := rfl
@[simp] theorem State.later_relay (s : State) (d : Dest) (x : V) (n : Nat) : (s.later d x n).relay = s.relay := rfl
@[simp] theorem State.later_sent (s : State) (d : Dest) (x : V) (n : Nat) : (s.later d x n).sent = s.sent := rfl
@[simp] theorem State.later_received (s : State) (d : Dest) (x : V) (n : Nat) : (s.later d x n).received = s.received := rfl
@[simp] theorem State.later_reductions (s : State) (d : Dest) (x : V) (n : Nat) : (s.later d x n).reductions = s.reductions := rfl
@[simp] theorem State.later_transfers (s : State) (d : Dest) (x : V) (n : Nat) : (s.later d x n).transfers = s.transfers := rfl
@[simp] theorem State.later_streams (s : State) (d : Dest) (x : V) (n : Nat) : (s.later d x n).streams = s.streams := rfl
@[simp] theorem State.later_hostJobs (s : State) (d : Dest) (x : V) (n : Nat) : (s.later d x n).hostJobs = s.hostJobs := rfl
@[simp] theorem State.later_ports (s : State) (d : Dest) (x : V) (n : Nat) : (s.later d x n).ports = s.ports := rfl
@[simp] theorem State.later_domain (s : State) (d : Dest) (x : V) (n : Nat) : (s.later d x n).domain = s.domain := rfl
@[simp] theorem State.later_cold (s : State) (d : Dest) (x : V) (n : Nat) : (s.later d x n).cold = s.cold := rfl
@[simp] theorem State.later_drops (s : State) (d : Dest) (x : V) (n : Nat) : (s.later d x n).drops = s.drops := rfl
@[simp] theorem State.later_agenda (s : State) (d : Dest) (x : V) (n : Nat) : (s.later d x n).agenda = s.agenda := rfl
@[simp] theorem State.later_cur (s : State) (d : Dest) (x : V) (n : Nat) : (s.later d x n).cur = s.cur := rfl
@[simp] theorem State.later_issue (s : State) (d : Dest) (x : V) (n : Nat) : (s.later d x n).issue = s.issue := rfl
@[simp] theorem State.later_free (s : State) (d : Dest) (x : V) (n : Nat) : (s.later d x n).free = s.free := rfl
@[simp] theorem State.later_fresh (s : State) (d : Dest) (x : V) (n : Nat) : (s.later d x n).fresh = s.fresh := rfl

/-! ### tick -/
@[simp] theorem State.tick_tiles (s : State) : (s.tick).tiles = s.tiles := rfl
@[simp] theorem State.tick_dies (s : State) : (s.tick).dies = s.dies := rfl
@[simp] theorem State.tick_stacks (s : State) : (s.tick).hbmStacks = s.hbmStacks := rfl
@[simp] theorem State.tick_seqs (s : State) : (s.tick).seqs = s.seqs := rfl
@[simp] theorem State.tick_parts (s : State) : (s.tick).parts = s.parts := rfl
@[simp] theorem State.tick_mem (s : State) : (s.tick).mem = s.mem := rfl
@[simp] theorem State.tick_keyed (s : State) : (s.tick).keyed = s.keyed := rfl
@[simp] theorem State.tick_flips (s : State) : (s.tick).flips = s.flips := rfl
@[simp] theorem State.tick_circuits (s : State) : (s.tick).circuits = s.circuits := rfl
@[simp] theorem State.tick_standing (s : State) : (s.tick).standing = s.standing := rfl
@[simp] theorem State.tick_tables (s : State) : (s.tick).tables = s.tables := rfl
@[simp] theorem State.tick_pending (s : State) : (s.tick).pending = s.pending := rfl
@[simp] theorem State.tick_config (s : State) : (s.tick).config = s.config := rfl
@[simp] theorem State.tick_relay (s : State) : (s.tick).relay = s.relay := rfl
@[simp] theorem State.tick_sent (s : State) : (s.tick).sent = s.sent := rfl
@[simp] theorem State.tick_received (s : State) : (s.tick).received = s.received := rfl
@[simp] theorem State.tick_reductions (s : State) : (s.tick).reductions = s.reductions := rfl
@[simp] theorem State.tick_transfers (s : State) : (s.tick).transfers = s.transfers := rfl
@[simp] theorem State.tick_streams (s : State) : (s.tick).streams = s.streams := rfl
@[simp] theorem State.tick_hostJobs (s : State) : (s.tick).hostJobs = s.hostJobs := rfl
@[simp] theorem State.tick_ports (s : State) : (s.tick).ports = s.ports := rfl
@[simp] theorem State.tick_cold (s : State) : (s.tick).cold = s.cold := rfl
@[simp] theorem State.tick_drops (s : State) : (s.tick).drops = s.drops := rfl
@[simp] theorem State.tick_agenda (s : State) : (s.tick).agenda = s.agenda := rfl
@[simp] theorem State.tick_cur (s : State) : (s.tick).cur = s.cur := rfl
@[simp] theorem State.tick_issue (s : State) : (s.tick).issue = s.issue := rfl
@[simp] theorem State.tick_free (s : State) : (s.tick).free = s.free := rfl
@[simp] theorem State.tick_fresh (s : State) : (s.tick).fresh = s.fresh := rfl

/-! ### until -/
@[simp] theorem State.until_tiles (s : State) (n : Nat) : (s.until n).tiles = s.tiles := rfl
@[simp] theorem State.until_dies (s : State) (n : Nat) : (s.until n).dies = s.dies := rfl
@[simp] theorem State.until_stacks (s : State) (n : Nat) : (s.until n).hbmStacks = s.hbmStacks := rfl
@[simp] theorem State.until_seqs (s : State) (n : Nat) : (s.until n).seqs = s.seqs := rfl
@[simp] theorem State.until_parts (s : State) (n : Nat) : (s.until n).parts = s.parts := rfl
@[simp] theorem State.until_mem (s : State) (n : Nat) : (s.until n).mem = s.mem := rfl
@[simp] theorem State.until_keyed (s : State) (n : Nat) : (s.until n).keyed = s.keyed := rfl
@[simp] theorem State.until_flips (s : State) (n : Nat) : (s.until n).flips = s.flips := rfl
@[simp] theorem State.until_circuits (s : State) (n : Nat) : (s.until n).circuits = s.circuits := rfl
@[simp] theorem State.until_standing (s : State) (n : Nat) : (s.until n).standing = s.standing := rfl
@[simp] theorem State.until_tables (s : State) (n : Nat) : (s.until n).tables = s.tables := rfl
@[simp] theorem State.until_pending (s : State) (n : Nat) : (s.until n).pending = s.pending := rfl
@[simp] theorem State.until_config (s : State) (n : Nat) : (s.until n).config = s.config := rfl
@[simp] theorem State.until_relay (s : State) (n : Nat) : (s.until n).relay = s.relay := rfl
@[simp] theorem State.until_sent (s : State) (n : Nat) : (s.until n).sent = s.sent := rfl
@[simp] theorem State.until_received (s : State) (n : Nat) : (s.until n).received = s.received := rfl
@[simp] theorem State.until_reductions (s : State) (n : Nat) : (s.until n).reductions = s.reductions := rfl
@[simp] theorem State.until_transfers (s : State) (n : Nat) : (s.until n).transfers = s.transfers := rfl
@[simp] theorem State.until_streams (s : State) (n : Nat) : (s.until n).streams = s.streams := rfl
@[simp] theorem State.until_hostJobs (s : State) (n : Nat) : (s.until n).hostJobs = s.hostJobs := rfl
@[simp] theorem State.until_ports (s : State) (n : Nat) : (s.until n).ports = s.ports := rfl
@[simp] theorem State.until_cold (s : State) (n : Nat) : (s.until n).cold = s.cold := rfl
@[simp] theorem State.until_drops (s : State) (n : Nat) : (s.until n).drops = s.drops := rfl
@[simp] theorem State.until_agenda (s : State) (n : Nat) : (s.until n).agenda = s.agenda := rfl
@[simp] theorem State.until_cur (s : State) (n : Nat) : (s.until n).cur = s.cur := rfl
@[simp] theorem State.until_issue (s : State) (n : Nat) : (s.until n).issue = s.issue := rfl
@[simp] theorem State.until_free (s : State) (n : Nat) : (s.until n).free = s.free := rfl
@[simp] theorem State.until_fresh (s : State) (n : Nat) : (s.until n).fresh = s.fresh := rfl

/-! ### transfer -/
@[simp] theorem State.transfer_tiles (s : State) (a : W) (b : Bool) : (s.transfer a b).tiles = s.tiles := rfl
@[simp] theorem State.transfer_dies (s : State) (a : W) (b : Bool) : (s.transfer a b).dies = s.dies := rfl
@[simp] theorem State.transfer_stacks (s : State) (a : W) (b : Bool) : (s.transfer a b).hbmStacks = s.hbmStacks := rfl
@[simp] theorem State.transfer_seqs (s : State) (a : W) (b : Bool) : (s.transfer a b).seqs = s.seqs := rfl
@[simp] theorem State.transfer_parts (s : State) (a : W) (b : Bool) : (s.transfer a b).parts = s.parts := rfl
@[simp] theorem State.transfer_mem (s : State) (a : W) (b : Bool) : (s.transfer a b).mem = s.mem := rfl
@[simp] theorem State.transfer_keyed (s : State) (a : W) (b : Bool) : (s.transfer a b).keyed = s.keyed := rfl
@[simp] theorem State.transfer_flips (s : State) (a : W) (b : Bool) : (s.transfer a b).flips = s.flips := rfl
@[simp] theorem State.transfer_circuits (s : State) (a : W) (b : Bool) : (s.transfer a b).circuits = s.circuits := rfl
@[simp] theorem State.transfer_standing (s : State) (a : W) (b : Bool) : (s.transfer a b).standing = s.standing := rfl
@[simp] theorem State.transfer_tables (s : State) (a : W) (b : Bool) : (s.transfer a b).tables = s.tables := rfl
@[simp] theorem State.transfer_pending (s : State) (a : W) (b : Bool) : (s.transfer a b).pending = s.pending := rfl
@[simp] theorem State.transfer_config (s : State) (a : W) (b : Bool) : (s.transfer a b).config = s.config := rfl
@[simp] theorem State.transfer_relay (s : State) (a : W) (b : Bool) : (s.transfer a b).relay = s.relay := rfl
@[simp] theorem State.transfer_sent (s : State) (a : W) (b : Bool) : (s.transfer a b).sent = s.sent := rfl
@[simp] theorem State.transfer_received (s : State) (a : W) (b : Bool) : (s.transfer a b).received = s.received := rfl
@[simp] theorem State.transfer_reductions (s : State) (a : W) (b : Bool) : (s.transfer a b).reductions = s.reductions := rfl
@[simp] theorem State.transfer_transfers (s : State) (a : W) (b : Bool) : (s.transfer a b).transfers = s.transfers := rfl
@[simp] theorem State.transfer_streams (s : State) (a : W) (b : Bool) : (s.transfer a b).streams = s.streams := rfl
@[simp] theorem State.transfer_hostJobs (s : State) (a : W) (b : Bool) : (s.transfer a b).hostJobs = s.hostJobs := rfl
@[simp] theorem State.transfer_ports (s : State) (a : W) (b : Bool) : (s.transfer a b).ports = s.ports := rfl
@[simp] theorem State.transfer_domain (s : State) (a : W) (b : Bool) : (s.transfer a b).domain = s.domain := rfl
@[simp] theorem State.transfer_cold (s : State) (a : W) (b : Bool) : (s.transfer a b).cold = s.cold := rfl
@[simp] theorem State.transfer_drops (s : State) (a : W) (b : Bool) : (s.transfer a b).drops = s.drops := rfl
@[simp] theorem State.transfer_agenda (s : State) (a : W) (b : Bool) : (s.transfer a b).agenda = s.agenda := rfl
@[simp] theorem State.transfer_cur (s : State) (a : W) (b : Bool) : (s.transfer a b).cur = s.cur := rfl
@[simp] theorem State.transfer_free (s : State) (a : W) (b : Bool) : (s.transfer a b).free = s.free := rfl
@[simp] theorem State.transfer_fresh (s : State) (a : W) (b : Bool) : (s.transfer a b).fresh = s.fresh := rfl

/-! ### over -/
@[simp] theorem State.over_tiles (s : State) : (s.atEnd).tiles = s.tiles := rfl
@[simp] theorem State.over_dies (s : State) : (s.atEnd).dies = s.dies := rfl
@[simp] theorem State.over_stacks (s : State) : (s.atEnd).hbmStacks = s.hbmStacks := rfl
@[simp] theorem State.over_seqs (s : State) : (s.atEnd).seqs = s.seqs := rfl
@[simp] theorem State.over_parts (s : State) : (s.atEnd).parts = s.parts := rfl
@[simp] theorem State.over_mem (s : State) : (s.atEnd).mem = s.mem := rfl
@[simp] theorem State.over_keyed (s : State) : (s.atEnd).keyed = s.keyed := rfl
@[simp] theorem State.over_flips (s : State) : (s.atEnd).flips = s.flips := rfl
@[simp] theorem State.over_circuits (s : State) : (s.atEnd).circuits = s.circuits := rfl
@[simp] theorem State.over_standing (s : State) : (s.atEnd).standing = s.standing := rfl
@[simp] theorem State.over_tables (s : State) : (s.atEnd).tables = s.tables := rfl
@[simp] theorem State.over_pending (s : State) : (s.atEnd).pending = s.pending := rfl
@[simp] theorem State.over_config (s : State) : (s.atEnd).config = s.config := rfl
@[simp] theorem State.over_relay (s : State) : (s.atEnd).relay = s.relay := rfl
@[simp] theorem State.over_sent (s : State) : (s.atEnd).sent = s.sent := rfl
@[simp] theorem State.over_received (s : State) : (s.atEnd).received = s.received := rfl
@[simp] theorem State.over_reductions (s : State) : (s.atEnd).reductions = s.reductions := rfl
@[simp] theorem State.over_transfers (s : State) : (s.atEnd).transfers = s.transfers := rfl
@[simp] theorem State.over_streams (s : State) : (s.atEnd).streams = s.streams := rfl
@[simp] theorem State.over_hostJobs (s : State) : (s.atEnd).hostJobs = s.hostJobs := rfl
@[simp] theorem State.over_ports (s : State) : (s.atEnd).ports = s.ports := rfl
@[simp] theorem State.over_domain (s : State) : (s.atEnd).domain = s.domain := rfl
@[simp] theorem State.over_cold (s : State) : (s.atEnd).cold = s.cold := rfl
@[simp] theorem State.over_drops (s : State) : (s.atEnd).drops = s.drops := rfl
@[simp] theorem State.over_agenda (s : State) : (s.atEnd).agenda = s.agenda := rfl
@[simp] theorem State.over_cur (s : State) : (s.atEnd).cur = s.cur := rfl
@[simp] theorem State.over_free (s : State) : (s.atEnd).free = s.free := rfl
@[simp] theorem State.over_fresh (s : State) : (s.atEnd).fresh = s.fresh := rfl

/-! ### What the updates change -/

@[simp] theorem State.modTile_tiles (s : State) (t : TileId) (f : Tile → Tile) :
    (s.modTile t f).tiles = s.tiles.set t (f s.tiles[t]) := rfl
@[simp] theorem State.modDie_dies (s : State) (d : DieId) (f : Die → Die) :
    (s.modDie d f).dies = s.dies.set d (f s.dies[d]) := rfl
@[simp] theorem State.modStack_stacks (s : State) (k : StackId) (f : Stack → Stack) :
    (s.modStack k f).hbmStacks = s.hbmStacks.set k (f s.hbmStacks[k]) := rfl
@[simp] theorem State.bump_fresh (s : State) : s.bump.fresh = s.fresh + 1 := rfl
@[simp] theorem State.useFree_free (s : State) : s.useFree.free = s.free + 1 := rfl
@[simp] theorem State.setByte_mem (s : State) (key : KeyView) (a : Nat) (x : Byte) :
    (s.setByte key a x).mem = putAt 0 s.mem a x := rfl
@[simp] theorem State.setByte_keyed (s : State) (key : KeyView) (a : Nat) (x : Byte) :
    (s.setByte key a x).keyed = putAt 0 s.keyed a key.w := rfl
@[simp] theorem State.transfer_issue (s : State) (a : W) (b : Bool) :
    (s.transfer a b).issue = { s.issue with target := some (a, b) } := rfl
@[simp] theorem State.over_issue (s : State) : s.atEnd.issue = { s.issue with atEnd := true } := rfl
@[simp] theorem State.tick_sid (s : State) : s.tick.domain.sid = s.domain.sid + 1 := rfl
@[simp] theorem State.until_sid (s : State) (n : Nat) : (s.until n).domain.sid = Nat.max s.domain.sid n := rfl

/-! ### A tile, a strand and a context after an update -/

@[simp] theorem State.tiles_modTile_self (s : State) (t : TileId) (f : Tile → Tile) :
    (s.modTile t f).tiles[t.val] = f s.tiles[t.val] := by simp [State.modTile]
theorem State.tiles_modTile_ne (s : State) {t u : TileId} (f : Tile → Tile) (h : u ≠ t) :
    (s.modTile t f).tiles[u.val] = s.tiles[u.val] := by
  have h1 : t.val ≠ u.val := fun e => h (Fin.ext e.symm)
  simp [State.modTile, h1]
@[simp] theorem State.tiles_modCore_self (s : State) (t : TileId) (f : Core → Core) :
    (s.modCore t f).tiles[t.val] = { s.tiles[t.val] with core := f s.tiles[t.val].core } := by simp [State.modCore]
@[simp] theorem State.tiles_modStrandAt_self (s : State) (t : TileId) (k : StrandId) (f : Strand → Strand) :
    (s.modStrandAt t k f).tiles[t.val] =
      { s.tiles[t.val] with core := { s.tiles[t.val].core with
          strands := s.tiles[t.val].core.strands.set k (f s.tiles[t.val].core.strands[k.val]) } } := by
  simp [State.modStrandAt]
@[simp] theorem State.strandAt_modStrandAt_self (s : State) (t : TileId) (k : StrandId) (f : Strand → Strand) :
    (s.modStrandAt t k f).strandAt t k = f (s.strandAt t k) := by simp [State.strandAt]
@[simp] theorem State.fg_modStrandAt (s : State) (t u : TileId) (k : StrandId) (f : Strand → Strand) :
    (s.modStrandAt t k f).tiles[u.val].core.fg = s.tiles[u.val].core.fg := by
  by_cases h : u = t
  · subst h; simp
  · exact congrArg (fun x : Tile => x.core.fg) (State.tiles_modTile_ne s _ h)
@[simp] theorem State.curK_modCtx (s : State) (f : Ctx → Ctx) : (s.modCtx f).curK = s.curK :=
  congrArg (fun x : Option StrandId => x.getD 0) (State.fg_modStrandAt s s.cur s.cur s.curK _)
@[simp] theorem State.ctx_modCtx (s : State) (f : Ctx → Ctx) : (s.modCtx f).ctx = f s.ctx := by
  unfold State.ctx State.strand
  rw [State.curK_modCtx, State.modCtx_cur]
  exact congrArg Strand.ctx (State.strandAt_modStrandAt_self s s.cur s.curK _)

end Sys2Proof.Machine
end

