-- ==== Sys2Proof/Laws/Lines.lean ====
section
/-! SUPPORT. Lines at their homes (spec/13 R276): when a span's lines are at home, what their use changes, and what a control word of a
peer port (spec/12 R262) changes. -/

namespace Sys2Proof.Machine

/-- No line of the spans is absent exactly where each of their lines is at home. -/
theorem State.absent_eq_nil_iff (s : State) (l : List (Place × Nat)) :
    s.absent l = [] ↔ ∀ x ∈ l, ∀ y ∈ x.1.lines x.2, s.lineHere y.1 y.2 = true := by
  simp only [State.absent, List.filter_eq_nil_iff, List.mem_flatMap, Bool.not_eq_true', Bool.not_eq_false]
  exact ⟨fun h x hx y hy => h y ⟨x, hx, hy⟩, fun h y ⟨x, hx, hy⟩ => h x hx y hy⟩

@[simp] theorem State.absent_nil (s : State) : s.absent [] = [] := rfl
@[simp] theorem State.useLines_nil (s : State) : s.useLines [] = s := rfl

/-- The use of lines changes the banks of tiles, and their syndromes, alone. -/
theorem State.useLines_eq (s : State) (l : List (Place × Nat)) : ∃ x, s.useLines l = { s with tiles := x } := by
  have h : ∀ (l : List (Nat × TileId)) (s : State), ∃ x, l.foldl (fun a y =>
      if isHbm y.1 then a.useLine y.2 (y.1 / 64) else a.modTile y.2 fun x => { x with syndromes := x.syndromes + 1 }) s =
      { s with tiles := x } := by
    intro l
    induction l with
    | nil => exact fun s => ⟨s.tiles, rfl⟩
    | cons y l ih =>
      intro s
      obtain ⟨x, hx⟩ := ih (if isHbm y.1 then s.useLine y.2 (y.1 / 64) else s.modTile y.2 fun x => { x with syndromes := x.syndromes + 1 })
      refine ⟨x, hx.trans ?_⟩
      split <;> rfl
  exact h _ s

@[simp] theorem State.useLines_mem (s : State) (l : List (Place × Nat)) : (s.useLines l).mem = s.mem := by
  obtain ⟨x, h⟩ := s.useLines_eq l
  rw [h]
@[simp] theorem State.useLines_keyed (s : State) (l : List (Place × Nat)) : (s.useLines l).keyed = s.keyed := by
  obtain ⟨x, h⟩ := s.useLines_eq l
  rw [h]
@[simp] theorem State.useLines_relay (s : State) (l : List (Place × Nat)) : (s.useLines l).relay = s.relay := by
  obtain ⟨x, h⟩ := s.useLines_eq l
  rw [h]
@[simp] theorem State.useLines_received (s : State) (l : List (Place × Nat)) : (s.useLines l).received = s.received := by
  obtain ⟨x, h⟩ := s.useLines_eq l
  rw [h]

/-- Lines that are all at home are not asked for. -/
theorem State.askLines_of_absent (s : State) (q : SeqId) (l : List (Place × Nat)) (h : s.absent l = []) : s.askLines q l = s := by
  unfold State.askLines
  rw [h]
  rfl

/-- A control word changes its port alone. -/
theorem State.sendCtl_eq (s : State) (p c : Fin 16) (x : BitVec 44) : ∃ y, s.sendCtl p c x = { s with ports := s.ports.set p y } :=
  ⟨_, rfl⟩

end Sys2Proof.Machine
end

