-- ==== Sys2Proof/Laws/Memory.lean ====
section
/-! SUPPORT. Memory and its keys: reads after writes, and the canonical form that every write keeps (spec/26 R426). -/

namespace Sys2Proof.Machine

section Lists
variable {α : Type} [DecidableEq α] (d : α)

theorem wfAbove_mono {lo hi : Nat} (h : lo ≤ hi) : ∀ {l : List (Nat × α)}, wfAbove d hi l = true → wfAbove d lo l = true
  | [], _ => rfl
  | (b, y) :: l, hw => by
    simp only [wfAbove, Bool.and_eq_true, decide_eq_true_eq] at hw ⊢
    exact ⟨⟨Nat.le_trans h hw.1.1, hw.1.2⟩, hw.2⟩

/-- A write keeps the canonical form. -/
theorem wfAbove_putAt (a : Nat) (x : α) : ∀ {lo : Nat} {l : List (Nat × α)}, lo ≤ a → wfAbove d lo l = true →
    wfAbove d lo (putAt d l a x) = true
  | lo, [], ha, _ => by
    unfold putAt
    split
    · rfl
    · simp [wfAbove, *]
  | lo, (b, y) :: l, ha, hw => by
    simp only [wfAbove, Bool.and_eq_true, decide_eq_true_eq] at hw
    obtain ⟨⟨h1, h2⟩, h3⟩ := hw
    unfold putAt
    split
    · split
      · simp [wfAbove, *]
      · simp only [wfAbove, Bool.and_eq_true, decide_eq_true_eq]
        exact ⟨⟨ha, ‹_›⟩, ⟨by omega, h2⟩, h3⟩
    · split
      · subst_vars
        split
        · exact wfAbove_mono d (by omega) h3
        · simp [wfAbove, *]
      · simp only [wfAbove, Bool.and_eq_true, decide_eq_true_eq]
        exact ⟨⟨h1, h2⟩, wfAbove_putAt a x (by omega) h3⟩

/-- Below the first address, nothing is listed. -/
theorem getAt_below {a : Nat} : ∀ {lo : Nat} {l : List (Nat × α)}, a < lo → wfAbove d lo l = true → getAt d l a = d
  | _, [], _, _ => rfl
  | lo, (b, y) :: l, ha, hw => by
    simp only [wfAbove, Bool.and_eq_true, decide_eq_true_eq] at hw
    have h : a ≠ b := by omega
    simp only [getAt, h, if_false]
    exact getAt_below (by omega) hw.2

/-- A read of the address written gives what was written. -/
theorem getAt_putAt_self (a : Nat) (x : α) : ∀ {lo : Nat} {l : List (Nat × α)}, wfAbove d lo l = true →
    getAt d (putAt d l a x) a = x
  | _, [], _ => by
    unfold putAt
    split
    · subst_vars; rfl
    · simp [getAt]
  | lo, (b, y) :: l, hw => by
    have hw0 := hw
    simp only [wfAbove, Bool.and_eq_true, decide_eq_true_eq] at hw
    unfold putAt
    split
    · split
      · subst_vars
        exact getAt_below (lo := b) _ ‹_› (by simp [wfAbove, hw])
      · simp [getAt]
    · split
      · split
        · subst_vars
          exact getAt_below _ (by omega) hw.2
        · simp [getAt]
      · simp only [getAt, ‹¬a = b›, if_false]
        exact getAt_putAt_self a x hw.2

/-- Every other address reads as before. -/
theorem getAt_putAt_ne {a c : Nat} (x : α) (h : c ≠ a) : ∀ (l : List (Nat × α)), getAt d (putAt d l a x) c = getAt d l c
  | [] => by
    unfold putAt
    split
    · rfl
    · simp [getAt, h]
  | (b, y) :: l => by
    unfold putAt
    split
    · split
      · rfl
      · simp [getAt, h]
    · split
      · subst_vars
        split
        · simp [getAt, h]
        · simp [getAt, h]
      · simp only [getAt]
        split
        · rfl
        · exact getAt_putAt_ne x h l

end Lists

/-! ### Bytes -/

theorem State.memOk_setByte {s : State} (h : s.memOk) (key : KeyView) (a : Nat) (x : Byte) : (s.setByte key a x).memOk :=
  wfAbove_putAt _ a x (Nat.zero_le a) h

theorem State.keyedOk_setByte {s : State} (h : s.keyedOk) (key : KeyView) (a : Nat) (x : Byte) :
    (s.setByte key a x).keyedOk :=
  ⟨wfAbove_putAt _ a key.w (Nat.zero_le a) h.1, h.2⟩

theorem State.inv_setByte {s : State} (h : s.Inv) (key : KeyView) (a : Nat) (x : Byte) : (s.setByte key a x).Inv :=
  ⟨s.memOk_setByte h.1 key a x, s.keyedOk_setByte h.2.1 key a x, h.2.2⟩

theorem State.inv_setBytes (key : KeyView) : ∀ (l : List Byte) {s : State} (a : Nat), s.Inv → (s.setBytes key a l).Inv
  | [], _, _, h => h
  | x :: l, s, a, h => State.inv_setBytes key l (a + 1) (s.inv_setByte h key a x)

/-- A byte read under the key it was written under, held, is the byte written. -/
theorem State.byteAs_setByte_self {s : State} (h : s.Inv) (key : KeyView) (a : Nat) (x : Byte) (h0 : key.w ≠ 0)
    (hw : key.w = key.k0 ∨ key.w = key.k1) : (s.setByte key a x).byteAs key a = x := by
  have h1 : getAt 0 (putAt 0 s.keyed a key.w) a = key.w := getAt_putAt_self 0 a key.w h.2.1.1
  have h2 : getAt (0#8) (putAt (0#8) s.mem a x) a = x := getAt_putAt_self 0 a x h.1
  simp [State.byteAs, h1, h2, h0, hw]

/-- Every other byte reads as before, under any key. -/
theorem State.byteAs_setByte_ne (s : State) (key k : KeyView) {a b : Nat} (x : Byte) (h : b ≠ a) :
    (s.setByte key a x).byteAs k b = s.byteAs k b := by
  simp only [State.byteAs, State.setByte_keyed, State.setByte_mem, getAt_putAt_ne _ _ h]

/-- Bytes below a write, and above it, read as before. -/
theorem State.byteAs_setBytes_ne (key k : KeyView) : ∀ (l : List Byte) (s : State) (a b : Nat),
    b < a ∨ a + l.length ≤ b → (s.setBytes key a l).byteAs k b = s.byteAs k b
  | [], _, _, _, _ => rfl
  | x :: l, s, a, b, h => by
    simp only [List.length_cons] at h
    rw [State.setBytes, State.byteAs_setBytes_ne key k l _ (a + 1) b (by omega)]
    exact s.byteAs_setByte_ne key k x (by omega)

/-- A number's bytes, least significant first, are the number (R2). -/
theorem leNat_leBytes : ∀ (n x : Nat), leNat (leBytes n x) = x % 2 ^ (8 * n)
  | 0, x => by simp [leBytes, leNat, Nat.mod_one]
  | n + 1, x => by
    simp only [leBytes, leNat, leNat_leBytes n, BitVec.toNat_ofNat]
    have e : 2 ^ (8 * (n + 1)) = 256 * 2 ^ (8 * n) := by rw [show 8 * (n + 1) = 8 + 8 * n by omega, Nat.pow_add]
    rw [e, Nat.mod_mul]

end Sys2Proof.Machine
end

