-- ==== Sys2Proof/Tests/Slice0.lean ====
section
/-! SUPPORT. Tests: ill-formed terms that are refused, words written out from the encodings of spec/04, single steps on small
states, and a witness for the hypotheses of each statement. -/

open Sys2Proof Sys2Proof.Machine Sys2Proof.Claims

namespace Sys2Proof.Tests

set_option Elab.async false

/-! ### Well-formedness -/

theorem test_loop_length_zero_refused : Instr.wellFormed (.loop 0 1) = false := by decide
theorem test_loopi_length_zero_refused : Instr.wellFormed (.loopi 0 1) = false := by decide
theorem test_vcvt_stochastic_widening_refused : Instr.wellFormed (.vcvt 1 2 .f32f16 0 .rst) = false := by decide
theorem test_cpys_register_pair_refused : Instr.wellFormed (.cpys 1 63 .none 0) = false := by decide
theorem test_cgath_registers_refused : Instr.wellFormed (.cgath 1 62 0) = false := by decide
theorem test_cscat_registers_refused : Instr.wellFormed (.cscat 1 62 0) = false := by decide
theorem test_cirz_count_zero_refused : Instr.wellFormed (.cirz 1 2 0) = false := by decide
theorem test_nport_header_of_port_refused : Instr.wellFormed (.nport 1 2 true 1) = false := by decide
theorem test_nport_header_accepted : Instr.wellFormed (.nport 1 2 true 0) = true := by decide

/-! ### Encodings, field by field from spec/04 -/

/-- The bundle fields and the instruction of a word. -/
def reads (n : Nat) : Option (Bool × Fin 4 × Instr) :=
  match decodeWord n with
  | .ok x => some (x.e, x.w, x.i)
  | .error _ => none

/-- A word with E = 1 of a major and a body (R51). -/
def last (maj body : Nat) : Nat := 2 ^ 31 + maj * 2 ^ 24 + body

theorem test_decode_alu : reads (last 0x01 (5 * 2 ^ 18 + 6 * 2 ^ 12 + 7 * 2 ^ 6 + 0x01)) = some (true, 0, .sub 5 6 7) := by decide
theorem test_decode_addi : reads 0x82180007 = some (true, 0, .addi 6 0 7) := by decide
theorem test_decode_logical : reads (last 0x03 (5 * 2 ^ 18 + 6 * 2 ^ 12 + 2 * 2 ^ 9 + 0x1FF)) = some (true, 0, .xori 5 6 (-1)) := by
  decide
theorem test_decode_shift : reads (last 0x04 (5 * 2 ^ 18 + 6 * 2 ^ 12 + 2 * 2 ^ 9 + 63)) = some (true, 0, .shai 5 6 63) := by decide
theorem test_decode_limm : reads 0x85141234 = some (true, 0, .limm 5 0x1234) := by decide
theorem test_decode_divide : reads (last 0x06 (1 * 2 ^ 18 + 2 * 2 ^ 12 + 3 * 2 ^ 6 + 0x0A)) = some (true, 0, .rem 1 2 3) := by decide
theorem test_decode_compare_branch : reads (last 0x07 (8 * 2 ^ 18 + 9 * 2 ^ 12 + 4 * 2 ^ 9 + 0x1FE)) =
    some (true, 0, .bltn 8 9 (-2)) := by decide
theorem test_decode_jump : reads (last 0x08 (1 * 2 ^ 22 + 8 * 2 ^ 16 + 0xFFFC)) = some (true, 0, .bnz 8 (-4)) := by decide
theorem test_decode_nop : reads 0x89000000 = some (true, 0, .nop) := by decide
theorem test_decode_loopi : reads (last 0x09 (3 * 2 ^ 18 + 1 * 2 ^ 12 + 2 * 2 ^ 6 + 0x05)) = some (true, 0, .loopi 3 66) := by decide
theorem test_decode_keyop : reads 0x891461D9 = some (true, 0, .keyop 5 6 7) := by decide
theorem test_decode_control_register : reads (last 0x0A (3 * 2 ^ 18 + 4 * 2 ^ 12 + 2 * 2 ^ 10 + 0x012)) =
    some (true, 0, .crx 3 4 0x012) := by decide
theorem test_decode_load : reads 0x0B142600 = some (false, 0, .ld 5 2 .i64 0) := by decide
theorem test_decode_store : reads (last 0x0C (5 * 2 ^ 18 + 2 * 2 ^ 12 + 6 * 2 ^ 9 + 0x1F8)) = some (true, 0, .st 5 2 .n32 (-8)) := by
  decide
theorem test_decode_release_store : reads (last 0x0D (0 * 2 ^ 18 + 2 * 2 ^ 12 + 5 * 2 ^ 6 + 0x0B)) = some (true, 0, .str 2 5 .i64) := by
  decide
theorem test_decode_atomic : reads 0x8E1C4243 = some (true, 0, .amoaddI64 7 4 9 .ar) := by decide
theorem test_decode_barrier : reads (last 0x0F (7 * 2 ^ 18 + 4 * 2 ^ 12 + 0x09)) = some (true, 0, .barrive 7 4) := by decide
theorem test_decode_vector_load : reads (last 0x10 (3 * 2 ^ 19 + 9 * 2 ^ 13 + 2 * 2 ^ 4 + 0x2)) = some (true, 0, .vld 3 9 2 .b32) := by
  decide
theorem test_decode_strided : reads (last 0x11 (3 * 2 ^ 19 + 9 * 2 ^ 13 + 8 * 2 ^ 7 + 2 * 2 ^ 4 + 0x5)) =
    some (true, 0, .vsts 3 9 8 2 .b16) := by decide
theorem test_decode_gather : reads (last 0x12 (3 * 2 ^ 19 + 9 * 2 ^ 13 + 8 * 2 ^ 7 + 2 * 2 ^ 4 + 0x0)) =
    some (true, 0, .vgath 3 9 8 2 .b8) := by decide
theorem test_decode_vector_add : reads 0x93288620 = some (true, 0, .vadd 5 2 3 0 .b32) := by decide
theorem test_decode_vector_fp : reads (last 0x14 (5 * 2 ^ 19 + 2 * 2 ^ 14 + 3 * 2 ^ 9 + 1 * 2 ^ 6 + 0x12)) =
    some (true, 0, .vfmul 5 2 3 1 .f16) := by decide
theorem test_decode_fma : reads (last 0x15 (5 * 2 ^ 19 + 2 * 2 ^ 14 + 3 * 2 ^ 9 + 1 * 2 ^ 6 + 0x21)) = some (true, 0, .vfms 5 2 3 1 .bf16) := by
  decide
theorem test_decode_convert : reads (last 0x16 (5 * 2 ^ 19 + 2 * 2 ^ 14 + 3 * 2 ^ 9 + 1 * 2 ^ 6 + 0x05)) =
    some (true, 0, .vcvt 5 2 .bf16f32 1 .rst) := by decide
theorem test_decode_reduction : reads (last 0x17 (5 * 2 ^ 19 + 2 * 2 ^ 14 + 2 * 2 ^ 9 + 1 * 2 ^ 6 + 0x16)) =
    some (true, 0, .vredInt 5 2 .max 1 .b32) := by decide
theorem test_decode_compare : reads (last 0x18 (2 * 2 ^ 19 + 3 * 2 ^ 14 + 4 * 2 ^ 9 + 1 * 2 ^ 6 + 0x22)) =
    some (true, 0, .vcmp 2 3 4 1 .lt .b32) := by decide
theorem test_decode_mma : reads (last 0x19 (0 * 2 ^ 20 + 5 * 2 ^ 14 + 6 * 2 ^ 8 + 3 * 2 ^ 6 + 0x02)) = some (true, 0, .mma 5 6 3 true) := by
  decide
theorem test_decode_matrix_control : reads (last 0x1A (5 * 2 ^ 20 + 5 * 2 ^ 14 + 2 * 2 ^ 6)) = some (true, 0, .mstacc 5 2) := by decide
theorem test_decode_copy : reads (last 0x1B (0 * 2 ^ 20 + 5 * 2 ^ 14 + 6 * 2 ^ 8 + 63 * 4 + 3)) = some (true, 0, .cpy 5 6 63 3) := by
  decide
theorem test_decode_circuit : reads (last 0x1C (3 * 2 ^ 20 + 5 * 2 ^ 14 + 6 * 2 ^ 8 + 3)) = some (true, 0, .csend 5 6 3) := by decide
theorem test_decode_net : reads (last 0x1D (2 * 2 ^ 20 + 11 * 2 ^ 14 + 2 * 2 ^ 8 + 1 * 2 ^ 4 + 3 * 2 ^ 2 + 2)) =
    some (true, 0, .nlink 11 2 1 3 2) := by decide
theorem test_decode_refusals : decodeWord 0 = .error .major ∧ decodeWord 0x8D000007 = .error .value ∧
    decodeWord 0x90480008 = .error .value := ⟨rfl, rfl, rfl⟩

/-! ### Small states -/

/-- A strand in front of tile 0 whose context is changed by f. -/
def strand (f : Ctx → Ctx) : State := State.reset.modCtx f

/-- g1 to g4 of a context. -/
def gs (a b c d : W) (x : Ctx) : Ctx :=
  { x with regs := { x.regs with g := (((x.regs.g.set 1 a).set 2 b).set 3 c).set 4 d } }

/-- A state whose words are only asked for their verdict. -/
def State.asked (s : State) : State := { s with issue := { s.issue with probe := true } }

/-- A state whose bundle has passed its checks. -/
def State.cleared (s : State) : State := { s with issue := { s.issue with checked := true } }

/-- A thread of sequence 0 in front, with a handler at 0x40. -/
def threadWith (mode : W) : State :=
  (State.reset.modTileSeq 0 0 fun x => { x with trapvec := 0x40 }).modStrand fun x =>
    { x with work := .thread 0, owner := 1, ctx := { x.ctx with mode := mode } }

/-- A pair of a bag. -/
def pair0 : BagEntry :=
  { seq := 0, lineA := 1, lineB := 2, pri := 0, roam := true, quiet := false, park := 0, spilled := false, waited := 0, poisons := 0,
    borrowed := false, types := (0, 0) }

/-- A rewrite of that pair. -/
def rewrite0 : Rewrite :=
  { pair := pair0, node1 := 64, node2 := 128, buf := [], bundles := 0, allocs := [], staged := [], committing := false, wrote := [] }

/-- A rewrite in front. -/
def rewriter : State := State.reset.modStrand fun x => { x with work := .rewrite rewrite0, owner := 1 }

/-- A result of g5 in flight. -/
def landing0 (d : Dest) (cls : Nat) : Landing :=
  { dest := d, val := 7, act := BitVec.allOnes 128, due := 0, cls := cls, flags := 0, hot := 0, fault := none, ba := 0 }

/-! ### Single steps, with the results that spec/ gives -/

/-- R102: −1 + 2 wraps to 1. -/
theorem test_addi_wraps : exec (.addi 5 1 2) (strand (gs (-1) 0 0 0)) =
    .next (gives (strand (gs (-1) 0 0 0)) 5 1 1) := rfl

/-- R105: the quotient of the most negative number by −1 is that number; the remainder of a division by 0 is the dividend. -/
theorem test_divide_corners : quotient (BitVec.intMin 64) (-1) = BitVec.intMin 64 ∧ remainder 9 0 = 9 := by decide

/-- R55, R57, R102: the first step of a placed ADDI g6, g0, 7 issues it; after one cycle its result has landed. -/
theorem test_step_after_reset : ∃ t, step (State.reset.withFetchWord 32 0x82180007) = .next t ∧
    (t.strandAt 0 0).ctx.g 6 = 7 ∧ (t.strandAt 0 0).ctx.clock = 1 ∧
    (t.strandAt 0 0).ctx.pc = 4 :=
  ⟨_, rfl, by decide, by decide, by decide⟩

/-! ### Witnesses: a state and operands that meet the hypotheses of a statement, for each of its clauses -/

theorem witness_EncodedWordDecodes :
    (∃ (x : Word) (n : Nat), x.i.wellFormed = true ∧ encodeWord x = some n) := ⟨⟨true, 0, .addi 6 0 7⟩, _, rfl, rfl⟩

theorem witness_DecodedWordEncodes : ∃ (n : Nat) (x : Word), n < 2 ^ 32 ∧ decodeWord n = .ok x :=
  ⟨0x82180007, _, by decide, rfl⟩

/-- For the statements whose only hypothesis is that the word is performed: ImmediateForms, RegisterForms, FloatingPointWords,
VectorIntegers, VectorShapes, MasksAndReductions, ConversionsAndSums. -/
theorem witness_Performed : Performed State.reset := rfl

theorem witness_RegistersLand : (landing0 (.g 5) 1).fault = none ∧ (landing0 (.v 5) 1).fault = none ∧ (landing0 (.k 5) 1).fault = none :=
  ⟨rfl, rfl, rfl⟩

theorem witness_ProductsAndDivisions :
    (Performed State.reset ∧ State.reset.tile.core.divider = none) ∧ (State.asked State.reset).issue.probe = true := ⟨⟨rfl, rfl⟩, rfl⟩

theorem witness_DoubleTrapGoesToMonitor : TenantInside (threadWith 2) 0 0 := ⟨⟨0, rfl⟩, by decide, by decide⟩

theorem witness_TransfersGoThere :
    (Performed State.reset ∧ ux (State.reset.g 4) % 4 = 0) ∧
    (Unchecked (strand (gs 0 0 0 3)) ∧ ux ((strand (gs 0 0 0 3)).g 4) % 4 ≠ 0) := by
  refine ⟨⟨rfl, by decide⟩, ⟨rfl, rfl⟩, by decide⟩

theorem witness_TenantTrap : TenantOutside (threadWith 0) 0 0 := ⟨⟨0, rfl⟩, by decide, by decide, by decide⟩

theorem witness_Eret :
    (TenantInside (threadWith 2) 0 0 ∧ (threadWith 2).issue.bw = 1 ∧ Performed (threadWith 2) ∧ (threadWith 2).ctx.inflight = [] ∧
      (threadWith 2).ctx.due = []) ∧
    (Unchecked (threadWith 0) ∧ (threadWith 0).ctx.mode.getLsbD 0 = false ∧ (threadWith 0).issue.bw = 1 ∧
      (threadWith 0).ctx.mode.getLsbD 1 = false) ∧
    { threadWith 2 with issue := { Issue.zero with bw := 2 } }.issue.bw ≠ 1 := by
  refine ⟨⟨⟨⟨0, rfl⟩, by decide, by decide⟩, rfl, rfl, rfl, rfl⟩, ⟨⟨rfl, rfl⟩, by decide, rfl, by decide⟩, by decide⟩

/-- A pre-emption is pending on the thread in front. -/
def preempted : State := (threadWith 0).modStrand fun x => { x with preempt := some 0 }

theorem witness_SystemWords :
    Performed preempted ∧ State.reset.strand.preempt = none ∧ (preempted.strand.preempt.isSome = true ∧ preempted.rewriting = none) ∧
    (strand fun c => { c with event := true }).ctx.event = true ∧ State.reset.ctx.event = false ∧
    rewriter.rewriting = some rewrite0 ∧ Unchecked State.reset := ⟨rfl, rfl, ⟨rfl, rfl⟩, rfl, rfl, rfl, rfl, rfl⟩

/-- A state whose line at address 0 is in the instruction cache: sixteen NOPs. -/
def nops : State := State.reset.modCore 0 fun c =>
  { c with icache := [{ seq := 0, line := 0, bytes := (List.replicate 16 [(0 : Byte), 0, 0, 0x89]).flatten, poison := false }] }

/-- A loop over the bundles at 4 and 8. -/
def loop0 (n : Nat) : LoopEntry := { start := 4, stop := 8, left := n }

theorem witness_LoopsRun :
    (nops.loopEnd 1 = .ok (4, 8) ∧ Performed nops ∧ nops.ctx.loops.length < 2) ∧
    (Unchecked (nops.modCtx fun c => gs 0 0 0 1 { c with loops := [loop0 1, loop0 2] }) ∧
      2 ≤ (nops.modCtx fun c => gs 0 0 0 1 { c with loops := [loop0 1, loop0 2] }).ctx.loops.length ∧
      (nops.modCtx fun c => gs 0 0 0 1 { c with loops := [loop0 1, loop0 2] }).g 4 ≠ 0) ∧
    (goesTo State.reset 8 false).issue.target = some (8, false) ∧ (goesTo State.reset 8 true).issue.target = some (8, true) ∧
    (State.reset.issue.target = none ∧ State.reset.ctx.loops = []) ∧
    ((loop0 1).stop ≠ 4 ∧ (loop0 2).stop = 8 ∧ 1 < (loop0 2).left ∧ (loop0 1).left ≤ 1) := by
  refine ⟨⟨rfl, rfl, by decide⟩, ⟨⟨rfl, rfl⟩, by decide, by decide⟩, rfl, rfl, ⟨rfl, rfl⟩, by decide⟩

theorem witness_ControlRegisterAccess :
    (Performed State.reset ∧ 0x012 ∈ writableCrs ∧ 0x041 ∈ monitorCrs ∧ 0x030 ∈ readOnlyCrs ∧ (threadWith 1).ctx.mode.getLsbD 0 = true) ∧
    (Unchecked State.reset ∧ 0x3FF ∉ writableCrs ++ monitorCrs ++ readOnlyCrs ∧ State.reset.ctx.mode.getLsbD 0 = false) := by
  refine ⟨⟨rfl, by decide, by decide, by decide, by decide⟩, ⟨rfl, rfl⟩, by decide, by decide⟩

theorem witness_ControlRegisterEffects :
    (State.reset.strandAt 0 0).ctx.mode.getLsbD 0 = false ∧ ((threadWith 1).strandAt 0 0).ctx.mode.getLsbD 0 = true := by
  decide

theorem witness_FirmwareWords :
    (Unchecked State.reset ∧ State.reset.ctx.mode.getLsbD 0 = false) ∧
    (let s := strand fun c => gs 0 0 0 0 { c with mode := 1 }
     s.ctx.mode.getLsbD 0 = true ∧ Performed s ∧ ux (s.g 4) % 8 ≤ 5 ∧ ux (s.g 4) / 2 ^ 4 % 4 ≠ 3 ∧
      s.invalWaits s.cur (ux (s.g 4) / 2 ^ 4 % 4) (invalOf (s.g 4) (s.g 5)) = false ∧ (keyOpOf (s.g 4) (s.g 5)).isSome = true) ∧
    siteReserved (2 ^ 36) = false := by
  refine ⟨⟨⟨rfl, rfl⟩, by decide⟩, ⟨by decide, rfl, by decide, by decide, by decide +kernel, by decide⟩, by decide⟩

/-- Key slot 0 of die 0 in a state. -/
def keySlot (x : KeySlot) : State := State.reset.modDie 0 fun d => { d with keys := d.keys.set 0 x }

theorem witness_KeyOperations :
    ((State.reset.dies[(0 : DieId)]).keys[(0 : Fin 512)].state = .empty ∧ (State.reset.dies[(0 : DieId)]).keys[(0 : Fin 512)].pendinv = false) ∧
    (((keySlot { KeySlot.zero with state := .live, rotating := true, swept := true }).dies[(0 : DieId)]).keys[(0 : Fin 512)].state = .live ∧
      ((keySlot { KeySlot.zero with state := .live, rotating := true, swept := true }).dies[(0 : DieId)]).keys[(0 : Fin 512)].rotating = true ∧
      ((keySlot { KeySlot.zero with state := .live, rotating := true, swept := true }).dies[(0 : DieId)]).keys[(0 : Fin 512)].swept = true) ∧
    ((keySlot { KeySlot.zero with state := .live }).dies[(0 : DieId)]).keys[(0 : Fin 512)].state = .live := by decide

/-- A fact about every tile, from the list of the tiles. -/
theorem every_tile (s : State) (p : Tile → Bool) (h : s.tiles.toList.all p = true) (t : TileId) : p s.tiles[t] = true :=
  List.all_eq_true.1 h _ (Vector.mem_toList_iff.2 (Vector.getElem_mem t.isLt))

/-- No M word and no rewrite of a tile. -/
def quiet (x : Tile) : Bool := x.matrix.queue.isEmpty && x.core.strands.toList.all fun y =>
  match y.work with
  | .free => true
  | .thread _ | .rewrite _ | .firmware => false

theorem nothing_held (s : State) (i : Inval) (u : TileId) (h : quiet s.tiles[u] = true) : s.heldAccess i u = false := by
  obtain ⟨hq, hk⟩ := Bool.and_eq_true_iff.1 h
  unfold State.heldAccess
  simp only [List.isEmpty_iff.1 hq, List.any_nil, Bool.false_or]
  refine List.any_eq_false.2 fun k _ => ?_
  have hw := List.all_eq_true.1 hk _ (Vector.mem_toList_iff.2 (Vector.getElem_mem k.isLt))
  revert hw
  show (match s.tiles[u].core.strands[k.val].work with | .free => true | .thread _ | .rewrite _ | .firmware => false) = true → _
  simp only [Fin.getElem_fin]
  cases s.tiles[u.val].core.strands[k.val].work <;> simp

/-- Nothing to wait for: no message in flight, no M word, no rewrite. -/
theorem nothing_waits (s : State) (t : TileId) (scope : Nat) (i : Inval) (hr : s.relay = []) (h : s.tiles.toList.all quiet = true) :
    s.invalWaits t scope i = false := by
  unfold State.invalWaits
  simp only [hr, List.any_nil, Bool.false_or]
  refine List.any_eq_false.2 fun u _ => ?_
  rw [nothing_held s i u (every_tile s quiet h u), Bool.and_false]
  exact Bool.false_ne_true

theorem reset_quiet : State.reset.tiles.toList.all quiet = true := by decide +kernel

theorem witness_InvalidationsDropEntries : State.reset.invalWaits 0 2 (.slot 5) = false ∧
    State.reset.scopeTiles 0 1 .all 5 = true ∧ State.reset.scopeTiles 0 0 .all 5 = false :=
  ⟨nothing_waits _ _ _ _ rfl reset_quiet, by decide +kernel, by decide +kernel⟩

theorem witness_ProductsQuotientsAndInvalidationsComplete :
    State.reset.issue.probe = false ∧ State.reset.tile.core.divider = none ∧
    ∀ i : Inval, State.reset.invalWaits 0 2 i = false :=
  ⟨rfl, rfl, fun _ => nothing_waits _ _ _ _ rfl reset_quiet⟩

/-! ### Memory words -/

/-- An entry that maps 2 MiB from address 0 to tile 0's window. -/
def ownEntry : TlbEntry := { fetchEntry 0 0 with window := some 0, size := 2 }

/-- A thread of sequence 0 that reaches its own tile store from address 0 and the first page of HBM from 0x200000; g1 to g4 as given;
its panes are the sequence's. -/
def local_ (f : Ctx → Ctx) : State :=
  ((State.reset.placeWord 0).modTile 0 fun x =>
    { x with tlbLoad := [ownEntry, { fetchEntry 0 0x200000 with pin := some 5 }], tlbMatrix := [ownEntry],
             panes := Vector.replicate 128 { Pane.zero with seq := some 0 } }).modCtx f

/-- The same with a commit buffer. -/
def localRewrite (f : Ctx → Ctx) : State := (local_ f).modStrand fun x => { x with work := .rewrite rewrite0 }

/-- g4 points into the own store, and g3 into HBM. -/
def memory : State := local_ (gs 0 0 0x200040 0x1000)

theorem witness_LoadsPerformed :
    Passes memory (memory.memCheck .read (address memory 4 8) 8) ∧
    (OwnAt memory .read (address memory 4 8) 0x1008 ∧ memory.placeBad (.win memory.cur 0x1008) 8 = false ∧
      (memory.touch (address memory 4 8)).forwarded (.win memory.cur 0x1008) 8 = []) ∧
    FarAt memory .read (address memory 3 0) (.hbm 0x40 5) := by
  refine ⟨⟨rfl, Or.inr (by decide)⟩, ⟨⟨by decide, by decide⟩, by decide, by decide⟩, by decide, ?_⟩
  intro off h
  cases h

theorem witness_StoresPerformed :
    Passes memory (memory.memCheck .write (address memory 4 8) 8) ∧
    (OwnAt memory .write (address memory 4 8) 0x1008 ∧ memory.rewriting = none ∧ (ownKeys memory).w ≠ 0 ∧
      ((ownKeys memory).w = (ownKeys memory).k0 ∨ (ownKeys memory).w = (ownKeys memory).k1)) ∧
    FarAt memory .write (address memory 3 0) (.hbm 0x40 5) ∧
    (let s := localRewrite (gs 0 0 0x200040 0x1000)
     s.locate .write (address s 4 0) = some (.win 0 0x1000) ∧ s.rewriting = some rewrite0 ∧ rewrite0.buf.length < 128) := by
  refine ⟨⟨rfl, Or.inr (by decide)⟩, ⟨⟨by decide, by decide⟩, rfl, by decide, by decide⟩, ⟨by decide, ?_⟩,
    by decide, rfl, by decide⟩
  intro off h
  cases h

theorem witness_MisalignedAccessesTrap :
    let s := strand (gs 0 0 0 1)
    Unchecked s ∧ s.rewriting = none ∧ ux (address s 4 0) % typeBytes .i64 ≠ 0 ∧ ux (s.g 4) % typeBytes .n16 ≠ 0 ∧ ux (s.g 4) % 8 ≠ 0 ∧
      ux (s.g 4) % 4 ≠ 0 := by
  refine ⟨⟨rfl, rfl⟩, rfl, by decide, by decide, by decide, by decide⟩

/-- A memory word that is not performed. -/
def outstanding : Pend :=
  { uid := 9, dest := .none, dest2 := .none, fmt := .word, need := 1, val := 0, act := 0, flags := 0, fault := none, acq := false,
    rel := false, mem := true, ba := 0 }

/-- A release that is not performed. -/
def releasing : Pend := outstanding.release

/-- A state whose strand has an operation outstanding. -/
def withPend (p : Pend) (s : State) : State := s.modCtx fun c => { c with pends := [p] }

/-- A store of operation 9 of the current strand, sent to HBM. -/
def sentStore : Msg :=
  { uid := 1, src := 0, dst := 5, part := 0, seqno := 0,
    body := .write { pl := .hbm 0x40 5, n := 8, seq := 0, tile := 0, owner := memory.strand.owner, pend := 9, at_ := 0, va := 0, fwd := [], more := [] } 1,
    after := [], launched := true, held := false, lost := false, arrived := none, served := false, acked := false, refused := none,
    credited := false, last := 0, struck := false }

/-- R129, R339: an ST of the bundle that began with operation 9 comes after its store; one of the next bundle does not. -/
theorem test_bundle_stores :
    ({ withPend outstanding memory with relay := [sentStore], issue := { Issue.zero with first := 9 } } : State).bundleStores =
      [(memory.strand.owner, 9)] ∧
    ({ withPend outstanding memory with relay := [sentStore], issue := { Issue.zero with first := 10 } } : State).bundleStores = [] := by
  decide +kernel

/-- R339, R341: LDA is sent behind a release that is not performed. -/
theorem test_acquire_after_release :
    (((withPend releasing memory).load 6 .i64 0x200040 true).relay.map (·.after)) = [[(memory.strand.owner, 9)]] := by decide +kernel

/-- A HOST_WRITE under way to sequence 0. -/
def hostWriting : State := State.asked { State.reset with hostJobs := [
  { hdr := { kind := 7, ver := 1, fn := 0, owner := 0, lenOk := true, form := .plain, seqno := 0, corr := 0, ack := 0 }, write := true, seq := 0, va := 8,
    left := 1, data := [], got := [] }] }

/-- A strand with a memory word that is not performed. -/
def awaiting : State := strand fun c => { c with pends := [outstanding] }

theorem witness_FencesAndPrefetch :
    (Performed State.reset ∧ (∀ p ∈ State.reset.ctx.pends, State.reset.awaited .tile p = false) ∧ (Scope.tile ≠ .system)) ∧
    ((State.asked awaiting).issue.probe = true ∧ ∃ p ∈ (State.asked awaiting).ctx.pends, (State.asked awaiting).awaited .tile p = true) ∧
    (Performed (State.cleared awaiting) ∧ (State.cleared awaiting).issue.checked = true ∧
      ∃ p ∈ (State.cleared awaiting).ctx.pends, (State.cleared awaiting).awaited .tile p = true) ∧
    (hostWriting.issue.probe = true ∧ hostWriting.hostWrites hostWriting.q = true) ∧ outstanding.mem = true := by
  exact ⟨⟨rfl, (fun p h => by cases h), by decide⟩, ⟨rfl, outstanding, .head _, rfl⟩, ⟨rfl, rfl, outstanding, .head _, rfl⟩, ⟨rfl, by decide⟩, rfl⟩

/-- An MSEND for another die, of that word. -/
def farSend : Msg :=
  { uid := 1, src := 0, dst := 1023, part := 0, seqno := 0, body := .msg 0 awaiting.strand.owner 9 0 1 0, after := [], launched := true,
    held := false, lost := false, arrived := none, served := false, acked := false, refused := none, credited := false, last := 0, struck := false }

/-- R210: it is not awaited at .t. -/
theorem test_fence_scope : ({ awaiting with relay := [farSend] } : State).awaited .tile outstanding = false := by decide +kernel

theorem witness_Atomics :
    Passes memory (memory.amoCheck 0 (memory.g 4) 8) ∧ Passes memory (memory.amoCheck 5 (memory.g 3) 4) ∧
    (Unchecked rewriter ∧ rewriter.rewriting.isSome) ∧
    (memory.ctx.mode.getLsbD 0 = false ∧ memory.locate .atomic (memory.g 3) = some (.hbm 0x40 5) ∧ memory.rewriting = none) ∧
    (let s := localRewrite (gs 0 0 0x200040 0x1000)
     s.locate .atomic (s.g 4) = some (.win 0 0x1000) ∧ s.rewriting = some rewrite0 ∧ rewrite0.buf.length < 128) := by
  refine ⟨⟨rfl, Or.inr (by decide)⟩, ⟨rfl, Or.inr (by decide)⟩, ⟨⟨rfl, rfl⟩, by decide⟩, ⟨by decide, by decide, rfl⟩, by decide, rfl, by decide⟩

/-- Tile 0's pane 1 changed. -/
def paneOne (f : Pane → Pane) (s : State) : State :=
  s.modTile 0 fun x => { x with panes := x.panes.set 1 (f x.panes[1]) }

theorem witness_Panes :
    (Performed (State.cleared memory) ∧ (State.cleared memory).issue.checked = true ∧
      OwnAt (State.cleared memory) .write ((State.cleared memory).g 4) 0x1000 ∧
      OwnAt (State.cleared memory) .read ((State.cleared memory).g 4) 0x1000) ∧
    (let s := paneOne (fun p => { p with engine := true, ring := true }) memory
     OwnAt s .write (s.g 4) 0x1000 ∧ s.rewriting = none ∧ s.paneCheck .write (s.g 4) = .pass ∧ (∀ p ∈ s.ctx.pends, p.acq = false) ∧
      s.tile.panes[paneOf 0x1000].engine = true ∧ s.tile.panes[paneOf 0x1000].ring = true ∧ Unchecked s) ∧
    (let s := State.asked (paneOne (fun p => { p with engine := true }) memory)
     OwnAt s .write (s.g 4) 0x1000 ∧ s.rewriting = none ∧ s.paneCheck .write (s.g 4) = .pass ∧
      s.tile.panes[paneOf 0x1000].engine = true ∧ s.tile.panes[paneOf 0x1000].ring = false ∧ ∀ p ∈ s.ctx.pends, p.acq = false ∧ p.rel = false) ∧
    (let s := State.asked (withPend outstanding memory)
     OwnAt s .write (s.g 4) 0x1000 ∧ s.rewriting = none ∧ s.paneCheck .write (s.g 4) = .pass ∧ (∀ p ∈ s.ctx.pends, p.acq = false) ∧
      s.tile.panes[paneOf 0x1000].engine = false ∧ s.issue.probe = true ∧ ∃ p ∈ s.ctx.pends, s.awaited .tile p = true) := by
  refine ⟨⟨rfl, rfl, ⟨by decide, by decide⟩, by decide, by decide⟩,
    ⟨⟨by decide, by decide⟩, rfl, by decide, by decide, by decide, by decide, rfl, rfl⟩,
    ⟨⟨by decide, by decide⟩, rfl, by decide, by decide, by decide, by decide⟩,
    ⟨by decide, by decide⟩, rfl, by decide, by decide, by decide, rfl, outstanding, .head _, rfl⟩

/-- A barrier of two arrivals at 0x1000: EXPECT = 2, one of them in. -/
def barrier1 : Barrier := { phase := 0, keep := 0, expect := 2, arrived := 1, quota := 0, filled := 0 }

/-- A barrier whose arrivals are in. -/
def barrier2 : Barrier := { barrier1 with arrived := 2, quota := 0x7FFFF }

/-- The own store with a barrier's word at 0x1000. -/
def withBarrier (b : Barrier) : State :=
  let s := local_ (gs 0 1 0 0x1000)
  s.setBytes (ownKeys s) (storeKey 0 0x1000) ((List.range 8).map fun i => BitVec.ofNat 8 (b.word / 2 ^ (8 * i)))

theorem witness_Barriers :
    (Performed (State.cleared (withBarrier barrier1)) ∧
      BarrierAt (State.cleared (withBarrier barrier1)) ((State.cleared (withBarrier barrier1)).g 4) 0x1000 barrier1 ∧
      barrier1.arrived < barrier1.expect ∧ barrier1.quota + 1 < 2 ^ 19) ∧
    (let s := withBarrier barrier2
     BarrierAt s (s.g 4) 0x1000 barrier2 ∧ s.rewriting = none ∧ s.barrierCheck (s.g 4) false false = .pass ∧ Unchecked s ∧
      barrier2.arrived = barrier2.expect ∧ 2 ^ 19 ≤ barrier2.quota + ux (s.g 2) % 2 ^ 19 ∧ ux (s.g 1) % 2 ^ 12 = 0) ∧
    (∀ x ∈ [outstanding, releasing],
      let s := State.asked (withPend x (withBarrier barrier1))
      BarrierAt s (s.g 4) 0x1000 barrier1 ∧ s.rewriting = none ∧ s.barrierCheck (s.g 4) false false = .pass ∧ s.issue.probe = true ∧
        s.awaited .tile x = true ∧ x ∈ s.ctx.pends) ∧ releasing.rel = true := by
  refine ⟨⟨rfl, ⟨⟨by decide, by decide⟩, ⟨by decide, by decide, by decide, by decide, by decide, by decide⟩, by decide, by decide⟩, by decide, by decide⟩,
    ⟨⟨⟨by decide, by decide⟩, ⟨by decide, by decide, by decide, by decide, by decide, by decide⟩, by decide, by decide⟩, rfl, by decide, ⟨rfl, rfl⟩, rfl, by decide, by decide⟩, ?_, rfl⟩
  intro x hx
  obtain rfl | rfl : x = outstanding ∨ x = releasing := by simpa using hx
  all_goals
  exact ⟨⟨⟨by decide, by decide⟩, ⟨by decide, by decide, by decide, by decide, by decide, by decide⟩, by decide, by decide⟩, rfl, by decide, rfl, by decide, .head _⟩

theorem witness_AccessChecksPass :
    ux (memory.g 4) % 8 = 0 ∧ memory.ctx.xfault = none ∧ memory.ctx.pends = [] ∧ memory.relay = [] ∧
    (OwnAt memory .write (memory.g 4) 0x1000 ∧ memory.tile.panes[paneOf 0x1000].seq = some memory.q ∧
      memory.tile.panes[paneOf 0x1000].system = false ∧ memory.tile.panes[paneOf 0x1000].engine = false ∧
      memory.tile.panes[paneOf 0x1000].staged = 0 ∧ memory.rewriting = none) ∧
    FarAt memory .read (memory.g 3) (.hbm 0x40 5) := by
  refine ⟨by decide, rfl, rfl, rfl, ⟨⟨by decide, by decide⟩, by decide, by decide, by decide, by decide, rfl⟩,
    by decide, ?_⟩
  intro off h
  cases h

/-! ### Vector and matrix words -/

/-- The own store by the elements that k1 selects: the first and the last. -/
def ends (z : Nat) : K := 1 ||| (1 <<< (128 / z - 1))

theorem witness_ContiguousWords :
    (∀ z ∈ [1, 2, 4], OwnElements memory .read 0x1000 (ends z) z 0x1000 ∧ OwnElements memory .write 0x1000 (ends z) z 0x1000) ∧
    Passes memory (memory.elemsCheck .read (contiguous 4 (memory.g 4) (memory.k 0))) ∧
    Passes memory (memory.elemsCheck .write (contiguous 2 (memory.g 4) (memory.k 0))) ∧
    Passes memory (memory.elemsCheck .read (single 2 (memory.g 4) (memory.k 0))) ∧
    Passes memory (memory.elemsCheck .write [{ at_ := 0, va := memory.g 4, n := 16 }]) := by
  refine ⟨?_, ⟨rfl, Or.inr (by decide +kernel)⟩, ⟨rfl, Or.inr (by decide +kernel)⟩, ⟨rfl, Or.inr (by decide)⟩, ⟨rfl, Or.inr (by decide)⟩⟩
  intro z h
  simp only [List.mem_cons, List.not_mem_nil, or_false] at h
  rcases h with rfl | rfl | rfl
  all_goals
    refine ⟨⟨⟨0, by decide, by decide⟩, rfl, rfl, fun _ h => (nomatch h), ?_⟩, ⟨⟨0, by decide, by decide⟩, rfl, rfl, fun _ h => (nomatch h), ?_⟩⟩
    all_goals
      unfold OwnAt
      decide

/-- A replay record of VLDS.b32 v3 with two elements, 64 bytes apart from an address. -/
def replay0 (ga : W) : Replay :=
  { word := .vlds 3 4 5 1 .b32, ga := ga, gb := 64, data := 0, index := 0, mask := 5, done := 1, ba := 0, running := true }

theorem witness_ElementWords :
    Passes memory memory.acquireWait ∧
    (elemForm (replay0 0x1000).word = some ⟨3, 4, .load, true⟩ ∧ (replay0 0x1000).next 32 = some 2) ∧
    memory.accessCheck .read 4 ((replay0 0x1001).addr ⟨3, 4, .load, true⟩ 2) 4 = .trap .misalign 0x1081 ∧
    { replay0 0 with done := 5 }.next 32 = none ∧
    (memory.modCtx fun c => { c with replay := some (replay0 0x1000) }).ctx.replay = some (replay0 0x1000) ∧
    OwnAt memory .read ((replay0 0x1000).addr ⟨3, 4, .load, true⟩ 2) 0x1080 := by
  refine ⟨⟨rfl, Or.inr rfl⟩, ⟨rfl, by decide⟩, by decide, by decide, rfl, by decide, by decide⟩

theorem witness_OrderedReductionWord :
    (Passes memory (memory.reduceCheck 0x200040) ∧ memory.locate .atomic 0x200040 = some (.hbm 0x40 5) ∧ memory.rewriting = none) ∧
    (localRewrite id).locate .atomic 0x200040 = some (.hbm 0x40 5) := by
  refine ⟨⟨⟨rfl, Or.inr (by decide)⟩, by decide, rfl⟩, by decide⟩

theorem witness_RoundingIsFaithful :
    (1 < 2 ^ (8 * fpBytes .f16) ∧ ∃ n k x, unpack (fp2Fmt .f16) 1 = .fin n k x) ∧ (-149 : Int) ≤ -149 :=
  ⟨⟨by decide, _, _, _, rfl⟩, by decide⟩

/-- A circuit from tile 0 onto the latch of tile 0. -/
def circuit0 : Circuit :=
  { handle := 4, seq := 0, src := 0, dst := 0, peer := none, remote := none, lead := 0, path := [], sets := [(0, [3])], delay := 5, live := 0,
    latch := true, ringPane := 0, ringPanes := 1, barrier := none, queue := [], wire := [], credits := 8, landed := 0, read := 0,
    waiters := [], entries := 0, arrived := 0, incoming := [], failed := false, closing := false, lastLeft := 0, closeAt := 0, closeReply := none }

/-- The thread holds the matrix unit, whose latch is open and holds an operand. -/
def matrixHeld : State :=
  { memory.modMatrix 0 fun m => { m with holder := some (1, 0), latchBy := some 4,
                                         latch := [{ fmt := .bf16, bytes := [], poison := false, pane := none, addr := 0 }] } with
    circuits := [circuit0] }

theorem witness_MatrixWords :
    (UnitReady matrixHeld ∧ matrixHeld.latchOpen = .pass) ∧
    ((∃ x, matrixHeld.operandAt 0x1000 = some x) ∧
      Passes matrixHeld (matrixHeld.unitCheck (interleave (matrixHeld.operandChecks 0x1000) (matrixHeld.operandChecks 0x2000)))) ∧
    Passes matrixHeld (matrixHeld.ringCheck 0x1000) ∧
    (matrixHeld.ownWindow .read 0x1000 = .ok (0x1000, false) ∧
      Passes matrixHeld (matrixHeld.unitCheck (matrixHeld.wholePaneCheck .read 0x1000 4096 4096))) ∧
    (matrixHeld.ownWindow .write 0x7F000 = .ok (0x7F000, false) ∧
      Passes matrixHeld (matrixHeld.unitCheck (matrixHeld.wholePaneCheck .write 0x7F000 4096 4096))) ∧
    Passes matrixHeld (matrixHeld.unitCheck (matrixHeld.wholePaneCheck .write 0x1040 64 576)) ∧
    (Holds matrixHeld ∧ matrixHeld.tile.matrix.queue = []) ∧
    (memory.tile.matrix.holder = none ∧ memory.tile.matrix.clearing = false ∧ ¬ Holds memory ∧ Unchecked memory) := by
  refine ⟨⟨⟨rfl, Or.inr ⟨⟨0, rfl⟩, ?_, by decide⟩⟩, by decide⟩, ⟨⟨_, rfl⟩, rfl, Or.inr (by decide)⟩, ⟨rfl, Or.inr (by decide)⟩,
    ⟨rfl, rfl, Or.inr (by decide)⟩, ⟨rfl, rfl, Or.inr (by decide)⟩, ⟨rfl, Or.inr (by decide)⟩, ⟨⟨0, rfl⟩, rfl⟩, rfl, rfl, ?_, rfl, rfl⟩
  · intro p h
    cases h
  · rintro ⟨k, h⟩
    cases h

/-- A queued word of the unit. -/
def mword (k : MKind) : MWord := { kind := k, owner := 1, strand := 0, seq := 0, ba := 0, spoil := false, read := false, left := none }

/-- The unit with two words queued, the second after the first. -/
def queued : State := memory.modMatrix 0 fun m => { m with holder := some (1, 0), queue := [mword (.mzero 1), mword (.mzero 1)] }

theorem witness_MatrixWordsPerformed :
    (mword (.mma false true 1 ⟨.bf16, [], false, none, 0⟩ ⟨.bx8, [], false, none, 0⟩)).kind =
      .mma false true 1 ⟨.bf16, [], false, none, 0⟩ ⟨.bx8, [], false, none, 0⟩ ∧
    (mword (.mzero 1)).kind = .mzero 1 ∧ (mword (.mswap 2)).kind = .mswap 2 ∧ (mword (.mfix 2 31 31 7)).kind = .mfix 2 31 31 7 ∧
    (mword (.mldacc 2 ⟨.bf16, [], false, none, 0⟩)).kind = .mldacc 2 ⟨.bf16, [], false, none, 0⟩ ∧
    (mword (.mstacc 2 127)).kind = .mstacc 2 127 ∧
    ((queued.tiles[(0 : TileId)]).matrix.queue[0]? = some (mword (.mzero 1)) ∧ queued.still 0 = false ∧
      queued.wordReady 0 (mword (.mzero 1)) = true ∧ (queued.tiles[(0 : TileId)]).core.injArmed = false ∧
      ∀ k, (queued.tiles[(0 : TileId)]).matrix.holder ≠ some (0, k)) ∧
    (queued.tiles[(0 : TileId)]).matrix.queue[1]? = some (mword (.mzero 1)) ∧ MKind.after (.mzero 1) (.mzero 1) = true := by
  refine ⟨rfl, rfl, rfl, rfl, rfl, rfl, ⟨rfl, by decide, by decide, rfl, ?_⟩, rfl, by decide⟩
  intro k h
  cases h

/-- A word that reads a pane, one that must wait, and a send that the injection queue takes in part. -/
theorem matrix_steps_witness :
    (let w := mword (.mldacc 2 ⟨.bf16, [], false, some 9, 0⟩)
     (Matrix.mayRead { memory.tile.matrix with queue := [w] } 0 w = true ∧ w.kind.staged = [9])) ∧
    (Matrix.mayRead { memory.tile.matrix with queue := [mword .pop] } 0 (mword .pop) = false ∧
      memory.wordReady 0 (mword .pop) = false) ∧
    (let w := { mword (.send 8 none false) with left := some [1, 2, 3] }
     let c := { circuit0 with handle := 8, queue := List.replicate 15 { word := 7, entered := 0, done := none } }
     let s : State := { memory with circuits := [c] }
     Matrix.mayRead { memory.tile.matrix with queue := [w] } 0 w = false ∧ s.latchCircuit 8 0 0 = some c ∧ 0 < c.queueRoom ∧
      c.queueRoom < 3) := by
  refine ⟨by decide, ⟨by decide, by decide⟩, by decide, by decide, by decide, by decide⟩

/-! ### A small address space -/

/-- Lines brought into tile 0's bank. -/
def brought (l : List Nat) (s : State) : State := s.modTile 0 fun x =>
  { x with bank := l.map fun pa => { line := pa / 64, seq := 0, dirty := false, bad0 := false, bad1 := false } }

/-- Table entries of partition 0 and sequence 0, written where their walks read them, with their lines at home: stage 2 maps the first GiB
to itself; stage 1 maps the first GiB to it SPREAD, the second to the tile windows of quarter 0, and the third to it PIN to tile 0. -/
def mapped : State :=
  let s := { memory with parts := memory.parts.set 0 (some { Partition.bare with s2root := 0x10000 }),
                         seqs := memory.seqs.set 0 (some { Sequence.bare with s1root := 0x20000 }) }
  let f (s : State) (x : Nat × Nat) : State := s.writeNum .firmware (.hbm x.1 0) 8 x.2
  let q (s : State) (x : Nat × Nat) : State := s.writeNum (.seq 0) (.hbm x.1 0) 8 x.2
  let two := [(0x10000, 0x11001), (0x11000, 127)]
  let one := [(0x20000, 0x21001), (0x21000, 127), (0x21008, 639), (0x21010, 255)]
  brought [0x10000, 0x11000, 0x20000, 0x21000, 0x1000] (one.foldl q (two.foldl f s))

/-- The translation that a walk finds. -/
def found (va : W) : Option TlbEntry :=
  match mapped.walk 0 0 va with
  | .done e => some e
  | .touch .. | .fault _ | .missing .. | .poisoned => none

/-- R403: the leaf of the second GiB is a window leaf of quarter 0. -/
theorem test_walk_finds_window : (found 0x40001000).map (fun e => (e.window, e.perm1)) = some (some 0, 7) := by decide +kernel

/-- R404: the leaf of the third GiB is pinned to tile 0. -/
theorem test_walk_finds_pinned_page : (found 0x80001000).map (fun e => (e.pin, e.frame)) = some (some 0, 0) := by decide +kernel

theorem near_without (s : State) (line : Nat) (h : s.tiles.toList.all (fun x => !x.near.contains line) = true) (t : TileId) :
    s.tiles[t].near.contains line = false := by
  have h := every_tile s (fun x => !x.near.contains line) h t
  exact Bool.not_eq_true' _ ▸ h

/-- Lines that no near buffer holds and that stand in their banks are at home. -/
theorem absent_none (s : State) (l : List (Place × Nat))
    (h : ((l.flatMap fun x => x.1.lines x.2).all fun y =>
      !isHbm y.1 || ((s.bankLine y.1 y.2).isSome && s.tiles.toList.all fun x => !x.near.contains (y.1 / 64))) = true) :
    s.absent l = [] := by
  refine List.filter_eq_nil_iff.2 fun y hy => ?_
  have h2 := List.all_eq_true.1 h y hy
  unfold State.lineHere
  cases ha : isHbm y.1
  · simp
  · rw [ha] at h2
    obtain ⟨h3, h4⟩ := Bool.and_eq_true_iff.1 h2
    have h1 : s.nearHolder (y.1 / 64) = none := by
      refine List.find?_eq_none.2 fun t _ => ?_
      rw [near_without s _ h4 t]
      exact Bool.false_ne_true
    rw [h1, h3]
    simp

/-- A line that stands in no bank is not at home. -/
theorem absent_some (s : State) (l : List (Place × Nat))
    (h : ((l.flatMap fun x => x.1.lines x.2).any fun y =>
      isHbm y.1 && (!s.tiles[y.2].inReset && (s.bankLine y.1 y.2).isNone)) = true) : s.absent l ≠ [] := by
  obtain ⟨y, hy, h1⟩ := List.any_eq_true.1 h
  refine fun h2 => absurd (List.filter_eq_nil_iff.1 h2 y hy) ?_
  unfold State.lineHere
  simp_all

/-! ### Copies, circuits, messages, nets -/

theorem witness_CopyCommandsQueue :
    (let s := memory
     Passes s (s.singleCheck 3 (singleRec .copy .none 0x1000 0x2000 64 0) (unaligned64 [0x2000, 0x1000])) ∧
      Passes s (s.singleCheck 0 (singleRec .copy .none 0x1000 0x2000 64 0) (singleRec .copy .none 0x1000 0x2000 64 0).misaligned) ∧
      Passes s (s.singleCheck 0 (singleRec .gather .none 0x1000 0x2000 64 0x200000)
        (singleRec .gather .none 0x1000 0x2000 64 0x200000).misaligned) ∧
      Passes s (s.singleCheck 0 (singleRec .scatter .none 0x1000 0x2000 64 0x200000)
        (singleRec .scatter .none 0x1000 0x2000 64 0x200000).misaligned) ∧
      Performed s ∧ s.rewriting = none ∧ ux (s.g 4) % 64 = 0 ∧ (s.tile.chans[(2 : ChanId)]).queue.length < 16) ∧
    (Unchecked rewriter ∧ rewriter.rewriting.isSome) ∧
    (Unchecked (local_ (gs 0 0 0 32)) ∧ (local_ (gs 0 0 0 32)).rewriting = none ∧ ux ((local_ (gs 0 0 0 32)).g 4) % 64 ≠ 0) := by
  refine ⟨⟨⟨rfl, Or.inr (by decide)⟩, ⟨rfl, Or.inr (by decide)⟩, ⟨rfl, Or.inr (by decide)⟩, ⟨rfl, Or.inr (by decide)⟩, rfl, rfl,
    by decide, by decide⟩, ⟨⟨rfl, rfl⟩, by decide⟩, ⟨rfl, rfl⟩, rfl, by decide⟩

/-- A command of two rows of 64 bytes from 0x1000 to 0x2000, at its second row. -/
def cmd0 : Cmd :=
  { uid := 3, owner := 1, seq := 0, batch := 1, kind := .single .copy .none 0x1000 0x2000 (1 + 63 * 2 ^ 12 + 64 * 2 ^ 24 + 64 * 2 ^ 44) 0,
    after := [], step := .rows, row := 1, parked := false, cancel := false, held := [], busy := [], xfault := none, refused := [] }

/-- Channel 0 of tile 0 with that command, over panes that the engines own. -/
def copying (st : ChanState) : State :=
  (memory.modTile 0 fun x =>
    { x with tlbCopy := x.tlbCopy.set 0 [ownEntry], panes := Vector.replicate 128 { Pane.zero with seq := some 0, engine := true } }).modChan
    0 0 fun y => { y with queue := [cmd0], state := st }

/-- A batch that has ended with a fault. -/
def batch0 : Batch := { num := 1, members := 0, used := true, sealed := true, fault := some (0, .poison, 0x40), reported := false }

theorem witness_CopyWork :
    (Performed (State.cleared memory) ∧ (State.cleared memory).ctx.reportable = none) ∧
    ((State.cleared (local_ fun c => { c with batches := [batch0] })).ctx.reportable = some batch0 ∧
      batch0.fault = some (0, .poison, 0x40)) ∧
    ((State.cleared (copying .run)).tile.chans[(0 : ChanId)].queue = [cmd0] ∧ cmd0.seq = (copying .run).q ∧
      (State.cleared (copying .run)).tile.chans[(0 : ChanId)].state = .run ∧ (State.cleared memory).tile.chans[(0 : ChanId)].queue = []) ∧
    ((copying .run).still 0 = false ∧ (copying .run).cmdReady 0 cmd0 = true ∧ (copying .waitOwn).tile.chans[(0 : ChanId)].state = .waitOwn) ∧
    (let s := copying .run
     let r := cmd0.rec_
     cmd0.row < r.rows ∧ r.op = 0 ∧ r.xp = 0 ∧ r.arrive = false ∧ r.rowb = 64 ∧
      s.engineXlates 0 0 cmd0 .read (piecesOf (strided r.src 1 r.sstride) 64) = (s, .ok [(.win 0 0x1040, 64, 0x1040)]) ∧
      s.engineXlates 0 0 cmd0 .write (piecesOf (strided r.dst 1 r.dstride) 64) = (s, .ok [(.win 0 0x2040, 64, 0x2040)]) ∧
      s.pieceStop 0 true (.win 0 0x1040) 64 0x1040 = none ∧ s.pieceStop 0 true (.win 0 0x2040) 64 0x2040 = none ∧
      s.enginePoison [(.win 0 0x1040, 64, 0x1040)] = none) := by
  refine ⟨⟨rfl, rfl⟩, ⟨rfl, rfl⟩, ⟨rfl, rfl, rfl, rfl⟩, ⟨by decide, by decide, rfl⟩, by decide, by decide, by decide, by decide,
    by decide, rfl, rfl, rfl, rfl, rfl⟩

/-- A circuit from tile 0 to a ring of two panes of tile 1, with one slot. -/
def ring0 : Circuit := { circuit0 with handle := 8, dst := 1, path := [.e], latch := false, ringPane := 1, ringPanes := 2, credits := 256 }

/-- A request before a Meridian. -/
def item0 (req : MeridianReq) : MeridianItem :=
  { uid := 1, req := req, tile := 0, seq := 0, owner := 1, batch := 1, reply := some 0x40002000, after := [], parked := false,
    refused := [] }

/-- The small address space with a request record at 0x40001000: one slot from tile 0 onto the latch of tile 1, or, where `bad` holds, none. -/
def requested (bad : Bool) (req : MeridianReq) : State :=
  let s := { mapped with parts := mapped.parts.set 0 (some { Partition.bare with s2root := 0x10000, linkbud := 4, membud := Vector.replicate 12 0 }) }
  let f (s : State) (x : Nat × Nat) : State := s.writeNum (.seq 0) (.win 0 (0x1000 + 8 * x.1)) 8 x.2
  let words := [(0, if bad then 0 else 2 ^ 32 + 2 ^ 16), (1, 0), (2, 0), (3, 1), (4, 0), (5, 0), (6, 0), (7, 0)]
  (words.foldl f s).modDie 0 fun d => { d with meridian := [item0 req] }

/-- What the window leaf of the small address space gives. -/
def windowEntry : TlbEntry :=
  { seq := 0, page := 1, size := 3, window := some 0, frame := 0, perm1 := 7, perm2 := 7, pin := none, ipa := 0, slot := 0 }

/-- A walk and the checks of what it finds, as one answer. -/
def walked (s : State) (acc : Access) (va : W) : WalkEnd × Xlat := (s.walk 0 0 va, s.checkEntry 0 0 acc windowEntry va)

/-- A request whose address is mapped to the window of the sequence's tile is translated without a change of state. -/
theorem meridian_window (s : State) (m : MeridianItem) (acc : Access) (va : W) (off : Nat) (hm : m.seq = 0) (ht : m.tile = 0)
    (hv : va.toNat < 2 ^ 56) (ha : s.absent (s.walkSpans 0 0 va) = []) (hw : walked s acc va = (.done windowEntry, .at_ (.win 0 off) windowEntry))
    (hp : ((panesOf off 64).all fun p => s.tiles[(0 : TileId)].panes[p].allows 0) = true) :
    s.meridianXlate 0 m acc va = (s, .ok (.win 0 off)) := by
  have h1 : s.walk 0 0 va = .done windowEntry := congrArg Prod.fst hw
  have h2 : s.checkEntry 0 0 acc windowEntry va = .at_ (.win 0 off) windowEntry := congrArg Prod.snd hw
  unfold State.meridianXlate
  rw [if_neg (by omega), hm, ht, h1]
  simp only [ha, List.isEmpty_nil, Bool.not_true, h2]
  rw [if_neg (by decide), if_pos hp]

/-- Whether a record is granted. -/
def granted? (s : State) : Option Nat :=
  match s.judge 0 (circRec (s.readWords 0 (.win 0 0x1000) 8)) with
  | .ok _ => none
  | .error n => some n

theorem test_record_granted : granted? (requested false (.close 0)) = none := by decide +kernel

/-- R248, R252: a record of no slots is MALFORMED. -/
theorem test_record_of_no_slots_refused : granted? (requested true (.close 0)) = some 1 := by decide +kernel

/-- A word in an injection queue, and one on a wire. -/
def queued1 : QueueWord := { word := 7, entered := 0, done := none }
def wired1 : WireWord := { word := 7, lands := 0, done := none }

/-- The package with one circuit, whose entries its slot tables hold. -/
def carrying (c : Circuit) : State :=
  { memory with circuits := [c],
                tables := c.uses.map fun l => { tile := l.tile, out := l.out, slot := ⟨(3 + l.d) % 8, by omega⟩, inp := l.inp } }

/-- The words of an entry of the latch but the last: a header of FMT 0 first. -/
def entryStart : List (BitVec 256) := List.replicate ((headerFmt 0).entryWords - 1) 0

/-- A configuration word at its router, and one that has a level to go. -/
def config0 (levels : Nat) : ConfigWord := { uid := 1, target := 0, levels := levels, next := 8, body := .hop 1 2 }

/-- A table write of an activation time. -/
def tableWrite0 : TableWrite := { entry := { tile := 0, out := 1, slot := 3, inp := 5 }, at_ := 16 }

theorem circuit_words_witness :
    (Performed (State.cleared (carrying ring0)) ∧ Names (State.cleared (carrying ring0)) 8 ring0 ∧ ring0.waiters = [] ∧
      ring0.landed < ring0.read + 1) ∧
    (Unchecked memory ∧ memory.rewriting = none ∧ memory.circuits = [] ∧ ux (memory.g 3) % 64 = 0) := by
  refine ⟨⟨rfl, ⟨rfl, [], [], rfl, by simp⟩, rfl, by decide⟩, ⟨rfl, rfl⟩, rfl, rfl, by decide⟩

theorem circuit_travel_witness :
    (let c := { ring0 with queue := [queued1] }
     let s := carrying c
     s.circuit 8 = some c ∧ s.cold.changing = none ∧ c.departure s.domain.wheel 2 (2 * s.domain.wheel + (c.sets.getLast?).elim 0 (·.1)) = some 3 ∧
      s.mayInject c = true ∧ s.sendAlong c 3 = (true, [])) ∧
    ring0.queue = [] ∧ ring0.entryDue = false ∧
    (let c := { ring0 with wire := [wired1] }
     c.wire = [wired1] ∧ c.peer = none ∧ c.latch = false ∧ c.barrier = none ∧ wired1.done = none ∧ c.waiters = [] ∧
      (carrying c).eventOwners c.dst (some c.seq) = []) ∧
    (let c := { circuit0 with wire := [wired1], incoming := entryStart }
     c.entryDue = true ∧ c.latch = true ∧ c.incoming ≠ [] ∧ (entryOf (c.incoming ++ [wired1.word])).isSome = true) := by
  refine ⟨⟨rfl, rfl, by decide, by decide, by decide +kernel⟩, rfl, rfl, ⟨rfl, rfl, rfl, rfl, rfl, rfl, by decide +kernel⟩, by decide, rfl, by decide, by decide⟩

/-- A Meridian with no request, and those with each kind. -/
theorem meridian_heads_witness :
    State.reset.meridianHead 0 = none ∧ (requested false (.open_ 0x40001000)).meridianHead 0 = some (item0 (.open_ 0x40001000)) ∧
    (requested false (.close 8)).meridianHead 0 = some (item0 (.close 8)) ∧ (requested false (.resize 8 2)).circuit 8 = none := by
  decide +kernel

/-- Both words of a request's record and of its reply are in the sequence's window. -/
theorem meridian_witness :
    ((requested false (.open_ 0x40001000)).absent ((requested false (.open_ 0x40001000)).walkSpans 0 0 0x40001000) = [] ∧
      walked (requested false (.open_ 0x40001000)) .read 0x40001000 = (.done windowEntry, .at_ (.win 0 0x1000) windowEntry) ∧
      (requested false (.open_ 0x40001000)).placeBad (.win 0 0x1000) 64 = false ∧
      walked (requested false (.open_ 0x40001000)) .write 0x40002000 = (.done windowEntry, .at_ (.win 0 0x2000) windowEntry)) :=
  ⟨absent_none _ _ (by decide +kernel), by decide +kernel⟩

/-- A circuit that gains a slot. -/
theorem resize_witness :
    (let s := { requested false (.resize 8 2) with circuits := [ring0] }
     s.meridianHead 0 = some (item0 (.resize 8 2)) ∧ s.circuit 8 = some ring0 ∧ ring0.closing = false ∧
      (match s.resized ring0 2 with | .ok l => l.length | .error _ => 0) = 2 ∧ ring0.lastSet.length = 1 ∧
      s.pathHeld ring0.route ring0.path = false) := by
  decide +kernel

theorem tables_witness :
    (let c := { ring0 with closing := true }
     (carrying c).circuit 8 = some c ∧ c.closing = true ∧ c.queue = [] ∧ c.wire = []) ∧
    (carrying ring0).circuit 8 = some ring0 ∧
    ({ memory with config := [config0 0, config0 1] } : State).config[1]? = some (config0 1) ∧
    ({ memory with pending := [tableWrite0] } : State).pending ≠ [] ∧ memory.pending = [] := by
  refine ⟨⟨rfl, rfl, rfl, rfl⟩, rfl, rfl, by decide, rfl⟩

/-- The hypotheses of each part of CircuitWordsAndSteps are met. The translations that MeridianSteps assumes follow from the walks
above by meridian_window. -/
theorem witness_CircuitWordsAndSteps : (carrying ring0).circuit 8 = some ring0 ∧
    (requested false (.open_ 0x40001000)).meridianXlate 0 (item0 (.open_ 0x40001000)) .read 0x40001000 =
      (requested false (.open_ 0x40001000), .ok (.win 0 0x1000)) := by
  refine ⟨rfl, meridian_window _ _ _ _ _ rfl rfl (by decide) meridian_witness.1 meridian_witness.2.1 ?_⟩
  decide +kernel

theorem witness_MessageWords :
    (let s := memory.modTile 0 fun x => { x with nextHop := Vector.replicate 64 5 }
     Performed s ∧ s.inPart (partOf s.q) 0 = true ∧ s.hopTo s.cur 0 ≠ 0 ∧ s.outgoing s.cur < 16 ∧ s.hopsPending s.cur = false ∧ s.rewriting = none ∧ (∀ p ∈ s.ctx.pends, p.acq = false ∧ p.rel = false) ∧
      s.waiting s.cur s.q = 0) ∧
    (Unchecked memory ∧ memory.inPart (partOf memory.q) 1023 = false) ∧
    ((localRewrite id).rewriting = some rewrite0 ∧ rewrite0.buf.length < 128) := by
  refine ⟨⟨rfl, by decide, by decide, by decide, by decide, rfl, by decide, by decide +kernel⟩, ⟨⟨rfl, rfl⟩, by decide⟩, rfl, by decide⟩

/-- The pool of the sequence on tile 0 begins at 0x80001000. -/
def pooled0 (s : State) : State := s.modTileSeq 0 0 fun x => { x with head := 0x80001000 }

/-- A rewrite of the nodes at 0x80001000 and 0x80001040. -/
def rewrite1 : Rewrite := { rewrite0 with node1 := 0x80001000, node2 := 0x80001040 }

/-- It in front in the small address space, with the lines of its nodes and tables at home. -/
def committing0 : State := (brought [0x10000, 0x11000, 0x20000, 0x21000, 0x1000, 0x1040] mapped).modStrand fun x =>
  { x with work := .rewrite rewrite1, owner := 1 }

/-- A node taken, from the evaluation of its three answers. -/
theorem taken (s : State) (q : SeqId) (t : TileId) (template : W) (h : (s.takeNode q t template).isSome = true) :
    ∃ s1 node addr, s.takeNode q t template = some (s1, node, addr) := by
  obtain ⟨⟨s1, node, addr⟩, h⟩ := Option.isSome_iff_exists.1 h
  exact ⟨s1, node, addr, h⟩

theorem witness_NetWordsAndRewriteEnds :
    (let s := State.cleared (pooled0 (localRewrite id))
     s.rewriting = some rewrite0 ∧ rewrite0.buf.length < 128 ∧ Performed s ∧ s.issue.checked = true ∧
      ∃ s1 node addr, s.takeNode s.q s.cur (s.g 4) = some (s1, node, addr)) ∧
    (let s := State.cleared (pooled0 (mapped.modCtx (gs 0 0 0 0x80001000)))
     s.rewriting = none ∧ Performed s ∧ s.issue.checked = true ∧ s.ctx.pends = [] ∧ s.homeOf s.q s.cur (lineOf (s.g 4)) = s.cur ∧
      ∃ s1 node addr, s.takeNode s.q s.cur (s.g 4) = some (s1, node, addr)) ∧
    memory.takeNode memory.q memory.cur (memory.g 4) = none ∧
    (committing0.rewriting = some rewrite1 ∧ committing0.commitReady 0 0 rewrite1 = true ∧
      (committing0.modMatrix 0 fun m => { m with holder := some (1, 0), queue := [mword .pop] }).commitReady 0 0 rewrite1 = false) ∧
    (memory.rewriting = none ∧ Unchecked memory) := by
  refine ⟨⟨rfl, by decide, rfl, rfl, taken _ _ _ _ (by decide +kernel)⟩,
    ⟨rfl, rfl, rfl, rfl, by decide +kernel, taken _ _ _ _ (by decide +kernel)⟩, rfl, ⟨rfl, ?_, rfl⟩, rfl, rfl, rfl⟩
  have h : committing0.absent (committing0.commitSpans 0 0 rewrite1) = [] :=
    absent_none _ _ (by decide +kernel)
  have hs : (committing0.strandAt 0 0).seq = 0 := by decide +kernel
  unfold State.commitReady
  simp only [hs, h, List.isEmpty_nil, Bool.and_true]
  decide +kernel

/-- A node that is homed elsewhere: line of 0x80001000 with the third GiB pinned to tile 3. -/
theorem witness_node_elsewhere :
    (mapped.writeNum (.seq 0) (.hbm 0x21010 0) 8 (255 + 3 * 2 ^ 48)).homeOf 0 0 (lineOf 0x80001000) = 3 := by decide +kernel

/-! ### Relay messages and memory service -/

/-- The first message from tile 1 to tile 0. -/
def msg0 (b : Body) : Msg :=
  { uid := 7, src := 1, dst := 0, part := 0, seqno := 0, body := b, after := [], launched := true, held := false, lost := false,
    arrived := none, served := false, acked := false, refused := none, credited := false, last := 0, struck := false }

/-- Tile 1 belongs to the partition of the sequence, too. -/
def beside : State := memory.modTile 1 fun x => { x with part := some 0 }

/-- The package with that message in flight. -/
def relayed (b : Body) : State := { beside with relay := [msg0 b] }

/-- A request of 8 bytes at a place. -/
def req0 (pl : Place) : Req := { pl := pl, n := 8, seq := 0, tile := 1, owner := 2, pend := 3, at_ := 0, va := 0x1000, fwd := [], more := [] }

/-- A message passes from tile 1 to tile 0 of one partition. -/
theorem routed_beside (s : State) (n : Nat) (h0 : s.tiles[(0 : TileId)].part = some 0) (h1 : s.tiles[(1 : TileId)].part = some 0) :
    s.routed 0 0 (n + 1 + 1) 1 = true := by
  have b1 : blockOf 1 = blockOf 0 := rfl
  have x1 : xyNext 1 0 = 0 := rfl
  simp only [State.routed, h0, h1, b1, x1, if_true, beq_self_eq_true, Bool.true_and, Bool.true_or, Bool.or_true]

theorem passes_beside (s : State) (b : Body) (h0 : s.tiles[(0 : TileId)].part = some 0) (h1 : s.tiles[(1 : TileId)].part = some 0) :
    s.passes (msg0 b) = true := by
  have k : decide (b.kind.val < 13) = true := by cases b <;> rfl
  exact Bool.and_eq_true_iff.2 ⟨Bool.and_eq_true_iff.2 ⟨k, rfl⟩, routed_beside s 1022 h0 h1⟩

theorem comes_relayed (b : Body) : Comes (relayed b) 0 (msg0 b) := by
  exact ⟨⟨rfl, rfl, rfl, rfl, rfl, rfl, rfl, passes_beside (relayed b) b rfl rfl⟩, rfl⟩

/-- The package with a message that has been accepted, and one that waits for its performance. -/
def accepted (b : Body) : State := { memory with relay := [{ msg0 b with arrived := some 5 }] }

/-- A line in tile 0's near buffer, with a reduction object whose next slice is slice 2 of 40, and n slices held. -/
@[irreducible] def reducing (n : Nat) : State :=
  let s := (beside.modTile 0 fun x => { x with near := [64] }).writeNum
    (.seq 0) (.hbm 0x1000 0) 8 (2 + 40 * 2 ^ 32)
  { s with relay := [msg0 (.slice { req0 (.hbm 0x1000 0) with n := 192 } 3 0 0)],
           reductions := if n = 0 then [] else [{ seq := 1, obj := 0x8000, hold := .bank 0, held := List.replicate n (9, 0, 0) }] }

/-- The slice of that object. -/
def slice3 : Req := { req0 (.hbm 0x1000 0) with n := 192 }

/-- A request to a line that the near buffer of the tile asked holds, with nothing to wait for. -/
theorem ready_near (s : State) (m : Msg) (r : Req) (pa : Nat) (home : TileId) (hp : r.pl = .hbm pa home) (h1 : s.behind m r = false)
    (h2 : s.keyLive r.seq (dieOf home) = true) (h3 : s.moving home = false) (h4 : s.tiles[home].inReset = false)
    (h5 : isHbm pa = true) (h6 : s.nearHolder (pa / 64) = some m.dst) :
    s.ready m r true false = .go (s.keepNear m.dst (pa / 64)) := by
  unfold State.ready
  rw [h1, hp]
  have h8 : s.tiles[home.val].inReset = false := h4
  simp [State.lineReady, h2, h3, h8, h5, h6]

theorem reducing_ready : (reducing 0).behind (msg0 (.slice slice3 3 0 0)) slice3 = false ∧ (reducing 0).keyLive 0 0 = true ∧
    (reducing 0).moving 0 = false ∧ (reducing 0).tiles[(0 : TileId)].inReset = false ∧ (reducing 0).nearHolder 64 = some 0 := by
  decide +kernel

theorem slice_ready : (reducing 0).ready (msg0 (.slice slice3 3 0 0)) slice3 true false = .go ((reducing 0).keepNear 0 (0x1000 / 64)) := by
  obtain ⟨h1, h2, h3, h4, h5⟩ := reducing_ready
  generalize reducing 0 = s at *
  exact ready_near s (msg0 (.slice slice3 3 0 0)) slice3 0x1000 0 rfl h1 h2 h3 h4 (by decide) h5

/-- The object's lines of SUM at home beside it. -/
@[irreducible] def summing : State := (reducing 0).modTile 0 fun x =>
  { x with bank := [65, 66].map fun l => { line := l, seq := 0, dirty := false, bad0 := false, bad1 := false } }

theorem summing_ready : summing.behind (msg0 (.slice slice3 3 0 0)) slice3 = false ∧ summing.keyLive 0 0 = true ∧
    summing.moving 0 = false ∧ summing.tiles[(0 : TileId)].inReset = false ∧ summing.nearHolder 64 = some 0 := by
  decide +kernel

theorem sums_witness :
    ((reducing 0).keepNear 0 (0x1000 / 64)).absent (slice3.objectSpans.drop 1) ≠ [] ∧
    summing.ready (msg0 (.slice slice3 3 0 0)) slice3 true false = .go (summing.keepNear 0 (0x1000 / 64)) ∧
    (summing.keepNear 0 (0x1000 / 64)).absent (slice3.objectSpans.drop 1) = [] ∧
    (let y := (summing.keepNear 0 (0x1000 / 64)).useLines (slice3.objectSpans.drop 1)
     Comes y 0 (msg0 (.slice slice3 3 0 0)) ∧
      y.sliceRoom slice3 3 (y.refusedBefore 0 7 none Body.isSlice) = true ∧
      ∀ z ∈ slice3.objectSpans, (y.accept (msg0 (.slice slice3 3 0 0))).placeBad z.1 z.2 = false) := by
  obtain ⟨h1, h2, h3, h4, h5⟩ := summing_ready
  refine ⟨absent_some _ _ (by decide +kernel), ?_, absent_none _ _ (by decide +kernel),
    ⟨⟨?_, ?_, rfl, rfl, rfl, rfl, ?_, passes_beside _ _ ?_ ?_⟩, ?_⟩, ?_, ?_⟩
  · generalize summing = s at *
    exact ready_near s (msg0 (.slice slice3 3 0 0)) slice3 0x1000 0 rfl h1 h2 h3 h4 (by decide) h5
  all_goals decide +kernel

theorem slices_room_witness :
    (reducing 0).sliceRoom slice3 3 0 = true ∧ (reducing 0).sliceRoom slice3 3 32 = false ∧ (reducing 32).sliceRoom slice3 3 0 = false := by
  decide +kernel

/-- Messages that do not come: one of a tile whose next-hop words are on the tree, one that its own interface refuses, and one ahead of
its pair's count, alone and behind eight that are held. -/
theorem strays_witness :
    ({ relayed .borrow with config := [{ config0 1 with target := 1, body := .hop 0 5 }] } : State).hopsPending 1 = true ∧
    ((relayed .borrow).modTile 1 fun x => { x with part := some 1 }).passes (msg0 .borrow) = false ∧
    (let m := { msg0 .borrow with seqno := 9 }
     let s : State := { beside with relay := [m] }
     let l : List Msg := m :: (List.range 8).map fun i => { msg0 .borrow with uid := 20 + i, seqno := BitVec.ofNat 16 (i + 1), held := true }
     let full : State := { beside with relay := l }
     OnItsWay s 0 m ∧ m.seqno ≠ s.recvCount m.src m.dst ∧ s.heldAhead m < 8 ∧ OnItsWay full 0 m ∧ 8 ≤ full.heldAhead m) := by
  have hp (s : State) (h0 : s.tiles[(0 : TileId)].part = some 0) (h1 : s.tiles[(1 : TileId)].part = some 0) :
      s.passes { msg0 .borrow with seqno := 9 } = true := passes_beside s .borrow h0 h1
  refine ⟨by decide, ?_, ⟨rfl, rfl, rfl, rfl, rfl, rfl, rfl, hp _ rfl rfl⟩, by decide, by decide,
    ⟨rfl, rfl, rfl, rfl, rfl, rfl, rfl, hp _ rfl rfl⟩, by decide⟩
  have h (s : State) (n : Nat) (h1 : s.tiles[(1 : TileId)].part = some 1) : s.routed 0 0 (n + 1) 1 = false := by
    simp only [State.routed, h1, show ((some 1 : Option PartId) == some 0) = false from rfl, Bool.false_and]
  exact Bool.and_eq_false_iff.2 (Or.inr (h _ 1023 rfl))

/-- A message that an error has struck fails its CRC. -/
theorem struck_witness : (relayed .borrow).passes { msg0 .borrow with struck := true } = false := rfl

theorem witness_RelayMessages :
    ((relayed .borrow).relay[0]? = some (msg0 .borrow) ∧ ((relayed .borrow).relay.find? fun x => x.uid == 7) = some (msg0 .borrow) ∧
      ArrivalOf 0 Body.borrow (.borrow 0) ∧ (msg0 .borrow).body.isAck = false) ∧
    ({ msg0 .borrow with seqno := 1 }.seqno ≠ (relayed .borrow).recvCount 1 0) ∧
    ((relayed .borrow).modTile 0 fun x => { x with part := some 1 }).tiles[(0 : TileId)].part ≠ some (msg0 .borrow).part ∧
    (Comes (relayed (.read (req0 (.win 0 0x1000)))) 0 (msg0 (.read (req0 (.win 0 0x1000)))) ∧
      ∃ x, (relayed (.read (req0 (.win 0 0x1000)))).ready (msg0 (.read (req0 (.win 0 0x1000)))) (req0 (.win 0 0x1000)) false false = .go x) ∧
    (accepted (.write (req0 (.win 0 0x1000)) 5)).relay.map (·.arrived.isSome) = [true] ∧
    (Comes (relayed (.pair pair0 false (0, 0))) 0 (msg0 (.pair pair0 false (0, 0))) ∧ (relayed .borrow).lendOne 0 1 = none) ∧
    (mail (relayed (.msg 0 2 3 5 1 9)) 0 0).length < 32 ∧
    32 ≤ (mail ((relayed .borrow).modTileSeq 0 0 fun x => { x with messages := List.replicate 32 (1, 0, 1, 0) }) 0 0).length ∧
    ((relayed (.ack 0)).relay[0]? = some (msg0 (.ack 0)) ∧ (msg0 .borrow).acked = false) := by
  refine ⟨⟨rfl, rfl, rfl, rfl⟩, by decide, by decide, ⟨comes_relayed _, _, rfl⟩, rfl, ⟨comes_relayed _, by decide⟩, by decide, by decide, rfl, rfl⟩

/-- A request of a home for line 5. -/
def memReq (op : MemOp) (queued : Bool) : MemReq :=
  { uid := 7, op := op, line := 5, home := 0, seq := 0, queued := queued, bad0 := false, bad1 := false }

/-- The package with stack 0 up and that request. -/
def serving (op : MemOp) (queued : Bool) : State :=
  { memory with transfers := [memReq op queued],
                hbmStacks := memory.hbmStacks.set 0 { Stack.zero with up := true } }

/-- A set of tile 0's bank whose 16 ways are in use; the oldest is dirty where `d` holds. -/
def fullSet (d : Bool) : State :=
  (serving .rdata false).modTile 0 fun x =>
    { x with bank := (List.range 16).map fun i => { line := 5 + 2048 * 64 * (i + 1), seq := 0, dirty := d, bad0 := false, bad1 := false } }

theorem witness_MemoryServed :
    ((serving .read false).transfers[0]? = some (memReq .read false) ∧ (before (serving .read false) (memReq .read false)).length < 32 ∧
      32 ≤ (before { serving .read false with transfers := List.replicate 32 (memReq .read true) } (memReq .read false)).length) ∧
    (((serving .read true).transfers.find? fun x => x.queued && partOf x.seq == 0 && portOf x.pa == 0 && chanOf x.pa == 5) =
        some (memReq .read true) ∧
      (serving .read true).hbmStacks[stackOf 320].up = true ∧ (serving .read true).hbmStacks[stackOf 320].retraining = false ∧
      pseudoOf 320 ∉ (serving .read true).hbmStacks[stackOf 320].fenced ∧ State.reset.hbmStacks[stackOf 320].up = false) ∧
    ((serving .rdata false).transfers[0]? = some (memReq .rdata false) ∧ (serving .rdata false).tiles[(0 : TileId)].inReset = false ∧
      ((serving .rdata false).tiles[(0 : TileId)].bank.filter fun l => sameSet l.line 5).length < 16) ∧
    (∀ d, 16 ≤ ((fullSet d).tiles[(0 : TileId)].bank.filter fun l => sameSet l.line 5).length ∧
      ∃ v, ((fullSet d).tiles[(0 : TileId)].bank.filter fun l => sameSet l.line 5).getLast? = some v ∧ v.dirty = d ∧
        ∀ y ∈ (fullSet d).transfers, ¬(y.home = 0 ∧ y.line = v.line)) ∧
    ((memReq .wack false).op = .wack ∧ (memReq .nack false).op = .nack ∧ (serving .nack false).bankLine 320 0 = none ∧
      (fullSet false).bankLine (64 * (5 + 2048 * 64)) 0 ≠ none) ∧
    ((memReq (.bypass 7) false).op = .bypass 7 ∧ before (serving (.bypass 7) false) (memReq (.bypass 7) false) = [] ∧
      { msg0 (.read (req0 (.hbm 320 0))) with arrived := some 5 }.arrived.isSome = true) := by
  refine ⟨⟨rfl, by decide, by decide⟩, ⟨by decide, by decide, by decide, by decide, by decide⟩, ⟨rfl, rfl, by decide⟩, ?_,
    ⟨rfl, rfl, by decide, by decide⟩, rfl, by decide, rfl⟩
  intro d
  cases d
  all_goals exact ⟨by decide, _, rfl, rfl, by decide⟩

/-- The request circuit of partition 0 to port 0. -/
def standing0 : Standing :=
  { part := some 0, port := some (portOf 320, false), die := 0, route := tileRoute 0, path := [], slots := [1], delay := 2 }

/-- Circuits to the ports, requests served before another, and a message that is read over a bypass. -/
theorem circuits_to_ports_witness :
    (Circuited { serving .read false with standing := [standing0] } (memReq .read false) ∧ ¬ Circuited (serving .read false) (memReq .read false)) ∧
    ((serving .read true).servedBefore (memReq .read true) = false ∧
      ({ serving .read true with transfers := [{ memReq .read true with uid := 6 }, memReq .read true] } : State).servedBefore
        (memReq .read true) = true) ∧
    ((relayed (.read (req0 (.hbm 320 0)))).relay.find? fun y => y.uid == 7) = some (msg0 (.read (req0 (.hbm 320 0)))) ∧
    (msg0 (.read (req0 (.hbm 320 0)))).body.byop < 4 ∧
    ((relayed (.read (req0 (.hbm 320 0)))).relay.findIdx? fun y => y.uid == 7) = some 0 ∧
    (memory.modTile 0 fun x => { x with near := [5] }).nearHolder 5 = some 0 := by
  unfold Circuited
  refine ⟨⟨by decide, by decide⟩, ⟨by decide, by decide⟩, rfl, by decide, by decide, by decide +kernel⟩

/-! ### The scheduler, walks, events -/

/-- The thread in front, changed. -/
def front (f : Strand → Strand) : State := memory.modStrand f

/-- A saved thread beside it. -/
def rivalled : State := (front fun x => { x with quantum := 4096, ctx := { x.ctx with sleeping := true } }).modCore 0 fun c =>
  { c with threads := c.threads.set 1 (some { Thread.bare with owner := 2, state := .saved }) }

theorem strands_witness :
    (Front (front fun x => { x with waited := 1, preempt := some 256 }) 0 0 ∧
      0 < ((front fun x => { x with waited := 1, preempt := some 256 }).strandAt 0 0).waited ∧
      ((front fun x => { x with waited := 1, preempt := some 256 }).strandAt 0 0).preempt = some 256) ∧
    (Front rivalled 0 0 ∧ 4096 ≤ (rivalled.strandAt 0 0).quantum ∧ rivalled.rival wordExec 0 0 = true) ∧
    (front fun x => { x with quantum := 4096, ctx := { x.ctx with sleeping := true } }).rival wordExec 0 0 = false ∧
    (memory.modTile 0 fun x => { x with bag := [pair0] }).tiles[(0 : TileId)].bag = [pair0] ∧ pair0.park = 0 := by
  refine ⟨⟨by unfold Front; decide, by decide, by decide⟩, ⟨by unfold Front; decide, by decide, by decide +kernel⟩, by decide +kernel,
    by decide, rfl⟩

/-- A thread whose context has been loaded onto strand 1. -/
def loading0 (accs : Bool) : State := memory.modCore 0 fun c =>
  { c with loading := some (1, 1), threads := c.threads.set 1 (some { Thread.bare with owner := 2, state := .saved, accs := accs }) }

/-- A tile with room for a held spawn. -/
def spawning : State :=
  { memory with seqs := memory.seqs.set 0 (some { Sequence.bare with frames := 4, frameAt := [(0, { va := 0x80003000, pa := 0x3000 })] }) }.modCore
    0 fun c => { c with sched := { c.sched with held := [{ seq := 0, entry := 0, arg := 9, pri := 1 }] } }

theorem threads_witness :
    (∀ a, (loading0 a).tiles[(0 : TileId)].core.loading = some (1, 1) ∧
      (loading0 a).tiles[(0 : TileId)].core.threads[(1 : Fin 32)] = some { Thread.bare with owner := 2, state := .saved, accs := a }) ∧
    (((loading0 true).modMatrix 0 fun m => { m with clearing := true }).tiles[(0 : TileId)].matrix.clearing = true ∧
      ((loading0 true).modMatrix 0 fun m => { m with holder := some (1, 0) }).tiles[(0 : TileId)].matrix.holder.isSome = true) ∧
    (Front ((localRewrite id).modStrand fun x => { x with work := .rewrite { rewrite0 with bundles := 4096 } }) 0 0 ∧
      4096 ≤ ({ rewrite0 with bundles := 4096 } : Rewrite).bundles ∧ rewrite0.bundles < 4096) ∧
    (let s := (memory.modTile 1 fun x => { x with part := some 0 }).modCore 0 fun c => { c with sched := { c.sched with idle := 256 } }
     s.tiles[(0 : TileId)].part = some 0 ∧ (s.askNext 0).isSome = true ∧ 256 ≤ s.tiles[(0 : TileId)].core.sched.idle ∧
      s.tiles[(0 : TileId)].core.sched.borrowed < 16 ∧ s.tiles[(0 : TileId)].core.sched.stopped = false) ∧
    (spawning.tiles[(0 : TileId)].core.sched.held = [{ seq := 0, entry := 0, arg := 9, pri := 1 }] ∧
      ((spawning.modCore 0 fun c => { c with sched := { c.sched with held := [] } }).startThread 0 0 0 9 1).isSome = true ∧
      memory.startThread 0 5 0 9 1 = none) ∧
    (memory.modCore 0 fun c => { c with hold := true, divider := some { owner := 1, pend := 3, val := 9 } }).tiles[(0 : TileId)].core.hold = true := by
  refine ⟨fun a => ⟨rfl, rfl⟩, ⟨rfl, rfl⟩, ⟨rfl, by decide, by decide⟩, ⟨rfl, by decide, by decide, by decide, rfl⟩, ⟨rfl, by decide +kernel, rfl⟩, rfl⟩

/-- A pool to refill: 64 nodes are left. -/
def refillable : State :=
  { mapped with seqs := mapped.seqs.set 0 (some { Sequence.bare with s1root := 0x20000, nodesLeft := 64 }) }

theorem witness_SchedulerEvents :
    (refillable.seqs[(0 : SeqId)]).map (·.nodesLeft) = some 64 ∧ (refillable.tiles[(0 : TileId)].seqOn 0).head = 0 ∧
      refillable.nodePlace 0 0 (lineOf 0x80002000) = some (.hbm 0x2000 0) := by
  decide +kernel

/-- The thread in front with the line of its next bundle in the instruction cache: all its bytes are 0. -/
def zeroes (poison : Bool) : State := memory.modCore 0 fun c =>
  { c with icache := [{ seq := 0, line := 0, bytes := List.replicate 64 0, poison := poison }] }

theorem bundles_witness :
    (zeroes false).atBundle 0 = true ∧ ((zeroes false).focus 0).nextBundle = .words [0, 0, 0, 0] ∧
      (bundleFault (slotsOf [0, 0, 0, 0]) (((zeroes false).focus 0).ctx.crossed ((zeroes false).focus 0).ctx.pc)).isSome = true ∧
      ((zeroes true).focus 0).nextBundle = .stop (.fault .poison 0) := by
  decide

/-- The small address space with three more leaves: one whose page is missing at stage 2, one to be pinned by its first access, and one
that refuses; and with a queued walk. -/
def walking (va : W) : State :=
  let q (s : State) (x : Nat × Nat) : State := s.writeNum (.seq 0) (.hbm x.1 0) 8 x.2
  let s := [(0x21018, 127 + 2 ^ 30), (0x21020, 383), (0x21028, 0)].foldl q (mapped.writeNum .firmware (.hbm 0x11008 0) 8 0)
  s.modTile 0 fun x => { x with walks := [{ seq := 0, va := va, acc := .read, into := [(0, 0)], who := [.thread 0 1] }] }

/-- How a walk of the small address space ends: found, missing, to be pinned, refused, poisoned. -/
def ends_ (va : W) : Nat :=
  match (walking va).walk 0 0 va with
  | .done _ => 0
  | .missing .. => 1
  | .touch .. => 2
  | .fault _ => 3
  | .poisoned => 4

theorem walks_witness : ends_ 0x40001000 = 0 ∧ ends_ 0xC0000000 = 1 ∧ ends_ 0x100000000 = 2 ∧ ends_ 0x140000000 = 3 := by decide +kernel

/-- A walk whose stage-2 root is poisoned. -/
theorem poisoned_walk_witness :
    ({ brought [] mapped with hbmStacks := mapped.hbmStacks.set 0 { Stack.zero with bad := [0x10000 / 32] } } : State).walk 0 0 0x1000 = .poisoned := by
  decide +kernel

/-- A walk whose tables stand at their homes, and one whose tables do not. -/
theorem walk_lines_witness : (walking 0x40001000).absent ((walking 0x40001000).walkSpans 0 0 0x40001000) = [] ∧
    (brought [] (walking 0x40001000)).absent ((brought [] (walking 0x40001000)).walkSpans 0 0 0x40001000) ≠ [] :=
  ⟨absent_none _ _ (by decide +kernel), absent_some _ _ (by decide +kernel)⟩

theorem walk_queued_witness : (walking 0x40001000).tiles[(0 : TileId)].walks.length = 1 ∧ (walking 0x40001000).still 0 = false := by decide +kernel

/-- An event of the management function. -/
def event0 : EventRec := { fn := 192, part := 15, seq := 0, code := 1, time := 0, detail := [] }

theorem witness_SystemEvents :
    (let x := { Die.zero with events := [event0] }
     x.inReset = false ∧ x.nextQueue = some 16 ∧ (x.events.find? fun y => y.queue == 16) = some event0) ∧
    ({ Die.zero with inReset := true } : Die).inReset = true ∧ State.reset.eventWay 0 = true ∧ State.reset.eventWay 1 = false ∧
    (let x := { Sequence.bare with sweepLeft := [((0 : DieId), [2 ^ 57, 64])] }
     (x.sweepLeft.find? fun y => y.1 == 0) = some (0, [2 ^ 57, 64]) ∧ x.slots[(0 : DieId)] = some 0) ∧
    (Sequence.bare.windowEnd = 0) := by
  refine ⟨⟨rfl, by decide, by decide⟩, rfl, rfl, by decide +kernel, ⟨by decide, by decide⟩, rfl⟩

/-! ### The host port -/

/-- The header of a message of a kind from a function, the first of its stream. -/
def hdr0 (fn : BitVec 8) (kind : BitVec 8) : HostHdr :=
  { kind := kind, ver := 1, fn := fn, owner := fn, seqno := 0, ack := 0, corr := 5, lenOk := true, form := .plain }

/-- The body of a partition of block 0 with VF 0 and no memory circuits. -/
def create0 : CreateBody :=
  { part := 0, linkbud := 4, blocks := 1, s2root := 0x10000, vfs := 1, membud := List.replicate 12 0, mslots := 1, reserved := false }

/-- The package after reset in a cold state. -/
def inCold (x : ColdState) : State := { State.reset with cold := { State.reset.cold with state := x } }

theorem listens_witness : Claims.Listens State.reset (hdr0 255 1) 192 1 ∧ Claims.Listens State.reset (hdr0 0 1) 0 1 ∧
    Claims.Listens State.reset (hdr0 0 5) 0 5 ∧ Claims.Listens State.reset (hdr0 0 6) 0 6 ∧ Claims.Listens State.reset (hdr0 0 7) 0 7 := by
  unfold Claims.Listens; decide +kernel

theorem port_witness :
    (hdr0 0 1).kind ≠ (HostCmd.handled).kind ∨ (hdr0 0 1).ver ≠ 1 ∨ (hdr0 0 1).lenOk = true := by decide

/-- Messages far ahead of the stream, and behind it. -/
theorem port_order_witness :
    (badDatagram { hdr0 255 1 with seqno := 33 } .cool = false ∧ (State.reset.streams[(192 : Fin 193)]).expect + 32 < (33 : W).toNat ∨
      badDatagram { hdr0 255 1 with seqno := 34 } .cool = false ∧ (State.reset.streams[(192 : Fin 193)]).expect + 32 < (34 : W).toNat) ∧
    (badDatagram (hdr0 255 1) .cool = false ∧
      (hdr0 255 1).seqno.toNat < ((State.reset.modStream 192 fun x => { x with expect := 7 }).streams[(192 : Fin 193)]).expect) ∧
    (hdr0 255 1).kind ≠ (HostCmd.hostRead { seq := 0, va := 0, len := 8, data := [] }).kind := by decide +kernel

/-- A body that is granted, one that no partition can have, and one refused. -/
theorem create_witness :
    (inCold .cold).badCreate create0 = false ∧ (inCold .cold).refusesCreate create0 = false ∧
      (inCold .cold).badCreate { create0 with reserved := true } = true ∧ (inCold .warm).refusesCreate create0 = true ∧
      (inCold .cold).parts[(0 : PartId)] = none := by
  decide +kernel

theorem manager_witness :
    Claims.Listens (inCold .cold) (hdr0 255 1) 192 1 ∧
    ({ State.reset with parts := State.reset.parts.set 0 (some Partition.bare) }.parts[(0 : PartId)]).isSome = true ∧
    (State.reset.dies[(0 : DieId)].fenced = false ∧ State.reset.dies[(0 : DieId)].stopping = none ∧
      State.reset.dies[(0 : DieId)].inReset = false) ∧
    ((State.reset.s2Write { part := 0, ipa := 0, level := 0, value := 0 }).isSome = true) ∧
    (siteReserved 0x1000000000 = false ∧ (State.reset.placeWord 0).running 0 = true) := by
  unfold Claims.Listens; decide +kernel

theorem package_witness :
    Claims.Listens (inCold .warm) (hdr0 255 1) 192 1 ∧ Claims.Listens (inCold .nightfall) (hdr0 255 1) 192 1 ∧
    Claims.Listens (inCold .twilight) (hdr0 255 1) 192 1 ∧ Claims.Listens (inCold .daybreak) (hdr0 255 1) 192 1 ∧
    (let s := { State.reset with dies := State.reset.dies.map fun (d : Die) => { d with temp := 2500 },
                                 hbmStacks := State.reset.hbmStacks.map fun (k : Stack) => { k with temp := 2500 } }
     s.cold.state = .warm ∧ ∀ x ∈ s.temps, x ≤ 2500) := by
  unfold Claims.Listens; decide +kernel

/-- A state in which VF 0 owns sequence 0 of partition 0. -/
def owned : State :=
  { State.reset with parts := State.reset.parts.set 0 (some { Partition.bare with vfs := 1 }),
                     seqs := State.reset.seqs.set 0 (some Sequence.bare) }

/-- A body of START_SEQUENCE that places nothing. -/
def start0 : StartBody :=
  { descva := 0, s1root := 0, nodeBudget := 0, poolPages := 0, frames := 1, taPanes := 0, spillKb := 0, places := [], rtiles := [],
    seeds := [], reserved := false, pools := [], frameAt := [] }

/-- Commands with an unknown CODE and with a reserved field set, of a VF that owns its sequence and of the MF. -/
theorem refused_witness :
    let h (f : CmdForm) := { hdr0 0 1 with form := f }
    (h .unknown).form = .unknown ∧ (h .reserved).form = .reserved ∧ (HostCmd.keyRotate 0).kind = 1 ∧
    Claims.Listens owned { h .unknown with form := .plain } 0 1 ∧ Claims.Listens owned { h .reserved with form := .plain } 0 1 ∧
    (Claims.heard owned 0 (h .reserved)).ownSeq 0 0 = some 0 ∧ (0 : Fin 193) = vfFn 0 ∧
    (Claims.heard owned 0 (h .reserved)).reservedStatus 0 (.keyRotate 0) = 0x82 ∧
    (State.reset).reservedStatus 0 (.startSequence start0) = 0x09 ∧ owned.reservedStatus 0 (.startSequence start0) = 0x01 ∧
    owned.reservedStatus 192 (.keyRotate 0) = 0x81 := by
  unfold Claims.Listens; decide +kernel

/-- A die that stops for a reset. -/
def stopping (x : Bool) : State := State.reset.modDie 1 fun d => { d with stopping := some (hdr0 255 1), inReset := x }

theorem ends_witness : (stopping true).dies[(1 : DieId)].stopping = some (hdr0 255 1) ∧ (stopping true).dies[(1 : DieId)].inReset = true ∧
    (stopping false).dies[(1 : DieId)].stopping = some (hdr0 255 1) ∧ (stopping false).dies[(1 : DieId)].inReset = false ∧
    (stopping true).domain.sid < (stopping true).dies[(1 : DieId)].resetAt + 40000000 ∧
    (let s := { stopping true with domain := { State.reset.domain with sid := 80000000 } }
     s.dies[(1 : DieId)].resetAt + 80000000 ≤ s.domain.sid) := by decide +kernel

/-- A page tag of VF 0. -/
def tag0 : PageTag :=
  { tag := 3, ipa := 0x5000, size := 0, acc := 0, seq := 0, tile := 0, retired := false, raised := 0, waiters := [] }

theorem witness_FunctionCommands :
    (Claims.Listens owned (hdr0 0 1) 0 1 ∧ owned.ownSeq 0 0 = some 0 ∧ owned.partOfVf 0 = some 0 ∧ owned.seqs[(0 : SeqId)] = some Sequence.bare ∧
      State.reset.partOfVf 0 = none ∧ owned.ownSeq 0 1 = none ∧ (0x3000 : W).toNat % 4096 = 0 ∧
      (owned.tlbInval 0 { seq := 0, page := none }).isSome = true) ∧
    (Claims.Listens owned (hdr0 0 6) 0 6 ∧ Claims.Listens owned (hdr0 0 7) 0 7 ∧
      badAccess { seq := 0, va := 8, len := 8, data := [] } false = false ∧ badAccess { seq := 0, va := 4, len := 8, data := [] } false = true ∧
      badAccess { seq := 0, va := 8, len := 8, data := List.replicate 8 1 } true = false ∧
      badAccess { seq := 0, va := 8, len := 8, data := [] } true = true) ∧
    (let s := owned.modStream 0 fun x => { x with tags := [tag0] }
     Claims.Listens s (hdr0 0 5) 0 5 ∧ (s.streams[vfFn 0].tags.find? fun x => x.tag == 3) = some tag0 ∧ tag0.ipa / 4096 = (5 : BitVec 36).toNat ∧
      (s.streams[vfFn 0].tags.find? fun x => x.tag == 4) = none) := by
  have h : (owned.tlbInval 0 { seq := 0, page := none }).isSome = true := by
    unfold State.tlbInval
    simp only [nothing_waits owned _ _ _ rfl reset_quiet]
    rfl
  unfold Claims.Listens
  refine ⟨⟨?_, ?_, ?_, ?_, ?_, ?_, ?_, h⟩, ?_, ?_⟩ <;> decide +kernel

/-- The small address space under a live key. -/
def keyed0 : State :=
  let s := mapped.modDie 0 fun (d : Die) => { d with keys := d.keys.set 0 { d.keys[0] with state := .live, key0 := 1, key1 := 1 } }
  let q (s : State) (x : Nat × Nat) : State := s.writeNum (.seq 0) (.hbm x.1 0) 8 x.2
  [(0x20000, 0x21001), (0x21000, 127), (0x21008, 639), (0x21010, 255), (0x21018, 0)].foldl q s

/-- What the last walk and the checks say to a read by the host. -/
def unitOf (va : W) : Option TileId × Option Xlat :=
  match keyed0.walk 0 0 va with
  | .touch .. => (none, none)
  | .done _ | .fault _ | .missing .. | .poisoned => (some (keyed0.firstTile (partOf 0)), some (keyed0.xlateWalk 0 0 .read va))

/-- A unit of a read of HBM whose lines are at home, of a package all of whose dies meet, and one that faults. -/
theorem unit_read (va : W) (c : Cause) (pa : Nat) (e : TlbEntry) (ha : keyed0.absent (keyed0.walkSpans 0 0 va) = [])
    (hl : keyed0.absent [(.hbm pa 0, 8)] = []) :
    (unitOf va = (some 0, some (.fault c)) → keyed0.hostUnit 0 false va = .fault c) ∧
    (unitOf va = (some 0, some (.at_ (.hbm pa 0) e)) → keyed0.hostUnit 0 false va = .at_ (.hbm pa 0)) := by
  have hm : keyed0.meetsZero (dieOf 0) = true := by decide +kernel
  have hk : keyed0.keyLive 0 (dieOf 0) = true := by decide +kernel
  refine ⟨fun h => ?_, fun h => ?_⟩ <;>
  · unfold unitOf at h
    unfold State.hostUnit
    cases hw : keyed0.walk 0 0 va <;> rw [hw] at h
    case touch => exact absurd (congrArg Prod.fst h) (by simp)
    all_goals
      obtain ⟨h1, h2⟩ := Prod.mk.inj h
      simp only [Option.some.inj h1, hm, ha, hw, if_neg Bool.false_ne_true, Option.some.inj h2, hk, hl]
      rfl

theorem units_witness : keyed0.hostUnit 0 false 0x1000 = .at_ (.hbm 0x1000 0) ∧
    keyed0.hostUnit 0 false 0xC0000000 = .fault .xlateS1 := by
  have hl : keyed0.absent [(.hbm 0x1000 0, 8)] = [] := absent_none _ _ (by decide +kernel)
  let e : TlbEntry :=
    { seq := 0, page := 0, size := 3, window := none, frame := 0, perm1 := 7, perm2 := 7, pin := none, ipa := 4096, slot := 0 }
  exact ⟨(unit_read _ .poison _ e (absent_none _ _ (by decide +kernel)) hl).2 (by decide +kernel),
    (unit_read _ _ 0x1000 e (absent_none _ _ (by decide +kernel)) hl).1 (by decide +kernel)⟩

/-! ### The cold, spares, slot domains -/

/-- A package all of whose sensors are in band 0, at 80 K, in a cold state. -/
def chilled (x : ColdState) : State :=
  { inCold x with dies := State.reset.dies.map fun (d : Die) => { d with temp := 800, band := 0 },
                  hbmStacks := State.reset.hbmStacks.map fun (k : Stack) => { k with temp := 800, band := 0, refresh := 0 } }

/-- A package without supply. -/
def unsupplied : State := { State.reset with cold := { State.reset.cold with supply := false } }

theorem witness_ColdEvents :
    ((0 : Fin 5).val < Claims.risingBand 900 ∧ Claims.risingBand 830 ≤ (1 : Fin 5).val ∧ Claims.fallingBand 810 < (1 : Fin 5).val ∧
      (1 : Fin 5).val ≤ Claims.fallingBand 830) ∧
    (unsupplied.cold.supply = false ∧ State.reset.cold.supply = true ∧ State.reset.cold.state = .warm ∧ (∀ y ∈ [800, 800, 2500], y ≤ 2500)) ∧
    ((inCold .nightfall).cold.state = .nightfall ∧ (inCold .nightfall).domain.member = false) ∧
    (∀ b ∈ (chilled .cold).bands, b.val < 3) ∧ (∀ b ∈ (chilled .twilight).bands, b = 0) ∧ (∃ b ∈ (inCold .cold).bands, b ≠ 0) ∧
    4 ∈ (inCold .twilight).bands ∧ (∀ x ∈ (inCold .daybreak).temps, 2500 < x) ∧ (∀ x ∈ (chilled .nightfall).temps, x ≤ 820) ∧
    ((inCold .nightfall).cold.supply = true) := by decide +kernel

theorem supply_witness : (∃ x ∈ unsupplied.temps, 2500 < x) ∧
    ∀ x ∈ ({ chilled .cold with cold := unsupplied.cold } : State).temps, x ≤ 2500 := by decide +kernel

/-- A word on its way. -/
def wire0 : WireWord := { word := 9, lands := 5, done := none }

/-- A circuit with it. -/
theorem clock_witness :
    (let s := { State.reset with cold := { State.reset.cold with changing := some false } }
     s.cold.changing = some false ∧ (∀ c ∈ s.circuits, c.wire = []) ∧ 0 < s.domain.wheel) ∧
    (∃ c ∈ ({ State.reset with circuits := [{ circuit0 with wire := [wire0] }] } : State).circuits, c.wire ≠ []) ∧
    (let s := { State.reset with domain := { State.reset.domain with joining := some 5 } }
     s.cold.changing = none ∧ s.domain.joining = some 5 ∧ (∀ c ∈ s.circuits, c.wire = []) ∧ 0 < s.domain.wheel ∧
      0 ≤ Int.ofNat s.domain.sid + 5) ∧
    (State.reset.cold.changing = none ∧ State.reset.domain.joining = none) := by
  exact ⟨by decide +kernel, ⟨_, List.mem_cons_self .., by decide⟩, by decide +kernel, by decide +kernel⟩

theorem scrub_witness :
    (State.reset.cold.supply = true ∧ State.reset.hbmStacks[(0 : StackId)].scrubDue 5 = 5 ∧ State.reset.hbmStacks[(0 : StackId)].scrubDue 389 ≠ 389 ∧
      State.reset.flips = []) ∧
    (∀ t : TileId, (State.reset.tiles[t]).bank = []) ∧
    (({ Stack.zero with counts := [(7, (255, 0))] }.counts.find? fun y => y.1 == 7) = some (7, (255, 0)) ∧ 256 ≤ 255 + 1) ∧
    (({ Stack.zero with counts := [(7, (9, 0))] }.counts.find? fun y => y.1 == 7) = some (7, (9, 0)) ∧ 9 + 1 < 256) ∧
    (7 ∈ { Stack.zero with copying := [7] }.copying) := by
  refine ⟨by decide +kernel, fun t => ?_, by decide, by decide, by decide⟩
  simp [State.reset, Tile.zero]

theorem lanes_witness :
    (0 < State.reset.domain.wheel ∧ State.reset.domain.sid % State.reset.domain.wheel = 0) ∧
    ((3 : Fin 24) ∉ State.reset.dies[(0 : DieId)].modulesOut ∧ State.reset.dies[(0 : DieId)].moduleSpares[(3 : Fin 24)] ≠ 0) ∧
    (let d := { Die.zero with moduleSpares := Die.zero.moduleSpares.set 3 0 }
     (3 : Fin 24) ∉ d.modulesOut ∧ d.moduleSpares[(3 : Fin 24)] = 0 ∧ d.modulesOut.length < 4) ∧
    (let d := { Die.zero with moduleSpares := Die.zero.moduleSpares.set 3 0, modulesOut := [0, 1, 2, 4] }
     (3 : Fin 24) ∉ d.modulesOut ∧ d.moduleSpares[(3 : Fin 24)] = 0 ∧ 4 ≤ d.modulesOut.length) ∧
    (edgeModule 0 3 = (0, 3) ∧ edgeModule 1 44 = (0, 3)) ∧ (3 : Fin 48).val < 4 ∧ 4 ≤ (4 : Fin 48).val := by decide +kernel

theorem tiles_move_witness :
    (let s := State.reset.modCore 0 fun c => { c with fenced := true }
     s.tiles[(0 : TileId)].core.fenced = true ∧ s.dies[(0 : DieId)].fenced = false ∧ s.dies[(0 : DieId)].inReset = false ∧
      s.dies[(0 : DieId)].transplant = none ∧ s.cold.supply = true ∧ s.dies[(0 : DieId)].sparesUsed < 16) ∧
    (let s := (State.reset.modDie 0 fun d => { d with sparesUsed := 16 }).modTile 0 fun x => { x with part := some 0 }
     16 ≤ s.dies[(0 : DieId)].sparesUsed ∧ s.tiles[(0 : TileId)].part = some 0) ∧
    (State.reset.modDie 0 fun d => { d with transplant := some 5 }).dies[dieOf 5].transplant = some 5 ∧
    (let s := ({ State.reset with cold := { State.reset.cold with state := .cold } }).modCore 0 fun c =>
       { c with lost := [3], threads := c.threads.set 2 (some Thread.bare),
                strands := c.strands.set 3 { Strand.zero with work := .thread 2 } }
     s.running 0 = true ∧ s.tiles[(0 : TileId)].core.lost ≠ [] ∧ (s.strandAt 0 3).work = .thread 2 ∧
      s.tiles[(0 : TileId)].core.threads[(2 : Fin 32)] = some Thread.bare ∧ s.tiles[(0 : TileId)].core.lost.contains 3 = true) ∧
    (∀ k : StrandId, State.reset.tiles[(0 : TileId)].core.strands[k].work = .free) := by decide +kernel

theorem edges_witness :
    (let s := (State.reset.modDie 0 fun d => { d with nextUp := true }).modDie 1 fun d => { d with prevUp := true }
     s.dies[(0 : DieId)].nextUp = true ∧ s.meetsZero 1 = true) ∧
    (State.reset.dies[(1 : DieId)].nextUp = false ∧ State.reset.dies[nextDie 1].prevUp = false ∧ State.reset.meetsZero 1 = false ∧
      State.reset.dies[(1 : DieId)].fenced = false) := by
  decide +kernel

/-- The package with a changed slot domain. -/
def domained (f : Domain → Domain) : State := { State.reset with domain := f State.reset.domain }

/-- A package whose port 0 is up. -/
def ported (f : PeerPort → PeerPort) : State :=
  { domained (fun d => { d with upstream := some 0 }) with ports := State.reset.ports.set 0 (f { State.reset.ports[0] with up := true }) }

theorem witness_SlotDomainEvents :
    (State.reset.domain.wheel = 8 ∧ State.reset.domain.upstream ≠ some 0 ∧ (ported id).ports[(0 : Fin 16)].up = true) ∧
    ((ported id).domain.upstream = some 0 ∧ (ported fun p => { p with t1 := some 9 }).ports[(0 : Fin 16)].t1.isSome = true) ∧
    (let s := ported fun p => { p with t1 := some 1, t2 := some 2, t3 := some 3, t4 := some 4 }
     s.domain.upstream = some 0 ∧ Claims.Near 1 2 ∧ Claims.Near 3 4 ∧ s.ports[(0 : Fin 16)].t1 = some 1 ∧ s.ports[(0 : Fin 16)].t2 = some 2 ∧
      s.ports[(0 : Fin 16)].t3 = some 3 ∧ s.ports[(0 : Fin 16)].t4 = some 4 ∧ s.domain.member = false ∧ State.reset.cold.slow = true) ∧
    (State.reset.circuits = [] ∧ State.reset.domain.frozen = [] ∧ State.reset.standing = [] ∧ ({ State.reset with circuits := [circuit0] } : State).circuits ≠ [] ∧
      State.reset.domain.wheel ≠ 8 * 2 ^ (1 : Fin 4).val) ∧
    ((3 : BitVec 12) ∉ State.reset.domain.epochs ∧ 3 ∈ (domained fun d => { d with epochs := [3] }).domain.epochs) ∧
    (Claims.NoCircuitOf State.reset 7 ∧ (7 : Fin 4096) ∉ State.reset.domain.fencedPkgs ∧
      7 ∈ (domained fun d => { d with fencedPkgs := [7] }).domain.fencedPkgs ∧
      (7 : Fin 4096) ∉ State.reset.domain.revokedPkgs ∧ 7 ∈ (domained fun d => { d with revokedPkgs := [7] }).domain.revokedPkgs) ∧
    ((domained fun d => { d with drains := [(7, 1)] }).domain.drains.find? fun x => x.1 == 7) = some (7, 1) ∧
    ((domained fun d => { d with drains := [(7, 3)] }).domain.drains.find? fun x => x.1 == 7) = some (7, 3) ∧
    ((ported fun p => { p with revoked := [1] }).ports[(0 : Fin 16)].up = true ∧
      (1 : BitVec 16) ∈ (ported fun p => { p with revoked := [1] }).ports[(0 : Fin 16)].revoked ∧ (2 : BitVec 16) ∉ (ported id).ports[(0 : Fin 16)].revoked) := by
  unfold Claims.NoCircuitOf Claims.Near; decide +kernel

/-- Packages that may join, and one that may not; and the cold states that train links, and do not. -/
theorem joins_witness :
    (chilled .cold).mayJoin = false ∧ ({ chilled .cold with cold := { (chilled .cold).cold with slow := false } } : State).mayJoin = true ∧
    (chilled .cold).cold.state = .cold ∧ (inCold .twilight).cold.state = .twilight ∧ State.reset.cold.state ≠ .cold ∧
    State.reset.cold.state ≠ .twilight ∧ (∀ c ∈ State.reset.circuits, c.peer.any (fun x => x.1 == 0) = false) ∧
    State.reset.ports[(0 : Fin 16)].attached = 0 := by decide +kernel

theorem peer_word_witness (b : Bool) :
    (let c := { circuit0 with peer := some (0, false), latch := b }
     ({ ported id with circuits := [c] }.circuit circuit0.handle = some c) ∧ c.peer = some (0, false) ∧ c.latch = b ∧
      c.departure 8 1 (2 * 8 + (c.sets.getLast?).elim 0 (·.1)) = some 3) := by
  cases b <;> decide +kernel

/-! ### The step -/

theorem witness_CallLinkWins :
    Performed memory ∧
    (let s := State.reset.modCtx fun x => { x with inflight := [landing0 (.g 63) 1, landing0 (.g 63) 2] }
     (s.strandAt 0 0).ctx.inflight = [landing0 (.g 63) 1, landing0 (.g 63) 2] ∧ (landing0 (.g 63) 1).due ≤ (s.strandAt 0 0).ctx.clock) := by
  refine ⟨rfl, rfl, by decide⟩

/-- An ADDI placed at the program counter, after the step's tick. -/
def placed : State := let s := State.reset.withFetchWord 32 0x82180007
  { s.tick with cur := s.cur }

/-- It has been decided and its results are landed. -/
def boundary : State := placed.land placed.cur 0

/-- The word. -/
def addi6 : Word := { e := true, w := 0, i := .addi 6 0 7 }

theorem placed_settled : placed.settle placed.cur = placed := by
  rfl

theorem boundary_fetches : (boundary.focus 0).nextBundle = .words [0x82180007] := by decide +kernel

theorem boundary_verdict : (boundary.focus 0).nextVerdict exec = (.pass, [{ pos := 0, raw := 0x82180007, word := some addi6 }]) := by
  decide +kernel

theorem witness_StepRunsDecodedInstruction :
    (State.reset.withFetchWord 32 0x82180007).agenda = [] ∧ (State.reset.withFetchWord 32 0x82180007).domain.sid % 2 = 0 ∧
    Claims.AtBoundary placed boundary 0 ∧ (match decodeWord 0x82180007 with | .ok w => some w | .error _ => none) = some addi6 ∧
    (boundary.focus placed.cur).tile.core.released = [] ∧ (boundary.focus placed.cur).tile.core.retryRegs = none ∧
    (let x : Slot := { pos := 0, raw := 0x82180007, word := some addi6 }
     (Claims.fetched1 (boundary.focus placed.cur) x).mismatched [x] = false) := by
  unfold Claims.AtBoundary
  exact ⟨rfl, rfl, ⟨by decide +kernel, by decide +kernel, by decide +kernel, by decide +kernel, by decide +kernel, by decide +kernel, by decide +kernel, by decide +kernel,
    placed_settled, by decide +kernel, by decide +kernel, by decide +kernel, rfl, by decide +kernel, by decide +kernel, by decide +kernel,
    by decide +kernel, by decide +kernel, by decide +kernel, by decide +kernel⟩, by decide +kernel, by decide +kernel, by decide +kernel,
    by decide +kernel⟩

/-- With a message on its way there is work to do in the background. -/
theorem background_of_relay (s : State) (h : s.cold.supply = true) (m : s.relay ≠ []) : s.background.isSome = true := by
  have e : s.underWay ≠ [] := by simp [State.underWay, m]
  have p : 0 < s.underWay.length := List.length_pos_iff.mpr e
  simp only [State.background, h, if_true]
  rw [List.getElem?_eq_getElem (Nat.mod_lt _ p)]
  rfl

/-- Agendas, and background work at an odd SIDCOUNT. -/
theorem step_forms_witness :
    ({ State.reset with agenda := [.step .supplyLoss, .core 5] } : State).agenda = .step .supplyLoss :: [.core 5] ∧
    ({ State.reset with agenda := [.core 5] } : State).agenda = .core 5 :: [] ∧
    (domained fun d => { d with sid := 1 }).agenda = [] ∧ (domained fun d => { d with sid := 1 }).domain.sid % 2 = 1 ∧
    (∀ u, Claims.InTime State.reset u) ∧
    (let s : State := { State.reset with pending := [tableWrite0], agenda := [.step (.peerLinkWander 0)], domain := { State.reset.domain with sid := 40 } }
     s.nextDue = some (16, .tables) ∧ ∃ u, s.proposed = .next u ∧ 16 < u.domain.sid) :=
  ⟨rfl, rfl, rfl, rfl, fun _ n x h => (nomatch h), by decide, _, rfl, by decide +kernel⟩

/-- A line with two words at its start: ADDI g6, g0, 7 twice, the second with E = 1. -/
def line0 (poison : Bool) : ILine := { seq := 0, line := 0, bytes := [7, 0, 24, 2, 7, 0, 24, 130] ++ List.replicate 56 0, poison := poison }

/-- A tile whose instruction cache holds it. -/
def cached (poison : Bool) : State := memory.modCore 0 fun c => { c with icache := [line0 poison] }

theorem witness_FetchReadsTheWord (b : Bool) :
    (cached b).fetchLine 0 = .ok (line0 b) ∧ (((line0 b).bytes.drop ((0 : W).toNat % 64)).take 4 = [7, 0, 24, 2]) ∧
    (((line0 b).bytes.drop ((4 : W).toNat % 64)).take 4 = [7, 0, 24, 130]) ∧
    (cached false).fetchBundle (0 + 4) 3 = .words [0x82180007] := by
  refine ⟨?_, by cases b <;> decide, by cases b <;> decide, by decide +kernel⟩
  cases b <;> rfl

theorem witness_EveryInstructionAnswers : (encodeWord addi6).isSome = true := by decide +kernel

theorem inv_witness : State.reset.Inv ∧ ∃ t, step (State.reset.withFetchWord 32 0x82180007) = .next t :=
  ⟨⟨rfl, ⟨rfl, by decide⟩, by unfold State.wheelOk; decide⟩, _, rfl⟩

end Sys2Proof.Tests
end

section
/-! SUPPORT. What a change of the package leaves as it is: standing circuits, next-hop tables
and events (spec/12 R245, R258, spec/26 R422). -/

namespace Sys2Proof.Machine

/-! ### What a change leaves out -/

/-- What each step of a fold keeps, the fold keeps. -/
theorem foldl_keeps {σ α β : Type} {g : σ → β} {f : σ → α → σ} (h : ∀ a x, g (f a x) = g a) :
    ∀ (l : List α) (s : σ), g (l.foldl f s) = g s
  | [], _ => rfl
  | x :: l, s => (foldl_keeps h l (f s x)).trans (h s x)

/-- A state without its standing circuits, slot tables and configuration words: what their changes leave. -/
def State.unwired (s : State) : State := { s with standing := [], tables := [], pending := [], config := [], fresh := 0 }

/-- A die without its event queues. -/
def Die.unheard (x : Die) : Die := { x with events := [], dropped := [] }

/-- A state without the event queues of its dies: what an event leaves. -/
def State.unheard (s : State) : State := { s with dies := s.dies.map Die.unheard }

theorem State.unheard_die {s u : State} (h : u.unheard = s.unheard) (d : DieId) :
    u.dies[d].unheard = s.dies[d].unheard := by
  simpa [State.unheard] using congrArg (fun v : State => v.dies[d]) h

section Unheard
variable {s u : State} (h : u.unheard = s.unheard)
include h
theorem State.unheard_cold : u.cold = s.cold := (congrArg State.cold h :)
theorem State.unheard_mem : u.mem = s.mem := (congrArg State.mem h :)
theorem State.unheard_keyed : u.keyed = s.keyed := (congrArg State.keyed h :)
theorem State.unheard_tiles : u.tiles = s.tiles := (congrArg State.tiles h :)
theorem State.unheard_stacks : u.hbmStacks = s.hbmStacks := (congrArg State.hbmStacks h :)
theorem State.unheard_keys (d : DieId) : u.dies[d].keys = s.dies[d].keys := (congrArg Die.keys (State.unheard_die h d) :)
theorem State.unheard_nextUp (d : DieId) : u.dies[d].nextUp = s.dies[d].nextUp := (congrArg Die.nextUp (State.unheard_die h d) :)
theorem State.unheard_prevUp (d : DieId) : u.dies[d].prevUp = s.dies[d].prevUp := (congrArg Die.prevUp (State.unheard_die h d) :)
end Unheard

/-! ### Standing circuits and next-hop tables -/

theorem State.configure_unwired (s : State) (t : TileId) (b : ConfigBody) : (s.configure t b).unwired = s.unwired := rfl

theorem State.writeLinks_unwired (s : State) (us : List Link) (slots : List Nat) (n : Nat) (on : Bool) :
    (s.writeLinks us slots n on).unwired = s.unwired :=
  foldl_keeps (fun a _ => foldl_keeps (fun b _ => b.configure_unwired _ _) slots a) _ s

theorem State.stand_unwired (s : State) (y : Standing) : (s.stand y).unwired = s.unwired := State.writeLinks_unwired ..

theorem State.unstand_unwired (s : State) (f : Standing → Bool) : (s.unstand f).unwired = s.unwired :=
  have h := foldl_keeps (g := State.unwired) (f := fun (a : State) (y : Standing) => a.dropLinks y.uses y.slots) (fun _ _ => rfl)
    (s.standing.filter f) s
  h

theorem State.completeStanding_unwired (s : State) : s.completeStanding.unwired = s.unwired := by
  refine foldl_keeps (fun a x => ?_) _ s
  split
  · rfl
  · split
    · exact a.stand_unwired _
    · rfl

@[simp] theorem State.completeStanding_dies (s : State) : s.completeStanding.dies = s.dies :=
  (congrArg State.dies s.completeStanding_unwired :)
@[simp] theorem State.completeStanding_stacks (s : State) : s.completeStanding.hbmStacks = s.hbmStacks :=
  (congrArg State.hbmStacks s.completeStanding_unwired :)
@[simp] theorem State.completeStanding_cold (s : State) : s.completeStanding.cold = s.cold :=
  (congrArg State.cold s.completeStanding_unwired :)
@[simp] theorem State.completeStanding_mem (s : State) : s.completeStanding.mem = s.mem :=
  (congrArg State.mem s.completeStanding_unwired :)
@[simp] theorem State.completeStanding_keyed (s : State) : s.completeStanding.keyed = s.keyed :=
  (congrArg State.keyed s.completeStanding_unwired :)

theorem State.writeHops_unwired (s : State) (blocks : BitVec 64) : (s.writeHops blocks).unwired = s.unwired := by
  unfold State.writeHops
  rw [foldl_keeps (g := State.unwired)]
  · rfl
  · intro a t
    rw [foldl_keeps (g := State.unwired)]
    intro b i
    dsimp only
    split
    · rfl
    · exact b.configure_unwired _ _

/-! ### Events -/

theorem State.queueEvent_unheard (s : State) (d : DieId) (e : EventRec) : (s.queueEvent d e).unheard = s.unheard := by
  have h : ∀ x : Die, x.unheard = s.dies[d].unheard → (s.modDie d fun _ => x).unheard = s.unheard := by
    intro x hx
    simp only [State.unheard, State.modDie, Vector.map_set, hx]
    congr 1
    ext i hi
    simp only [Vector.getElem_set, Vector.getElem_map]
    split
    · subst_vars; rfl
    · rfl
  refine h _ ?_
  dsimp only
  split <;> rfl

theorem State.packageEvent_unheard (s : State) (d : DieId) (code : BitVec 16) (l : List W) :
    (s.packageEvent d code l).unheard = s.unheard := by
  refine (State.queueEvent_unheard ..).trans (foldl_keeps (fun a p => ?_) _ s)
  split
  · rfl
  · exact foldl_keeps (fun b _ => b.queueEvent_unheard _ _) _ a

theorem State.seqEvent_unheard (s : State) (d : DieId) (q : SeqId) (code : BitVec 16) (l : List W) :
    (s.seqEvent d q code l).unheard = s.unheard := by
  unfold State.seqEvent
  split
  · rfl
  · exact State.queueEvent_unheard ..


end Sys2Proof.Machine
end

section
/-! SUPPORT. Proofs. The package after reset (spec/01 R31), and a drain round that ends (spec/12 R267). -/

namespace Sys2Proof.Machine

/-- The state that each die, each tile and each port has after reset. -/
theorem State.reset_dies (d : DieId) : State.reset.dies[d] = Die.zero := by simp [State.reset]
theorem State.reset_tiles (t : TileId) : State.reset.tiles[t] = Tile.zero := by simp [State.reset]
theorem State.reset_ports (p : Fin 16) : State.reset.ports[p] = PeerPort.zero := by simp [State.reset]

/-- A core runs in COLD and TWILIGHT alone (R283). -/
theorem State.running_of_warm (s : State) (t : TileId) (h : s.cold.state = .warm) : s.running t = false := by
  simp [State.running, h]

/-- Settles O57: each component of the reset state is the constant that the spec asks for. -/
theorem resetState : Obligations.ResetState := by
  unfold Obligations.ResetState
  refine ⟨rfl, fun p => ?_, fun q => ?_, rfl, fun d k => ?_, fun p => ?_, fun t => ⟨State.running_of_warm _ t rfl, ?_⟩⟩
  · simp [State.reset]
  · simp [State.reset]
  · rw [State.reset_dies]; simp [Die.zero, KeySlot.zero]
  · rw [State.reset_ports]; rfl
  · rw [State.reset_tiles]; rfl

/-! ### A drain round that ends -/

/-- A circuit that leaves for package 7 over peer port 0, with a word in its injection queue. -/
def loadedCircuit : Circuit :=
  { handle := 1, seq := 0, src := 0, dst := 0, peer := some (0, true), remote := some 7, lead := 0, path := [], sets := [(0, [1])],
    delay := 0, live := 0, latch := false, ringPane := 0, ringPanes := 1, barrier := none,
    queue := [{ word := 9, entered := 0, done := none }], wire := [], credits := 0, landed := 0, read := 0, waiters := [], entries := 0,
    arrived := 0, incoming := [], failed := false, closing := false, lastLeft := 0, closeAt := 0, closeReply := none }

/-- A package that drains package 7, in round 3, while the circuit still holds a word. -/
def drainingLast : State :=
  { State.reset with circuits := [loadedCircuit], domain := { State.reset.domain with drains := [(7, 3)] } }

/-- The end of round 3 discards the word that is queued (R267), so that the circuits are not what they were. -/
theorem drainRoundEnd_discards : ∃ u, exec (.drainRoundEnd 7) drainingLast = .next u ∧
    u.circuits = [{ loadedCircuit with queue := [] }] := ⟨_, rfl, rfl⟩

/-- Refutes O52: DRAIN_ROUND_END after round 3 discards what is queued for circuits through the package (R267), so the clause
`u.circuits = s.circuits` of `PackagesDrained` fails where such a circuit holds a word. -/
theorem not_slotDomainEvents : ¬ Obligations.SlotDomainEvents := by
  unfold Obligations.SlotDomainEvents
  rintro ⟨_, _, _, _, _, _, hdrained, _⟩
  obtain ⟨_, _, _, _, _, hround⟩ := hdrained drainingLast 7
  obtain ⟨u, hu, _, _, _, hcircuits, _⟩ := (hround 3 (by decide)).2 rfl
  obtain ⟨v, hv, hqueue⟩ := drainRoundEnd_discards
  obtain rfl : u = v := by simpa [hu] using hv
  rw [hcircuits] at hqueue
  exact absurd hqueue (by decide)


end Sys2Proof.Machine
end

section
/-! SUPPORT. Proofs. The cold (spec/13 R279–R285): bands, readings, the state machine, the slot clock and the supply. -/

namespace Sys2Proof.Machine

/-! ### Readings -/

/-- The rate table of R279 as the model and as the statement give it. -/
theorem hbmRate_eq_rateOf : ∀ b : Fin 5, hbmRate b = Claims.rateOf b := by decide

/-- The number of limits that a band's test counts is the band of the statement, rising and falling. -/
theorem limitsBelow_eq_risingBand (x : Nat) : (bandLimits.filter fun l => decide (l < x)).length = Claims.risingBand x := by
  unfold Claims.risingBand bandLimits
  simp only [List.filter_cons, List.filter_nil, decide_eq_true_eq]
  grind

theorem limitsFallenBelow_eq_fallingBand (x : Nat) :
    (bandLimits.filter fun l => decide (l - 30 < x)).length = Claims.fallingBand x := by
  unfold Claims.fallingBand Claims.risingBand bandLimits
  simp only [List.filter_cons, List.filter_nil, decide_eq_true_eq]
  grind

theorem risingBand_lt (x : Nat) : Claims.risingBand x < 5 := by unfold Claims.risingBand; grind

theorem nextBand_val (b : Fin 5) (x : Nat) : (nextBand b x).val =
    if b.val < Claims.risingBand x then Claims.risingBand x
    else if Claims.fallingBand x < b.val then Claims.fallingBand x else b.val := by
  unfold nextBand
  simp only [limitsBelow_eq_risingBand, limitsFallenBelow_eq_fallingBand]
  have h := risingBand_lt x
  have h' := risingBand_lt (x + 30)
  split
  · exact Nat.mod_eq_of_lt h
  · split
    · exact Nat.mod_eq_of_lt h'
    · rfl

theorem bandsMove : Claims.BandsMove := by
  intro b x
  refine ⟨fun h => ?_, fun h h' => ?_, fun h h' => Fin.ext ?_⟩
  · rw [nextBand_val, if_pos h]
  · rw [nextBand_val, if_neg (by omega), if_pos h']
  · rw [nextBand_val, if_neg (by omega), if_neg (by omega)]

/-- A reading of at most 250 K leaves a sensor in band 4 only where it was there. -/
theorem nextBand_eq_four {b : Fin 5} {x : Nat} (hx : x ≤ 2500) (h : nextBand b x = 4) : b = 4 := by
  have hr : Claims.risingBand x ≤ 3 := by unfold Claims.risingBand; grind
  have hv : (nextBand b x).val = 4 := congrArg Fin.val h
  rw [nextBand_val] at hv
  refine Fin.ext ?_
  change b.val = 4
  split at hv
  · omega
  · split at hv <;> omega

theorem stackAt_inj (d : DieId) {i j : Fin 3} : (stackAt d i).val = (stackAt d j).val ↔ i = j := by
  simp only [stackAt]; omega

section Sense
variable (s : State) (d : DieId) (x : Nat) (l : List Nat) (f : Die → Nat → Die) (g : Stack → Nat → Stack)

/-- The stacks after a reading. -/
def State.senseStacks : Vector Stack 12 :=
  (List.finRange 3).foldl (fun (a : Vector Stack 12) i =>
    a.set (stackAt d i) (g a[stackAt d i] (l.getD i.val a[stackAt d i].temp))) s.hbmStacks

theorem State.sense_eq :
    s.sense d x l f g = { s with dies := s.dies.set d (f s.dies[d] x), hbmStacks := s.senseStacks d l g } := rfl

theorem State.senseStacks_at (i : Fin 3) : (s.senseStacks d l g)[stackAt d i] =
    g s.hbmStacks[stackAt d i] (l.getD i.val s.hbmStacks[stackAt d i].temp) := by
  have h3 : List.finRange 3 = [0, 1, 2] := rfl
  simp only [State.senseStacks, h3, List.foldl_cons, List.foldl_nil, Fin.getElem_fin, Vector.getElem_set, stackAt_inj]
  obtain rfl | rfl | rfl : i = 0 ∨ i = 1 ∨ i = 2 := by omega
  all_goals simp only [Fin.reduceEq, if_true, if_false]

theorem State.senseStacks_ne {k : StackId} (h : ∀ i, k ≠ stackAt d i) : (s.senseStacks d l g)[k] = s.hbmStacks[k] := by
  have h3 : List.finRange 3 = [0, 1, 2] := rfl
  have hv : ∀ i, (stackAt d i).val ≠ k.val := fun i e => h i (Fin.ext e.symm)
  simp [State.senseStacks, h3, Vector.getElem_set, hv]

end Sense

theorem readingsTaken : Claims.ReadingsTaken := by
  intro s d x l
  refine ⟨?_, ?_, rfl, rfl, rfl, fun e he => ?_, fun i => ?_⟩
  · simp [State.sense_eq, Die.reads]
  · simp [State.sense_eq, Die.reads]
  · have hv : d.val ≠ e.val := fun h => he (Fin.ext h.symm)
    simp [State.sense_eq, hv]
  · exact (s.senseStacks_at d l Stack.reads i).trans (by simp only [Stack.reads, hbmRate_eq_rateOf])

/-! ### The bands and temperatures of all sensors -/

theorem mem_toList_map {α β : Type} {n : Nat} (v : Vector α n) (f : α → β) (b : β) :
    b ∈ v.toList.map f ↔ ∃ i : Fin n, f v[i] = b := by
  simp only [List.mem_map, Vector.mem_toList_iff, Vector.mem_iff_getElem]
  constructor
  · rintro ⟨a, ⟨i, hi, rfl⟩, rfl⟩; exact ⟨⟨i, hi⟩, rfl⟩
  · rintro ⟨i, rfl⟩; exact ⟨_, ⟨i.val, i.isLt, rfl⟩, rfl⟩

theorem State.mem_bands (s : State) (b : Fin 5) :
    b ∈ s.bands ↔ (∃ d : DieId, s.dies[d].band = b) ∨ ∃ k : StackId, s.hbmStacks[k].band = b := by
  simp only [State.bands, List.mem_append, mem_toList_map]

/-- A reading of at most 250 K everywhere brings no sensor into band 4. -/
theorem State.four_mem_bands_of_sense {s : State} {d : DieId} {x : Nat} {l : List Nat} (hx : x ≤ 2500) (hl : ∀ y ∈ l, y ≤ 2500)
    (h3 : l.length = 3) (h : 4 ∈ (s.sense d x l Die.reads Stack.reads).bands) : 4 ∈ s.bands := by
  rw [State.mem_bands] at h ⊢
  rcases h with ⟨e, he⟩ | ⟨k, hk⟩
  · refine Or.inl ⟨e, ?_⟩
    by_cases hne : e = d
    · subst hne
      simp only [State.sense_eq, Fin.getElem_fin, Vector.getElem_set_self] at he
      exact nextBand_eq_four hx he
    · have hv : d.val ≠ e.val := fun h => hne (Fin.ext h.symm)
      simpa [State.sense_eq, Vector.getElem_set, hv] using he
  · refine Or.inr ⟨k, ?_⟩
    by_cases hc : ∃ i, k = stackAt d i
    · obtain ⟨i, rfl⟩ := hc
      have ht : l.getD i.val s.hbmStacks[stackAt d i].temp ≤ 2500 := by
        rw [List.getD_eq_getElem?_getD, List.getElem?_eq_getElem (by omega), Option.getD_some]
        exact hl _ (List.getElem_mem _)
      rw [State.sense_eq, State.senseStacks_at] at hk
      exact nextBand_eq_four ht hk
    · rw [State.sense_eq, State.senseStacks_ne _ _ _ _ (fun i e => hc ⟨i, e⟩)] at hk
      exact hk

/-! ### The cold state machine -/

/-- In COLD and TWILIGHT a reading is followed by at most three moves of the state machine, and by the slot clock's (R283, R285). -/
theorem State.readSensors_of_cold {s : State} (h : s.cold.state = .cold ∨ s.cold.state = .twilight) (d : DieId) (x : Nat) (l : List Nat) :
    s.readSensors d x l = (s.sense d x l Die.reads Stack.reads).coldMove.coldMove.coldMove.clockMove := by
  unfold State.readSensors
  rcases h with h | h <;> simp only [h]

/-- In WARM and NIGHTFALL too, where no sensor comes into band 4 (R284). -/
theorem State.readSensors_of_warm {s : State} (h : s.cold.state = .warm ∨ s.cold.state = .nightfall) {d : DieId} {x : Nat} {l : List Nat}
    (hf : 4 ∈ (s.sense d x l Die.reads Stack.reads).bands → 4 ∈ s.bands) :
    s.readSensors d x l = (s.sense d x l Die.reads Stack.reads).coldMove.coldMove.coldMove.clockMove := by
  have hfirst : (!s.bands.contains 4 && (s.sense d x l Die.reads Stack.reads).bands.contains 4) = false := by
    by_cases h4 : 4 ∈ s.bands
    · simp [h4]
    · simp [mt hf h4]
  unfold State.readSensors
  rcases h with h | h <;> simp only [h, hfirst, Bool.false_eq_true, if_false]

theorem coldMoves : Claims.ColdMoves := by
  intro s
  have zero_of : (∀ b ∈ s.bands, b = 0) → s.bands.all (· == 0) = true := by
    intro h
    simpa using h
  have not_zero_of : (∃ b ∈ s.bands, b ≠ 0) → s.bands.all (· == 0) = false := by
    intro h
    simpa using h
  have contains_four : 4 ∈ s.bands → s.bands.contains 4 = true := by simp
  refine ⟨fun hs hb => ?_, fun hs hb => ?_, fun hs hb => ?_, fun hs hb => ?_, fun hs ht => ?_, fun hs => ?_⟩ <;> unfold State.coldMove
  · simp only [hs, not_zero_of hb]; rfl
  · simp only [hs, zero_of hb, if_true]
  · simp only [hs, contains_four hb, if_true]; rfl
  · have h4 : s.bands.contains 4 = false := by
      simpa using fun hm => absurd (hb 4 hm) (by decide)
    simp only [hs, h4, zero_of hb, if_true]; rfl
  · have : s.temps.all (fun x => decide (2500 < x)) = true := by simpa using ht
    simp only [hs, this, if_true]
  · rcases hs with hs | hs <;> simp only [hs]

theorem State.coldMove_of_warm {s : State} (h : s.cold.state = .warm ∨ s.cold.state = .nightfall) : s.coldMove = s :=
  (coldMoves s).2.2.2.2.2 h

/-- The slot clock's move keeps the cold state of a package that is in no domain. -/
theorem State.clockMove_state {s : State} (h : s.domain.member = false) : s.clockMove.cold.state = s.cold.state := by
  unfold State.clockMove
  dsimp only
  split
  · simp only [State.leaveDomain, h, Bool.false_eq_true, if_false]
  · rfl

theorem clockFollows : Claims.ClockFollows := by
  intro s h
  have hslow : (s.bands.any fun b => b == 3 || b == 4) = false := by
    simp only [List.any_eq_false, Bool.or_eq_true, beq_iff_eq]
    rintro b hb (rfl | rfl) <;> exact absurd (h _ hb) (by decide)
  unfold State.clockMove
  simp only [hslow, Bool.false_eq_true, if_false]
  cases s.cold.slow <;> rfl

theorem exec_sensorRead_supplied {s : State} (h : s.cold.supply = true) (d : DieId) (x : Nat) (l : List Nat) (r : Nat) :
    exec (.sensorRead d x l r) s = .next (let v := s.readSensors d x l
      if v.cold.state = .nightfall ∧ 50 < r then v.packageEvent 0 0x0009 [1, BitVec.ofNat 64 r] else v) := by
  change execSensorRead d x l r s = _
  simp only [execSensorRead, h, Bool.not_true, Bool.false_eq_true, if_false]

theorem sensorsRead : Claims.SensorsRead := by
  intro s d x l r
  refine ⟨fun hs => ?_, fun hs hc hx hl h3 => ?_, fun hs hc hr => ?_⟩
  · refine ⟨_, if_pos (by rw [hs]; rfl), ?_, ?_, rfl, rfl, rfl⟩ <;> simp [State.sense_eq]
  · have hread : s.readSensors d x l = (s.sense d x l Die.reads Stack.reads).clockMove := by
      have hm : (s.sense d x l Die.reads Stack.reads).coldMove = s.sense d x l Die.reads Stack.reads := State.coldMove_of_warm hc
      rw [State.readSensors_of_warm hc (State.four_mem_bands_of_sense hx hl h3), hm, hm, hm]
    rw [exec_sensorRead_supplied hs, hread]
    refine ⟨fun hr => ?_, fun hn hd hr => ?_⟩
    · dsimp only
      rw [if_neg (by omega)]
    · have hst : (s.sense d x l Die.reads Stack.reads).clockMove.cold.state = .nightfall := 
        (State.clockMove_state (s := s.sense d x l Die.reads Stack.reads) hd).trans hn
      dsimp only
      rw [if_pos ⟨hst, hr⟩]
  · rw [exec_sensorRead_supplied hs, State.readSensors_of_cold hc]
    dsimp only
    rw [if_neg (by omega)]

/-! ### The end of NIGHTFALL -/

/-- A change to COLD sets the state and reports it. -/
theorem State.goCold_cold_unheard (s : State) :
    (s.goCold .cold).unheard = ({ s with cold := { s.cold with state := .cold } } : State).unheard :=
  State.packageEvent_unheard ..

theorem exec_nightfallSettled_cold {s : State} (hs : s.cold.supply = true) (hn : s.cold.state = .nightfall)
    (ht : ∀ x ∈ s.temps, x ≤ 820) :
    exec .nightfallSettled s = .next (s.trainLinks.zeroizeAll.goCold .cold).completeStanding := by
  have hall : (s.cold.supply && s.cold.state == ColdState.nightfall && s.temps.all (· ≤ 820)) = true := by
    simpa [hs, hn] using ht
  exact if_pos hall

/-- A die as the end of NIGHTFALL trains and zeroizes it. -/
theorem State.trained_die (s : State) (d : DieId) : s.trainLinks.zeroizeAll.dies[d] = Die.zeroized { s.dies[d] with
    stkUp := 7, nextUp := s.dies[d].edgeFit, prevUp := (s.dies[(⟨(d.val + 3) % 4, by omega⟩ : Fin 4)]).edgeFit } := by
  simp [State.zeroizeAll, State.trainLinks]

/-- The die before the next one. -/
theorem nextDie_back (d : DieId) : (⟨((nextDie d).val + 3) % 4, by omega⟩ : Fin 4) = d :=
  Fin.ext (by simp only [nextDie]; omega)

theorem nightfallEnds : Claims.NightfallEnds := by
  intro s
  refine ⟨fun hs hn ht => ⟨_, exec_nightfallSettled_cold hs hn ht, ?_⟩, fun hn => if_neg (by simp [hn])⟩
  have hcold := s.trainLinks.zeroizeAll.goCold_cold_unheard
  simp only [State.completeStanding_cold, State.completeStanding_stacks, State.completeStanding_mem, State.completeStanding_keyed,
    State.completeStanding_dies, State.unheard_cold hcold, State.unheard_stacks hcold, State.unheard_mem hcold,
    State.unheard_keyed hcold, State.unheard_nextUp hcold, State.unheard_prevUp hcold, State.unheard_keys hcold, State.trained_die,
    nextDie_back]
  refine ⟨trivial, fun k => ?_, rfl, rfl, fun d => ⟨rfl, rfl, fun k => ?_⟩⟩
  · simp [State.zeroizeAll, State.trainLinks]
  · simp [Die.zeroized]

/-! ### The slot clock -/

/-- The search for a boundary ends at the first count from which the shifted one is a multiple of W. -/
theorem boundaryAfter_spec (w : Nat) (x : Int) : ∀ (n sid k : Nat), k < n → (Int.ofNat (sid + k) + x) % Int.ofNat w = 0 →
    let b := boundaryAfter w x sid n
    sid ≤ b ∧ b ≤ sid + k ∧ (Int.ofNat b + x) % Int.ofNat w = 0 := by
  intro n
  induction n with
  | zero => intro _ _ h; omega
  | succ n ih =>
    intro sid k hk hz
    dsimp only
    unfold boundaryAfter
    split
    next h => exact ⟨Nat.le_refl _, by omega, h⟩
    next h =>
      cases k with
      | zero => exact absurd hz h
      | succ k =>
        have hz' : (Int.ofNat (sid + 1 + k) + x) % Int.ofNat w = 0 := by
          rw [show sid + 1 + k = sid + (k + 1) by omega]; exact hz
        obtain ⟨h1, h2, h3⟩ := ih (sid + 1) k (by omega) hz'
        exact ⟨by omega, by omega, h3⟩

/-- One of W counts in a row is a multiple of W. -/
theorem exists_boundary {w : Nat} (hw : 0 < w) (a : Int) : ∃ k : Nat, k < w ∧ (a + k) % (w : Int) = 0 := by
  have hpos : (0 : Int) < w := by omega
  have hlo := Int.emod_nonneg (-a) (Int.ne_of_gt hpos)
  have hhi := Int.emod_lt_of_pos (-a) hpos
  refine ⟨((-a) % w).toNat, by omega, ?_⟩
  rw [Int.toNat_of_nonneg hlo]
  exact Int.emod_eq_zero_of_dvd ⟨-((-a) / w), by have := Int.emod_add_mul_ediv (-a) w; grind⟩

theorem exec_slotClockChange_joining {s : State} (h : s.cold.changing = none) :
    exec .slotClockChange s = .next (if s.circuits.all fun c => c.wire.isEmpty then s.joinDomain else s) := by
  change execSlotClockChange s = _
  simp only [execSlotClockChange, h]

theorem exec_slotClockChange_changing {s : State} {b : Bool} (h : s.cold.changing = some b) :
    exec .slotClockChange s = if s.circuits.all fun c => c.wire.isEmpty then
      let v := s.until ((s.domain.sid / s.domain.wheel + 1) * s.domain.wheel)
      .next { v with cold := { v.cold with slow := b, changing := none } } else .next s := by
  change execSlotClockChange s = _
  simp only [execSlotClockChange, h]

theorem landed_iff (s : State) : (s.circuits.all fun c => c.wire.isEmpty) = true ↔ ∀ c ∈ s.circuits, c.wire = [] := by
  simp [List.all_eq_true]

theorem not_landed_iff (s : State) : ¬ (s.circuits.all fun c => c.wire.isEmpty) = true ↔ ∃ c ∈ s.circuits, c.wire ≠ [] := by
  simp

/-- The SIDCOUNT of a join: a boundary of the domain's count, within one revolution. -/
theorem State.joinDomain_sid {s : State} {x : Int} (hj : s.domain.joining = some x) (hw : 0 < s.domain.wheel)
    (hx : 0 ≤ Int.ofNat s.domain.sid + x) : s.joinDomain.domain.sid % s.domain.wheel = 0 ∧
      ∃ n, s.domain.sid ≤ n ∧ n < s.domain.sid + s.domain.wheel ∧ Int.ofNat s.joinDomain.domain.sid = Int.ofNat n + x := by
  obtain ⟨k, hk, hz⟩ := exists_boundary hw (Int.ofNat s.domain.sid + x)
  obtain ⟨h1, h2, h3⟩ := boundaryAfter_spec s.domain.wheel x s.domain.wheel s.domain.sid k hk (by
    rw [← hz]; congr 1; simp only [Int.ofNat_eq_natCast]; omega)
  have hsid : s.joinDomain.domain.sid = (Int.ofNat (boundaryAfter s.domain.wheel x s.domain.sid s.domain.wheel) + x).toNat := by
    simp only [State.joinDomain, hj, State.shiftSid, State.until_sid, retime]
    rw [show Nat.max s.domain.sid _ = _ from Nat.max_eq_right h1]
  have hnat : Int.ofNat s.joinDomain.domain.sid = Int.ofNat (boundaryAfter s.domain.wheel x s.domain.sid s.domain.wheel) + x := by
    rw [hsid]; exact Int.toNat_of_nonneg (by simp only [Int.ofNat_eq_natCast] at *; omega)
  refine ⟨?_, _, h1, by omega, hnat⟩
  rw [← hnat] at h3
  exact Int.ofNat.inj h3

theorem clocksChange : Claims.ClocksChange := by
  refine ⟨fun s b hb => ⟨fun hl hw => ?_, fun hl => ?_⟩, fun s x hc hj => ⟨fun hl hw hx => ?_, fun hl => ?_⟩, fun s hc hj => ?_,
    fun s k => rfl⟩
  · have hlater : s.domain.sid < (s.domain.sid / s.domain.wheel + 1) * s.domain.wheel := by
      rw [Nat.mul_comm]; exact Nat.lt_mul_div_succ _ hw
    have hwithin : (s.domain.sid / s.domain.wheel + 1) * s.domain.wheel ≤ s.domain.sid + s.domain.wheel := by
      rw [Nat.add_mul, Nat.one_mul]; exact Nat.add_le_add_right (Nat.div_mul_le_self _ _) _
    have hsid : Nat.max s.domain.sid ((s.domain.sid / s.domain.wheel + 1) * s.domain.wheel) =
        (s.domain.sid / s.domain.wheel + 1) * s.domain.wheel := Nat.max_eq_right (Nat.le_of_lt hlater)
    refine ⟨_, (exec_slotClockChange_changing hb).trans (if_pos ((landed_iff s).2 hl)), rfl, rfl, ?_, ?_, ?_, rfl, rfl, rfl⟩ <;>
      dsimp only [State.until_sid] <;> rw [hsid]
    · exact Nat.mul_mod_left _ _
    · exact hlater
    · exact hwithin
  · exact (exec_slotClockChange_changing hb).trans (if_neg ((not_landed_iff s).2 hl))
  · obtain ⟨hmod, hn⟩ := State.joinDomain_sid hj hw hx
    refine ⟨_, (exec_slotClockChange_joining hc).trans (congrArg _ (if_pos ((landed_iff s).2 hl))), ?_, ?_, hmod, ?_, ?_, hn⟩ <;>
      simp only [State.joinDomain, hj] <;> rfl
  · exact (exec_slotClockChange_joining hc).trans (congrArg _ (if_neg ((not_landed_iff s).2 hl)))
  · rw [exec_slotClockChange_joining hc]
    simp only [State.joinDomain, hj, ite_self]

/-! ### Supply -/

/-- The package at the return of its supply, before its first reading moves the state machine (R284, R431). -/
def State.powered (s : State) : State :=
  { s with
    dies := s.dies.map fun (x : Die) => ({ x.zeroized with band := 4 } : Die).reads x.temp
    hbmStacks := s.hbmStacks.map fun (x : Stack) => { ({ x with band := 4, refresh := 4 } : Stack).reads x.temp with retraining := false }
    circuits := [], standing := []
    cold := { Cold.zero with supply := true, booted := true, measured := Vector.ofFn fun (i : Fin 4) => Config.measurement i.val } }

theorem exec_supplyReturn_dark {s : State} (h : s.cold.supply = false) : exec .supplyReturn s =
    .next (if s.powered.temps.all (· ≤ 2500) then s.powered.goCold .nightfall else s.powered).clockMove :=
  if_neg (by simp [h])

theorem State.temps_powered (s : State) : s.powered.temps = s.temps := by
  simp [State.temps, State.powered, Die.reads, Stack.reads, Die.zeroized, Vector.toList_map, Function.comp_def]

theorem State.keys_powered (s : State) (d : DieId) (k : Fin 512) : s.powered.dies[d].keys[k] = KeySlot.zero := by
  simp [State.powered, Die.reads, Die.zeroized]

/-- Without circuits NIGHTFALL changes the dies, the stacks and the ports, and the state. -/
theorem State.goCold_nightfall_unheard (s : State) (hc : s.circuits = []) (hs : s.standing = []) :
    (s.goCold .nightfall).unheard = ({ s with
      dies := s.dies.map fun (x : Die) => { x with stkUp := 0, prevUp := false, nextUp := false }
      hbmStacks := s.hbmStacks.map fun (x : Stack) => { x with up := false, retraining := false }
      ports := s.ports.map fun (y : PeerPort) => { y with up := false }
      cold := { s.cold with state := .nightfall } } : State).unheard := by
  refine (State.packageEvent_unheard ..).trans ?_
  simp [State.idleLinks, State.cutWhere, State.unstand, hc, hs]

theorem supplyComesAndGoes : Claims.SupplyComesAndGoes := by
  refine ⟨fun s hs => ?_, fun s hs => ?_⟩
  · refine ⟨_, if_neg (by simp [hs]), rfl, rfl, fun q => ?_, fun p => ?_, rfl, rfl, rfl, rfl, fun k => ?_, fun x hx => ?_⟩
    · simp
    · simp
    · simp
    · obtain ⟨y, _, rfl⟩ := List.mem_map.1 hx
      rfl
  · refine ⟨_, exec_supplyReturn_dark hs, ?_⟩
    rw [State.temps_powered]
    by_cases h : ∀ x ∈ s.temps, x ≤ 2500
    · have hu := s.powered.goCold_nightfall_unheard rfl rfl
      rw [if_pos (by simpa using h)]
      rw [State.unheard_cold hu, State.unheard_mem hu, State.unheard_tiles hu]
      refine ⟨rfl, rfl, fun _ => rfl, fun ⟨x, hx, hlt⟩ => ?_, rfl, rfl, fun d k => ?_⟩
      · exact absurd (h x hx) (by omega)
      · rw [State.unheard_keys hu]
        simpa using s.keys_powered d k
    · rw [if_neg (by simpa using h)]
      exact ⟨rfl, rfl, fun h' => absurd h' h, fun _ => rfl, rfl, rfl, s.keys_powered⟩

/-- Settles O50: band by band, reading by reading, and event by event. -/
theorem coldEvents : Obligations.ColdEvents := by
  unfold Obligations.ColdEvents
  exact ⟨bandsMove, readingsTaken, sensorsRead, clockFollows, coldMoves, nightfallEnds, clocksChange, supplyComesAndGoes⟩

end Sys2Proof.Machine
end

section
/-! SUPPORT. What leaves the caches of tiles and the spares of dies as they are: bytes written, works, messages
and circuits (spec/16 R307). -/

namespace Sys2Proof.Machine

/-! ### What tiles hold and dies have spent -/

/-- What a tile holds of lines, translations and instructions: how many lines its bank holds, and the others as they are. -/
def Tile.cached (x : Tile) : Nat × List Nat × List TlbEntry × List ILine := (x.bank.length, x.near, x.tlbLoad, x.core.icache)

/-- What each tile holds so, and the spares that each die has used. -/
def State.holdings (s : State) : Vector (Nat × List Nat × List TlbEntry × List ILine) 1024 × Vector Nat 4 :=
  (s.tiles.map Tile.cached, s.dies.map (·.sparesUsed))

theorem State.cached_of_holdings {s u : State} (h : u.holdings = s.holdings) (t : TileId) : u.tiles[t].cached = s.tiles[t].cached := by
  simpa [State.holdings] using congrArg (fun x => x.1[t]) h

theorem State.sparesUsed_of_holdings {s u : State} (h : u.holdings = s.holdings) (d : DieId) :
    u.dies[d].sparesUsed = s.dies[d].sparesUsed := by
  simpa [State.holdings] using congrArg (fun x => x.2[d]) h

/-- An element replaced by one with the same image leaves the images. -/
theorem map_set_of_eq {α β : Type} {n : Nat} (v : Vector α n) (f : α → β) (i : Fin n) {x : α} (h : f x = f v[i]) :
    (v.set i x).map f = v.map f := by
  ext j hj
  simp only [Vector.getElem_map, Vector.getElem_set]
  split
  · subst_vars; exact h
  · rfl

theorem State.holdings_foldl {α : Type} {f : State → α → State} (h : ∀ a x, (f a x).holdings = a.holdings) (l : List α) (s : State) :
    (l.foldl f s).holdings = s.holdings := foldl_keeps h l s

theorem State.holdings_modTile (s : State) (t : TileId) (f : Tile → Tile) (h : ∀ x, (f x).cached = x.cached) :
    (s.modTile t f).holdings = s.holdings :=
  congrArg (fun v => (v, s.dies.map (·.sparesUsed))) (map_set_of_eq s.tiles Tile.cached t (h _))

theorem State.holdings_modDie (s : State) (d : DieId) (f : Die → Die) (h : ∀ x, (f x).sparesUsed = x.sparesUsed) :
    (s.modDie d f).holdings = s.holdings :=
  congrArg (fun v => (s.tiles.map Tile.cached, v)) (map_set_of_eq s.dies (·.sparesUsed) d (h _))

theorem State.holdings_modCore (s : State) (t : TileId) (f : Core → Core) (h : ∀ c, (f c).icache = c.icache) :
    (s.modCore t f).holdings = s.holdings :=
  s.holdings_modTile t _ fun x => by simp only [Tile.cached, h]

@[simp] theorem State.holdings_modStrandAt (s : State) (t : TileId) (k : StrandId) (f : Strand → Strand) :
    (s.modStrandAt t k f).holdings = s.holdings := s.holdings_modCore t _ fun _ => rfl

@[simp] theorem State.holdings_modThread (s : State) (t : TileId) (i : Fin 32) (f : Thread → Thread) :
    (s.modThread t i f).holdings = s.holdings :=
  s.holdings_modCore t _ fun c => by split <;> rfl

@[simp] theorem State.holdings_modPane (s : State) (t : TileId) (n : Fin 128) (f : Pane → Pane) :
    (s.modPane t n f).holdings = s.holdings := s.holdings_modTile t _ fun _ => rfl

@[simp] theorem State.holdings_modMatrix (s : State) (t : TileId) (f : Matrix → Matrix) :
    (s.modMatrix t f).holdings = s.holdings := s.holdings_modTile t _ fun _ => rfl

@[simp] theorem State.holdings_modCircuit (s : State) (h : BitVec 32) (f : Circuit → Circuit) :
    (s.modCircuit h f).holdings = s.holdings := rfl

@[simp] theorem State.holdings_queueEvent (s : State) (d : DieId) (e : EventRec) : (s.queueEvent d e).holdings = s.holdings :=
  s.holdings_modDie d _ fun x => by dsimp only; split <;> rfl

@[simp] theorem State.holdings_seqEvent (s : State) (d : DieId) (q : SeqId) (code : BitVec 16) (l : List W) :
    (s.seqEvent d q code l).holdings = s.holdings := by
  unfold State.seqEvent
  split
  · rfl
  · exact State.holdings_queueEvent ..

/-! ### Bytes written at a place -/

@[simp] theorem State.holdings_setBytes (key : KeyView) : ∀ (l : List Byte) (s : State) (a : Nat),
    (s.setBytes key a l).holdings = s.holdings
  | [], _, _ => rfl
  | x :: l, s, a => State.holdings_setBytes key l (s.setByte key a x) (a + 1)

@[simp] theorem State.holdings_countError (s : State) (pl : Place) : (s.countError pl).holdings = s.holdings := by
  unfold State.countError
  split
  · exact s.holdings_modTile _ _ fun _ => rfl
  · dsimp only
    split
    · exact s.holdings_modTile _ _ fun _ => rfl
    · rfl

@[simp] theorem State.holdings_overwritten (s : State) (pl : Place) (n : Nat) : (s.overwritten pl n).holdings = s.holdings := by
  unfold State.overwritten State.correct
  rw [State.holdings_foldl fun a _ => a.holdings_countError pl]
  rfl

@[simp] theorem State.holdings_modBankLine (s : State) (pa : Nat) (home : TileId) (f : BankLine → BankLine) :
    (s.modBankLine pa home f).holdings = s.holdings :=
  s.holdings_modTile home _ fun x => by simp only [Tile.cached, List.length_map]

@[simp] theorem State.holdings_markHbm (s : State) (home : TileId) (g : Nat) (bad : Bool) :
    (s.markHbm home g bad).holdings = s.holdings := by
  unfold State.markHbm
  dsimp only
  split
  · exact State.holdings_modBankLine ..
  · rfl

@[simp] theorem State.holdings_markStore (s : State) (t : TileId) (gs : List Nat) (bad : Bool) :
    (s.markStore t gs bad).holdings = s.holdings := s.holdings_modTile t _ fun _ => rfl

@[simp] theorem State.holdings_writePlace (s : State) (p : Party) (pl : Place) (bs : List Byte) :
    (s.writePlace p pl bs).holdings = s.holdings := by
  unfold State.writePlace
  dsimp only
  split
  · rw [State.holdings_foldl fun a g => a.holdings_markHbm _ g false]
    simp only [State.holdings_modBankLine, State.holdings_setBytes, State.holdings_overwritten]
  · simp only [State.holdings_markStore, State.holdings_setBytes, State.holdings_overwritten]

/-! ### Works and messages -/

@[simp] theorem State.holdings_modUnder (s : State) (t : TileId) (k : StrandId) (u : Ctx) (f : Ctx → Ctx) :
    (s.modUnder t k u f).holdings = s.holdings := by
  unfold State.modUnder
  dsimp only
  split
  · split <;> simp only [State.holdings_modStrandAt, State.writeFrame, State.holdings_writePlace]
  all_goals exact State.holdings_modStrandAt ..

@[simp] theorem State.holdings_modSaved (s : State) (t : TileId) (i : Fin 32) (f : Ctx → Ctx) :
    (s.modSaved t i f).holdings = s.holdings := by
  unfold State.modSaved
  split
  · rfl
  · simp only [State.holdings_modThread, State.writeFrame, State.holdings_writePlace]

@[simp] theorem State.holdings_modWork (s : State) (t : TileId) (owner : Nat) (f : Ctx → Ctx) :
    (s.modWork t owner f).holdings = s.holdings := by
  unfold State.modWork
  split
  · split
    · exact State.holdings_modUnder ..
    · exact State.holdings_modStrandAt ..
  · split
    · exact State.holdings_modSaved ..
    · rfl

@[simp] theorem State.holdings_setEvent (s : State) (t : TileId) (owner : Nat) : (s.setEvent t owner).holdings = s.holdings := by
  unfold State.setEvent
  dsimp only
  split <;> simp only [State.holdings_modThread, State.holdings_modWork]

@[simp] theorem State.holdings_memberEnd (s : State) (t : TileId) (owner : Nat) (num : W) (fault : Option (Nat × Cause × W)) :
    (s.memberEnd t owner num fault).holdings = s.holdings := by
  unfold State.memberEnd
  simp only [apply_ite State.holdings, State.holdings_modWork, State.holdings_setEvent, ite_self]

@[simp] theorem State.holdings_launch (s : State) (m : Msg) : (s.launch m).holdings = s.holdings := by
  unfold State.launch
  split <;> rfl

@[simp] theorem State.holdings_pump (s : State) : s.pump.holdings = s.holdings := by
  refine foldl_keeps (fun a m => ?_) _ s
  split
  · rfl
  · split
    · split
      · exact State.holdings_launch ..
      · rfl
    · rfl

@[simp] theorem State.holdings_performed (s : State) (owner uid : Nat) : (s.performed owner uid).holdings = s.holdings :=
  State.holdings_pump _

@[simp] theorem State.holdings_answer (s : State) (t : TileId) (owner uid n : Nat) (bits : V) (flags : BitVec 6)
    (fault : Option (Cause × W)) : (s.answer t owner uid n bits flags fault).holdings = s.holdings := by
  unfold State.answer
  dsimp only
  split
  · split <;> simp only [State.holdings_performed, State.holdings_modWork]
  · simp only [State.holdings_performed, State.holdings_modWork]

/-! ### Circuits -/

theorem State.holdings_of_unwired {s u : State} (h : u.unwired = s.unwired) : u.holdings = s.holdings :=
  (congrArg State.holdings h :)

@[simp] theorem State.holdings_configure (s : State) (t : TileId) (b : ConfigBody) : (s.configure t b).holdings = s.holdings := rfl

@[simp] theorem State.holdings_writeLinks (s : State) (us : List Link) (slots : List Nat) (n : Nat) (on : Bool) :
    (s.writeLinks us slots n on).holdings = s.holdings :=
  State.holdings_of_unwired (s.writeLinks_unwired us slots n on)

@[simp] theorem State.holdings_writeTables (s : State) (c : Circuit) (slots : List Nat) (n : Nat) (on : Bool) :
    (s.writeTables c slots n on).holdings = s.holdings := by
  unfold State.writeTables State.writeKeys
  split
  · rw [State.holdings_foldl fun a _ => a.holdings_configure ..]
    exact State.holdings_writeLinks ..
  all_goals exact State.holdings_writeLinks ..

@[simp] theorem State.holdings_clearTables (s : State) (c : Circuit) : (s.clearTables c).holdings = s.holdings := by
  unfold State.clearTables State.dropKeys
  split <;> rfl

@[simp] theorem State.holdings_releaseLanding (s : State) (c : Circuit) : (s.releaseLanding c).holdings = s.holdings := by
  unfold State.releaseLanding
  split
  · exact State.holdings_modMatrix ..
  · split
    · rfl
    · exact State.holdings_foldl (fun a p => a.holdings_modPane _ p _) _ s

@[simp] theorem State.holdings_dropWaiters (s : State) (c : Circuit) : (s.dropWaiters c).holdings = s.holdings :=
  State.holdings_foldl (fun a _ => a.holdings_answer ..) _ s

@[simp] theorem State.holdings_dropSends (s : State) (c : Circuit) : (s.dropSends c).holdings = s.holdings :=
  State.holdings_foldl (fun a _ => a.holdings_answer ..) _ s

@[simp] theorem State.holdings_removeCircuit (s : State) (c : Circuit) : (s.removeCircuit c).holdings = s.holdings := by
  unfold State.removeCircuit
  dsimp only
  rw [State.holdings_dropSends, State.holdings_dropWaiters]
  exact (State.holdings_releaseLanding ..).trans (State.holdings_clearTables ..)

@[simp] theorem State.holdings_closeAnswer (s : State) (c : Circuit) (n : Nat) : (s.closeAnswer c n).holdings = s.holdings := by
  unfold State.closeAnswer
  split
  · rfl
  · dsimp only
    rw [State.holdings_memberEnd]
    split
    · exact State.holdings_writePlace ..
    · rfl

@[simp] theorem State.holdings_cutCircuit (s : State) (c : Circuit) (cause : Nat) : (s.cutCircuit c cause).holdings = s.holdings := by
  simp only [State.cutCircuit, State.closeNow, State.holdings_closeAnswer, State.holdings_removeCircuit, State.holdings_seqEvent]

@[simp] theorem State.holdings_rebuild (s : State) (c : Circuit) (past : Nat) (path : List Step) (slots : List Nat) :
    (s.rebuild c past path slots).holdings = s.holdings := by
  unfold State.rebuild
  dsimp only
  rw [State.holdings_writeTables, State.holdings_modCircuit, State.holdings_foldl fun a _ => a.holdings_answer ..]
  exact State.holdings_clearTables ..

@[simp] theorem State.holdings_repath (s : State) (past : Circuit → Nat) (tell : Bool) (h : BitVec 32) :
    (s.repath past tell h).holdings = s.holdings := by
  unfold State.repath
  split
  · rfl
  · split
    · cases tell <;> simp
    all_goals exact State.holdings_cutCircuit ..

@[simp] theorem State.holdings_repathTile (s : State) (t : TileId) : (s.repathTile t).holdings = s.holdings :=
  State.holdings_foldl (fun a h => a.holdings_repath _ _ h) _ s.useFree

@[simp] theorem State.holdings_writeHops (s : State) (blocks : BitVec 64) : (s.writeHops blocks).holdings = s.holdings :=
  State.holdings_of_unwired (s.writeHops_unwired blocks)

end Sys2Proof.Machine
end

section
/-! SUPPORT. Proofs. Patrol scrub, spare pseudo-channels and lanes (spec/13 R282, spec/16 R309, R310). -/

namespace Sys2Proof.Machine

/-! ### Patrol scrub -/

/-- A scrub leaves the walks of its stack, and begins copies only. -/
theorem Stack.scrubbed_scrubAt (x : Stack) (pc : Nat) (first : Bool) (c e : Nat) :
    (x.scrubbed pc first c e).scrubAt = x.scrubAt := by
  unfold Stack.scrubbed Stack.startCopy
  dsimp only
  repeat' split
  all_goals rfl

theorem Stack.scrubDue_scrubbed (x : Stack) (pc : Nat) (first : Bool) (c e n : Nat) :
    (x.scrubbed pc first c e).scrubDue n = x.scrubDue n := by
  simp only [Stack.scrubDue, Stack.scrubbed_scrubAt]

/-- After a line's scrub the walk has come to the next one. -/
theorem Stack.scrubDue_scrubStep (x : Stack) (n : Nat) : (x.scrubStep n).scrubDue n = scrubNext n := by
  simp [Stack.scrubDue, Stack.scrubStep]

/-- An exposed line's pseudo-channel is the same by its number and by its address in a stack. -/
theorem pseudoOf_stack (k : StackId) {n : Nat} (h : n < stackLines) : pseudoOf (k.val * 2 ^ 36 + 64 * n) = scrubChannel n := by
  have hline : stackLine (k.val * 2 ^ 36 + 64 * n) = stackLine (64 * n) := by unfold stackLine; omega
  simp only [scrubChannel, if_pos h, pseudoOf, chanOf, hline]

theorem scrubChannel_lt {n : Nat} (h : n < stackLines) : scrubChannel n < 384 := by
  simp only [scrubChannel, if_pos h, pseudoOf, chanOf]
  omega

theorem scrubFirst_beq {n : Nat} (h : n < stackLines) : (scrubFirst n == n) = decide (n < 384) := by
  simp only [scrubFirst, if_pos h, Bool.beq_eq_decide_eq, decide_eq_decide]
  omega

theorem scrubNext_eq {n : Nat} (h : n < stackLines) : scrubNext n = if n + 384 < stackLines then n + 384 else n % 384 := by
  simp only [scrubNext, scrubFirst, if_pos h]

/-- The two granules of a line. -/
theorem granules_line {pa : Nat} (h : pa % 64 = 0) : granules pa 64 = [pa / 32, pa / 32 + 1] := by
  have hlen : (pa + 64 - 1) / 32 - pa / 32 + 1 = 2 := by omega
  simp only [granules, hlen]
  rfl

/-- A line that is not the next of its pseudo-channel is not scrubbed. -/
theorem exec_patrolScrub_not_due {s : State} {k : StackId} {n : Nat} (h : s.hbmStacks[k].scrubDue n ≠ n) (i : Fin 3) :
    exec (.patrolScrub k n i) s = .next s := by
  refine if_pos ?_
  rw [bne_iff_ne.2 h, Bool.or_true]

/-- A line in no bank, and with no injected error, that is the next of its pseudo-channel. -/
theorem exec_patrolScrub_due {s : State} {k : StackId} {n pa : Nat} (hpa : pa = k.val * 2 ^ 36 + 64 * n) (hs : s.cold.supply = true)
    (hn : n < stackLines) (hdue : s.hbmStacks[k].scrubDue n = n) (hbank : ∀ t : TileId, s.bankLine pa t = none)
    (hflips : ∀ f ∈ s.flips, f.1 ≠ pa / 32 ∧ f.1 ≠ pa / 32 + 1) (i : Fin 3) :
    exec (.patrolScrub k n i) s =
      let u := s.modStack k fun x => (x.scrubStep n).scrubbed (pseudoOf pa) (decide (n < 384)) (if i = 1 then 1 else 0) (if i = 2 then 1 else 0)
      .next (if i = 2 then (u.markStack pa true).markStack (pa + 32) true else u) := by
  have hgo : (decide (stackLines + 16 * spareLines ≤ n) || !s.cold.supply || s.hbmStacks[k].scrubDue n != n) = false := by
    have hlast : ¬ stackLines + 16 * spareLines ≤ n := by omega
    rw [hdue, hs]
    simp [hlast]
  have hexposed : ¬ stackLines ≤ n := by omega
  have hin : ((List.finRange 1024).any fun t => (s.bankLine pa t).isSome) = false :=
    List.any_eq_false.2 fun t _ => by rw [hbank t]; simp
  have hkept : s.flips.filter (fun f => !(granules pa 64).contains f.1) = s.flips := by
    rw [granules_line (by omega), List.filter_eq_self]
    intro f hf
    simpa using hflips f hf
  have hfound : s.flips.filter (fun f => (granules pa 64).contains f.1) = [] := by
    rw [granules_line (by omega), List.filter_eq_nil_iff]
    intro f hf
    simpa using hflips f hf
  have hpc : pseudoOf pa = scrubChannel n := by rw [hpa, pseudoOf_stack k hn]
  change execPatrolScrub k n i s = _
  simp only [execPatrolScrub, ← hpa, hgo, hin, hkept, hfound, hexposed, hpc, Bool.false_eq_true, if_false, List.length_nil, Nat.zero_add,
    scrubFirst_beq hn]

theorem linesScrubbed : Claims.LinesScrubbed := by
  intro s k n hs hn
  refine ⟨fun i h => exec_patrolScrub_not_due h i, fun hdue hbank hflips => ⟨?_, ?_, ?_⟩, fun x c e => ?_, fun x c e hx => ?_⟩
  · exact exec_patrolScrub_due rfl hs hn hdue hbank hflips 0
  · exact exec_patrolScrub_due rfl hs hn hdue hbank hflips 1
  · exact exec_patrolScrub_due rfl hs hn hdue hbank hflips 2
  · rw [Stack.scrubDue_scrubbed, Stack.scrubDue_scrubStep]
    exact scrubNext_eq hn
  · have hpc : pseudoOf (k.val * 2 ^ 36 + 64 * n) < 384 := by rw [pseudoOf_stack k hn]; exact scrubChannel_lt hn
    unfold Stack.scrubbed
    simp only [hx, Option.map_some, Option.getD_some, Bool.false_eq_true, if_false, hpc]
    refine ⟨fun hc => ⟨_, if_pos (by simp [hc])⟩, fun hc => ?_⟩
    rw [if_neg (by simp; omega)]

/-! ### Spare pseudo-channels and lanes -/

theorem copiesEnd : Claims.CopiesEnd := by
  intro s k c hc
  refine ⟨_, if_pos (by simpa using hc), ?_, ?_, fun j hj => ?_, rfl⟩
  · simp
  · simp
  · have hv : k.val ≠ j.val := fun e => hj (Fin.ext e.symm)
    simp [hv]

/-- At a revolution boundary a repair waits for nothing. -/
theorem State.until_boundary {s : State} (hw : 0 < s.domain.wheel) (h0 : s.domain.sid % s.domain.wheel = 0) :
    s.until ((s.domain.sid + s.domain.wheel - 1) / s.domain.wheel * s.domain.wheel) = s := by
  have hle : (s.domain.sid + s.domain.wheel - 1) / s.domain.wheel * s.domain.wheel ≤ s.domain.sid := by
    refine Nat.le_of_eq ?_
    obtain ⟨m, hm⟩ := Nat.dvd_of_mod_eq_zero h0
    rw [hm, Nat.add_sub_assoc hw, Nat.mul_add_div hw, Nat.div_eq_of_lt (by omega), Nat.add_zero, Nat.mul_comm]
  simp only [State.until, show Nat.max _ _ = _ from Nat.max_eq_left hle]

theorem exec_laneRepair_edge {s : State} (hw : 0 < s.domain.wheel) (h0 : s.domain.sid % s.domain.wheel = 0) (d : DieId) (n : Fin 48) :
    exec (.laneRepair d false n) s = .next (s.repairModule (edgeModule d n).1 (edgeModule d n).2) := by
  change execLaneRepair d false n s = _
  simp only [execLaneRepair, State.until_boundary hw h0, Bool.false_eq_true, if_false]

theorem exec_laneRepair_peer {s : State} (hw : 0 < s.domain.wheel) (h0 : s.domain.sid % s.domain.wheel = 0) (d : DieId) (n : Fin 48) :
    exec (.laneRepair d true n) s = if h : n.val < 4 then
        .next ((s.modDie d fun x => { x with peerSpare := x.peerSpare &&& ~~~(BitVec.ofNat 4 (2 ^ n.val)) }).dropLink
          (peerPort d ⟨n.val, h⟩))
      else .next s := by
  change execLaneRepair d true n s = _
  simp only [execLaneRepair, State.until_boundary hw h0, if_true]

section Module
variable {s : State} {d : DieId} {m : Fin 24}

theorem State.repairModule_out (h : m ∈ s.dies[d].modulesOut) : s.repairModule d m = s :=
  if_pos (by simpa using h)

theorem State.repairModule_spare (h : m ∉ s.dies[d].modulesOut) (hm : s.dies[d].moduleSpares[m] ≠ 0) :
    s.repairModule d m = s.modDie d fun y => { y with
      moduleSpares := y.moduleSpares.set m ⟨s.dies[d].moduleSpares[m].val - 1, by omega⟩ } :=
  (if_neg (by simpa using h)).trans (if_neg hm)

theorem State.repairModule_none (h : m ∉ s.dies[d].modulesOut) (hm : s.dies[d].moduleSpares[m] = 0) :
    s.repairModule d m = let u := s.modDie d fun y => { y with modulesOut := y.modulesOut ++ [m] }
      if s.dies[d].modulesOut.length < 4 then u else u.edgeDown d := by
  refine ((if_neg (by simpa using h)).trans (if_pos hm)).trans ?_
  simp only [Die.edgeFit, State.modDie_dies, Fin.getElem_fin, Vector.getElem_set_self, List.length_append, List.length_singleton,
    decide_eq_true_eq, Nat.succ_le_iff]

end Module

theorem edgeModule_place (d : DieId) (n : Fin 48) :
    (n.val < 24 → (edgeModule d n).1 = d ∧ (edgeModule d n).2.val = n.val) ∧
    (24 ≤ n.val → nextDie (edgeModule d n).1 = d ∧ (edgeModule d n).2.val + (n.val - 24) = 23) := by
  unfold edgeModule
  refine ⟨fun h => ?_, fun h => ?_⟩
  · rw [dif_pos h]; exact ⟨rfl, rfl⟩
  · rw [dif_neg (by omega)]
    exact ⟨Fin.ext (by simp only [nextDie]; omega), by simp only [facingModule]; omega⟩

theorem lanesRepaired : Claims.LanesRepaired := by
  intro s d n hw h0
  have hexec := exec_laneRepair_edge hw h0 d n
  refine ⟨(edgeModule_place d n).1, (edgeModule_place d n).2, fun hout => ?_, fun hin => ⟨fun hspare => ?_,
    fun hnone hlen => ?_, fun hnone hlen => ?_⟩, fun h => ?_, fun h => ?_⟩
  · rw [hexec, State.repairModule_out hout]
  · refine ⟨_, hexec.trans (congrArg _ (State.repairModule_spare hin hspare)), ?_, ?_, rfl, rfl⟩
    · have hpos : s.dies[(edgeModule d n).1].moduleSpares[(edgeModule d n).2].val ≠ 0 := fun h => hspare (Fin.ext h)
      simp only [State.modDie_dies, Fin.getElem_fin, Vector.getElem_set_self] at hpos ⊢
      omega
    · simp
  · refine ⟨_, hexec.trans (congrArg _ ((State.repairModule_none hin hnone).trans (if_pos hlen))), ?_, ?_, rfl, rfl⟩ <;> simp
  · exact hexec.trans (congrArg _ ((State.repairModule_none hin hnone).trans (if_neg (by omega))))
  · exact (exec_laneRepair_peer hw h0 d n).trans (dif_pos h)
  · exact (exec_laneRepair_peer hw h0 d n).trans (dif_neg (by omega))

end Sys2Proof.Machine
end

section
/-! SUPPORT. Proofs. Transplants and die-edge links (spec/16 R306–R308, R311, R312). -/

namespace Sys2Proof.Machine

/-! ### Transplants -/

/-- A running tile with an uncorrectable error in a strand's memory fences itself (R306). -/
theorem State.coreMove_lost {s : State} {t : TileId} (ex : Instr → State → Out) (hr : s.running t = true)
    (hl : s.tiles[t].core.lost ≠ []) : s.coreMove ex t = ({ s with cur := t } : State).fenceTile t := by
  have hrun : (!({ s with cur := t } : State).running t) = false := by rw [Bool.not_eq_false']; exact hr
  have hlost : (!({ s with cur := t } : State).tiles[t].core.lost.isEmpty) = true := by simpa using hl
  unfold State.coreMove
  simp only [hrun, hlost, Bool.false_eq_true, if_false, if_true]

theorem State.liftStrand_thread {s : State} {t : TileId} {k : StrandId} {i : Fin 32} {th : Thread}
    (hw : (s.strandAt t k).work = .thread i) (hth : s.tiles[t].core.threads[i] = some th) :
    s.liftStrand t k = if s.tiles[t].core.lost.contains k
      then (s.seqEvent (dieOf t) (s.strandAt t k).seq 0x000A [BitVec.ofNat 64 i.val]).endWork t k
      else s.writeFrame t th (s.strandAt t k).ctx := by
  simp only [State.liftStrand, hw, hth]

theorem State.liftStrand_free {s : State} {t : TileId} {k : StrandId} (h : (s.strandAt t k).work = .free) : s.liftStrand t k = s := by
  simp only [State.liftStrand, h]

/-- With every strand free there is nothing to save. -/
theorem State.liftStrands_free {s : State} {t : TileId} (h : ∀ k : StrandId, (s.strandAt t k).work = .free) (l : List StrandId) :
    l.foldl (fun a k => a.liftStrand t k) s = s := by
  induction l with
  | nil => rfl
  | cons k l ih => rw [List.foldl_cons, State.liftStrand_free (h k), ih]

theorem State.foldl_modTile_dies (f : Tile → Tile) (l : List TileId) (s : State) :
    (l.foldl (fun a t => a.modTile t f) s).dies = s.dies :=
  foldl_keeps (g := State.dies) (fun a t => a.modTile_dies t f) l s

theorem State.putBack_dies (s : State) (x : BankLine) : (s.putBack x).dies = s.dies := by
  unfold State.putBack State.modCounts State.modSeq
  repeat' split
  all_goals rfl

theorem State.drainBanks_dies (s : State) (l : List TileId) : (s.drainBanks l).dies = s.dies :=
  (State.foldl_modTile_dies ..).trans (foldl_keeps State.putBack_dies _ s)

theorem State.drainBanks_bank (s : State) (t : TileId) : (s.drainBanks [t]).tiles[t].bank = [] := by
  unfold State.drainBanks
  simp

/-- A tile's store copied to a spare: what the spare holds of lines, translations and instructions is nothing. -/
def State.movedToSpare (s : State) (t : TileId) : State := ((s.drainBanks [t]).copyStore t).modTile t Tile.spare

theorem State.movedToSpare_cached (s : State) (t : TileId) : (s.movedToSpare t).tiles[t].cached = (0, [], [], []) := by
  have h := s.drainBanks_bank t
  simp only [Fin.getElem_fin] at h
  simp [State.movedToSpare, State.copyStore, Tile.cached, Tile.spare, h]

theorem State.movedToSpare_dies (s : State) (t : TileId) : (s.movedToSpare t).dies = s.dies := State.drainBanks_dies s [t]

/-- The circuits and the next-hop tables as a tile's move leaves them. -/
def State.rewiredTile (s : State) (t : TileId) (blocks : Option (BitVec 64)) : State :=
  let u := (s.dropBuffered t).repathTile t
  blocks.elim u u.writeHops

theorem State.dropBuffered_holdings (s : State) (t : TileId) : (s.dropBuffered t).holdings = s.holdings := rfl

theorem State.rewiredTile_holdings (s : State) (t : TileId) (blocks : Option (BitVec 64)) :
    (s.rewiredTile t blocks).holdings = s.holdings := by
  have h : ((s.dropBuffered t).repathTile t).holdings = s.holdings :=
    (State.holdings_repathTile ..).trans (s.dropBuffered_holdings t)
  unfold State.rewiredTile
  cases blocks <;> simp only [Option.elim_none, Option.elim_some, State.holdings_writeHops, h]

/-- A tile's transplant while its die has a spare (R307): its strands saved, its store copied, its circuits and tables moved, and the
spare entered at the die. -/
theorem exec_tileTransplant_spare {s : State} {t : TileId} (hf : s.tiles[t].core.fenced = true) (hd : s.dies[dieOf t].fenced = false)
    (hr : s.dies[dieOf t].inReset = false) (ht : s.dies[dieOf t].transplant = none) (hs : s.cold.supply = true)
    (hn : s.dies[dieOf t].sparesUsed < 16) : ∃ blocks, exec (.tileTransplant t) s = .next
      (((((List.finRange 8).foldl (fun a k => a.liftStrand t k) s).movedToSpare t).rewiredTile t blocks).modDie (dieOf t) fun y =>
        { y with transplant := some t, quieted := (List.finRange 256).filter s.tiles[t].worksFor, sparesUsed := y.sparesUsed + 1,
                 moved := (y.moved.filter fun m => m.1 != t) ++ [(t, y.sparesUsed)] }) := by
  have hgo : (!s.tiles[t].core.fenced || s.dies[dieOf t].fenced || s.dies[dieOf t].inReset || s.dies[dieOf t].transplant.isSome ||
      !s.cold.supply) = false := by simp only [hf, hd, hr, ht, hs]; rfl
  refine ⟨s.tiles[t].part.bind fun p => s.parts[p].map (·.blocks), ?_⟩
  change execTileTransplant t s = _
  simp only [execTileTransplant, hgo, Bool.false_eq_true, if_false, if_neg (Nat.not_le.2 hn), State.movedToSpare, State.rewiredTile]
  cases hp : s.tiles[t].part with
  | none => simp only [Option.bind_none, Option.elim_none]
  | some p =>
    cases hb : s.parts[p] <;>
      simp only [Option.bind_some, hb, Option.map_none, Option.map_some, Option.elim_none, Option.elim_some]

theorem exec_tileTransplant_none {s : State} {t : TileId} {p : PartId} (hf : s.tiles[t].core.fenced = true)
    (hd : s.dies[dieOf t].fenced = false) (hr : s.dies[dieOf t].inReset = false) (ht : s.dies[dieOf t].transplant = none)
    (hs : s.cold.supply = true) (hn : 16 ≤ s.dies[dieOf t].sparesUsed) (hp : s.tiles[t].part = some p) :
    exec (.tileTransplant t) s = .next (s.resetPart p 1) := by
  have hgo : (!s.tiles[t].core.fenced || s.dies[dieOf t].fenced || s.dies[dieOf t].inReset || s.dies[dieOf t].transplant.isSome ||
      !s.cold.supply) = false := by simp only [hf, hd, hr, ht, hs]; rfl
  change execTileTransplant t s = _
  simp only [execTileTransplant, hgo, Bool.false_eq_true, if_false, if_pos hn, hp]

theorem exec_tileTransplantEnd_some {s : State} {d : DieId} {t : TileId} (h : s.dies[d].transplant = some t) :
    exec (.tileTransplantEnd d) s =
      .next ((s.modCore t Core.resumed).modDie d fun x => { x with transplant := none, quieted := [] }) := by
  change execTileTransplantEnd d s = _
  simp only [execTileTransplantEnd, h]

theorem tilesMove : Claims.TilesMove := by
  intro s t
  refine ⟨fun hr hl => State.coreMove_lost exec hr hl, fun k i th hw hth => State.liftStrand_thread hw hth,
    fun hf hd hr ht hs => ⟨fun hn => ?_, fun p hn hp => exec_tileTransplant_none hf hd hr ht hs hn hp⟩, fun ht => ?_⟩
  · obtain ⟨blocks, hexec⟩ := exec_tileTransplant_spare hf hd hr ht hs hn
    let lifted := (List.finRange 8).foldl (fun a k => a.liftStrand t k) s
    have hheld := (lifted.movedToSpare t).rewiredTile_holdings t blocks
    have hcached := (State.cached_of_holdings hheld t).trans (lifted.movedToSpare_cached t)
    have hspares := State.sparesUsed_of_holdings hheld (dieOf t)
    rw [State.movedToSpare_dies] at hspares
    obtain ⟨hbank, hnear, hload, hfetch⟩ : _ ∧ _ ∧ _ ∧ _ := by simpa only [Tile.cached, Prod.mk.injEq] using hcached
    refine ⟨_, ((lifted.movedToSpare t).rewiredTile t blocks).dies[dieOf t].sparesUsed, hexec, ?_, ?_, ?_, fun hfree => ?_,
      List.length_eq_zero_iff.1 hbank, hnear, hload, hfetch⟩
    · simp
    · simp [lifted]
    · simp [lifted]
    · rw [hspares]
      exact congrArg (fun a : State => a.dies[dieOf t].sparesUsed) (State.liftStrands_free hfree _)
  · refine ⟨_, exec_tileTransplantEnd_some ht, ?_, ?_, ?_, ?_, rfl, fun a ha => ?_⟩
    · simp
    · simp
    · simp [Core.resumed]
    · simp [Core.resumed]
    · exact (State.tiles_modTile_ne s (fun x => { x with core := x.core.resumed }) ha :)

/-! ### Die-edge links -/

theorem exec_dieSplit_apart {s : State} {d : DieId} (hz : s.meetsZero d = false) (hf : s.dies[d].fenced = false) :
    ∃ v : State, exec (.dieSplit d) s =
      .next (v.modDie d fun x => { x.zeroized with fenced := true, split := true, meridian := [] }) := by
  refine ⟨_, if_neg ?_⟩
  simp only [hz, hf]
  decide

theorem exec_dieSplit_joined {s : State} {d : DieId} (hz : s.meetsZero d = true) : exec (.dieSplit d) s = .next s := by
  change execDieSplit d s = _
  simp only [execDieSplit, hz, Bool.true_or, if_true]

/-- Memory, and what each die says of its links to the next and the previous one (R15). -/
def State.edges (s : State) : List Host.Cell × Vector (Bool × Bool) 4 := (s.mem, s.dies.map fun x => (x.nextUp, x.prevUp))

theorem State.edges_die {s u : State} (h : u.edges = s.edges) (d : DieId) :
    u.dies[d].nextUp = s.dies[d].nextUp ∧ u.dies[d].prevUp = s.dies[d].prevUp := by
  simpa [State.edges] using congrArg (fun x => x.2[d]) h

theorem State.edges_mem {s u : State} (h : u.edges = s.edges) : u.mem = s.mem := (congrArg Prod.fst h :)

theorem State.edges_modDie (s : State) (d : DieId) (f : Die → Die) (h : ∀ x, (f x).nextUp = x.nextUp ∧ (f x).prevUp = x.prevUp) :
    (s.modDie d f).edges = s.edges :=
  congrArg (Prod.mk s.mem) (map_set_of_eq s.dies (fun x => (x.nextUp, x.prevUp)) d (Prod.ext (h _).1 (h _).2))

theorem State.edges_of_unwired {s u : State} (h : u.unwired = s.unwired) : u.edges = s.edges := (congrArg State.edges h :)

theorem State.rejoin_edges (s : State) (d : DieId) : (s.rejoin d).edges = s.edges := by
  unfold State.rejoin
  dsimp only
  split
  · exact s.useFree.edges_modDie d _ fun x => by split <;> exact ⟨rfl, rfl⟩
  · rfl

theorem State.rewriteHops_unwired (s : State) : s.rewriteHops.unwired = s.unwired := by
  refine foldl_keeps (fun a p => ?_) _ s
  split
  · exact State.writeHops_unwired ..
  · rfl

/-- The link of a die's next edge as it is brought back into service (R312). -/
def State.healedEdge (s : State) (d : DieId) : State :=
  (s.setEdge d true).modDie d fun x => if x.edgeFit then x else { x with modulesOut := [] }

theorem exec_dieLinkHeal (s : State) (d : DieId) : exec (.dieLinkHeal d) s =
    .next (((List.finRange 4).foldl (fun a e => a.rejoin e) (s.healedEdge d)).completeStanding).rewriteHops := rfl

theorem State.healed_edges (s : State) (d : DieId) :
    ((((List.finRange 4).foldl (fun a e => a.rejoin e) (s.healedEdge d)).completeStanding).rewriteHops).edges = (s.setEdge d true).edges :=
  (State.edges_of_unwired (State.rewriteHops_unwired _)).trans <|
    (State.edges_of_unwired (State.completeStanding_unwired _)).trans <|
      (foldl_keeps (fun a e => a.rejoin_edges e) _ _).trans <|
        State.edges_modDie _ d _ fun x => by split <;> exact ⟨rfl, rfl⟩

theorem exec_dieLinkDown (s : State) (d : DieId) : exec (.dieLinkDown d) s = .next (s.edgeDown d) := rfl

theorem edgesFailAndHeal : Claims.EdgesFailAndHeal := by
  intro s d
  refine ⟨fun h => ?_, fun hn hp => ?_, fun hz hf => ?_, fun hz => ?_, _, exec_dieLinkHeal s d, ?_, ?_, ?_⟩
  · rw [exec_dieLinkDown, State.edgeDown, if_pos (by rw [Bool.or_eq_true]; exact h)]
  · rw [exec_dieLinkDown, State.edgeDown, if_neg (by rw [hn, hp]; decide)]
  · obtain ⟨v, hv⟩ := exec_dieSplit_apart hz hf
    refine ⟨_, hv, ?_, fun k => ?_⟩ <;> simp [Die.zeroized]
  · exact exec_dieSplit_joined hz
  · rw [(State.edges_die (s.healed_edges d) d).1]
    have hne : (nextDie d).val ≠ d.val := by simp only [nextDie]; omega
    simp [State.setEdge, hne]
  · rw [(State.edges_die (s.healed_edges d) (nextDie d)).2]
    simp [State.setEdge]
  · rw [State.edges_mem (s.healed_edges d)]
    rfl

/-- Settles O51: line by line, lane by lane, tile by tile and edge by edge. -/
theorem sparingEvents : Obligations.SparingEvents := by
  unfold Obligations.SparingEvents
  exact ⟨linesScrubbed, copiesEnd, lanesRepaired, tilesMove, edgesFailAndHeal⟩

end Sys2Proof.Machine
end

section
/-! SUPPORT. Proofs. What a word of a bundle does with its verdict (spec/03 R54), the results that scalar words put in flight
(R57, R65), and words of 64 bits as numbers. -/

namespace Sys2Proof.Machine
open Sys2Proof.Claims

/-! ### A word and its verdict -/

section Word
variable {s : State} {v : Verdict} (f : State → State)

theorem State.word_of_passes (h : Passes s v) : s.word v f = .next (f s) := by
  obtain ⟨hp, hc⟩ := h
  unfold State.word
  rw [hp, if_neg Bool.false_ne_true]
  rcases hc with hc | rfl
  · rw [if_pos hc]
  · split <;> rfl

theorem State.word_of_refused (h : Unchecked s) (c : Cause) (x : W) : s.word (.trap c x) f = .next (refusedBy s c x) := by
  obtain ⟨hp, hc⟩ := h
  simp only [State.word, hp, hc, Bool.false_eq_true, if_false]
  rfl

theorem State.word_of_asked (h : s.issue.probe = true) :
    s.word v f = .next { s with issue := { s.issue with verdict := v } } := if_pos h

end Word

section Performed
variable {s t : State} {d : GReg} {x : W} {lat : Nat} {e : State → State} {f : State → W}

/-- A word whose checks refuse nothing is its effect. -/
theorem State.word_of_performed (h : Performed s) (he : e s = t) : s.word .pass e = .next t := by
  rw [State.word_of_passes e ⟨h, .inr rfl⟩, he]

theorem State.scalar_eq_gives (s : State) (d : GReg) (x : W) (lat : Nat) : s.scalar d x lat = gives s d x lat := rfl

/-- A word with a scalar result gives that result alone (R65). -/
theorem State.word_scalar (h : Performed s) (hx : f s = x) :
    s.word .pass (fun s => s.scalar d (f s) lat) = .next (gives s d x lat) :=
  State.word_of_performed h (by rw [hx, State.scalar_eq_gives])

end Performed

/-! ### Words of 64 bits as numbers -/

section Words
variable (x y : W)

theorem ofInt_sx : BitVec.ofInt 64 (sx x) = x := BitVec.ofInt_toInt
theorem ofNat_ux : BitVec.ofNat 64 (ux x) = x := by simp [ux]

theorem slt_iff_sx : x.slt y = true ↔ sx x < sx y := BitVec.slt_iff_toInt_lt
theorem ult_iff_ux : x.ult y = true ↔ ux x < ux y := BitVec.ult_iff_lt

theorem add_eq_ofNat : x + y = BitVec.ofNat 64 (ux x + ux y) := by simp [ux, BitVec.ofNat_add]

theorem sub_eq_ofInt : x - y = BitVec.ofInt 64 (ux x - ux y) := by
  rw [Int.sub_eq_add_neg, BitVec.ofInt_add, BitVec.ofInt_neg, BitVec.sub_eq_add_neg]
  simp [ux]

theorem and_eq_ofNat : x &&& y = BitVec.ofNat 64 (ux x &&& ux y) := by
  rw [ux, ux, ← BitVec.toNat_and, BitVec.ofNat_toNat, BitVec.setWidth_eq]

theorem or_eq_ofNat : x ||| y = BitVec.ofNat 64 (ux x ||| ux y) := by
  rw [ux, ux, ← BitVec.toNat_or, BitVec.ofNat_toNat, BitVec.setWidth_eq]

theorem xor_eq_ofNat : x ^^^ y = BitVec.ofNat 64 (ux x ^^^ ux y) := by
  rw [ux, ux, ← BitVec.toNat_xor, BitVec.ofNat_toNat, BitVec.setWidth_eq]

theorem ux_not : ux (~~~y) = 2 ^ 64 - 1 - ux y := BitVec.toNat_not

theorem shiftLeft_eq_ofNat (n : Nat) : x <<< n = BitVec.ofNat 64 (ux x * 2 ^ n) := by
  apply BitVec.eq_of_toNat_eq
  simp [ux, Nat.shiftLeft_eq]

theorem shiftRight_eq_ofNat (n : Nat) : x >>> n = BitVec.ofNat 64 (ux x / 2 ^ n) := by
  rw [ux, ← Nat.shiftRight_eq_div_pow, ← BitVec.toNat_ushiftRight, BitVec.ofNat_toNat, BitVec.setWidth_eq]

theorem sshiftRight_eq_ofInt (n : Nat) : x.sshiftRight n = BitVec.ofInt 64 (sx x / 2 ^ n) := by
  have h := Int.shiftRight_eq_div_pow x.toInt n
  rw [← BitVec.toInt_sshiftRight] at h
  rw [sx, ← BitVec.ofInt_toInt (x := x.sshiftRight n), h]
  norm_cast

theorem rotateLeft_eq_ofNat {n : Nat} (h : n < 64) :
    x.rotateLeft n = BitVec.ofNat 64 (ux x * 2 ^ n + ux x / 2 ^ (64 - n)) := by
  rw [BitVec.ofNat_add, ← shiftLeft_eq_ofNat, ← shiftRight_eq_ofNat, BitVec.rotateLeft_def, Nat.mod_eq_of_lt h,
    BitVec.add_eq_or_of_and_eq_zero]
  ext i hi
  have hout : ¬ i < n → x.getLsbD (64 - n + i) = false := fun hn => BitVec.getLsbD_of_ge _ _ (by omega)
  simpa using fun hn _ => hout (by omega)

theorem andn_eq_ofNat : x &&& ~~~y = BitVec.ofNat 64 (ux x &&& (2 ^ 64 - 1 - ux y)) := by rw [← ux_not, and_eq_ofNat]

theorem orn_eq_ofNat : x ||| ~~~y = BitVec.ofNat 64 (ux x ||| (2 ^ 64 - 1 - ux y)) := by rw [← ux_not, or_eq_ofNat]

theorem lea_eq_ofNat : x + y <<< 6 = BitVec.ofNat 64 (ux x + 64 * ux y) := by
  rw [BitVec.ofNat_add, ofNat_ux, Nat.mul_comm]
  exact congrArg (x + ·) (shiftLeft_eq_ofNat y 6)

theorem min_eq_ofInt : (if y.slt x then y else x) = BitVec.ofInt 64 (Min.min (sx x) (sx y)) := by
  by_cases h : sx y < sx x
  · rw [if_pos ((slt_iff_sx ..).2 h), Int.min_eq_right (Int.le_of_lt h), ofInt_sx]
  · rw [if_neg (mt (slt_iff_sx ..).1 h), Int.min_eq_left (Int.not_lt.1 h), ofInt_sx]

theorem max_eq_ofInt : (if x.slt y then y else x) = BitVec.ofInt 64 (Max.max (sx x) (sx y)) := by
  by_cases h : sx x < sx y
  · rw [if_pos ((slt_iff_sx ..).2 h), Int.max_eq_right (Int.le_of_lt h), ofInt_sx]
  · rw [if_neg (mt (slt_iff_sx ..).1 h), Int.max_eq_left (Int.not_lt.1 h), ofInt_sx]

theorem minn_eq_ofNat : (if y.ult x then y else x) = BitVec.ofNat 64 (Min.min (ux x) (ux y)) := by
  by_cases h : ux y < ux x
  · rw [if_pos ((ult_iff_ux ..).2 h), Nat.min_eq_right (Nat.le_of_lt h), ofNat_ux]
  · rw [if_neg (mt (ult_iff_ux ..).1 h), Nat.min_eq_left (Nat.not_lt.1 h), ofNat_ux]

theorem maxn_eq_ofNat : (if x.ult y then y else x) = BitVec.ofNat 64 (Max.max (ux x) (ux y)) := by
  by_cases h : ux x < ux y
  · rw [if_pos ((ult_iff_ux ..).2 h), Nat.max_eq_right (Nat.le_of_lt h), ofNat_ux]
  · rw [if_neg (mt (ult_iff_ux ..).1 h), Nat.max_eq_left (Nat.not_lt.1 h), ofNat_ux]

/-- A sum with a sign-extended immediate. -/
theorem addSigned_eq_ofInt {n : Nat} (i : BitVec n) : x + i.signExtend 64 = BitVec.ofInt 64 (sx x + i.toInt) := by
  rw [BitVec.ofInt_add, ofInt_sx]
  rfl

/-- A sum with an offset in words. -/
theorem addOffset_eq_ofInt {n : Nat} (i : BitVec n) : x + i.signExtend 64 <<< 2 = BitVec.ofInt 64 (ux x + i.toInt * 4) := by
  rw [BitVec.ofInt_add, BitVec.ofInt_natCast, ofNat_ux, BitVec.ofInt_mul, BitVec.shiftLeft_eq_mul_twoPow]
  rfl

theorem slt_signExtend_iff {n : Nat} (hn : n ≤ 64) (i : BitVec n) : x.slt (i.signExtend 64) = true ↔ sx x < i.toInt := by
  rw [slt_iff_sx, sx, sx, BitVec.toInt_signExtend_of_le hn]

/-- An immediate of 16 bits shifted in from the right. -/
theorem shiftIn_eq_ofNat (i : BitVec 16) : x <<< 16 ||| i.setWidth 64 = BitVec.ofNat 64 (ux x * 2 ^ 16 + i.toNat) := by
  rw [BitVec.ofNat_add, ← shiftLeft_eq_ofNat, BitVec.ofNat_toNat, BitVec.add_eq_or_of_and_eq_zero]
  ext k hk
  have hout : ¬ k < 16 → i.getLsbD k = false := fun hn => BitVec.getLsbD_of_ge _ _ (by omega)
  simpa using fun hn _ => hout (by omega)

theorem bit64_eq_flag {b : Bool} {p : Prop} [Decidable p] (h : b = true ↔ p) : bit64 b = flag p := by
  simp [bit64, flag, h]

theorem mul_eq_ofInt : x * y = BitVec.ofInt 64 (sx x * sx y) := by simp [sx, BitVec.ofInt_mul]

end Words

end Sys2Proof.Machine
end

section
/-! SUPPORT. Proofs. Bits of numbers: fields, leading and trailing zeros, and the ones below a width (spec/05 R101). -/

namespace Sys2Proof.Machine
open Sys2Proof.Claims

/-! ### Fields -/

/-- The position that a control word of EXTR and INSR names, and the length. -/
theorem bitsAt_position (c : W) : bitsAt c.toNat 0 6 = ux c % 64 := by simp [bitsAt, ux]
theorem bitsAt_length (c : W) : bitsAt c.toNat 6 6 = ux c / 64 % 64 := by simp [bitsAt, ux]

theorem testBit_field (x pos len i : Nat) :
    (x / 2 ^ pos % 2 ^ len).testBit i = (decide (i < len) && x.testBit (pos + i)) := by
  rw [Nat.testBit_mod_two_pow, Nat.testBit_div_two_pow, Nat.add_comm]

/-- A field of `len` bits under ones up to bit 63. -/
theorem testBit_ones_above {f len : Nat} (hf : f < 2 ^ len) (hlen : len ≤ 64) {i : Nat} (hi : i < 64) :
    (2 ^ 64 - 2 ^ len + f).testBit i = if i < len then f.testBit i else true := by
  have hsplit : 2 ^ 64 - 2 ^ len = 2 ^ len * (2 ^ (64 - len) - 1) := by
    rw [Nat.mul_sub, ← Nat.pow_add, Nat.add_sub_cancel' hlen, Nat.mul_one]
  rw [hsplit, Nat.testBit_two_pow_mul_add _ hf, Nat.testBit_two_pow_sub_one]
  split
  · rfl
  · exact decide_eq_true (by omega)

/-- A field's topmost bit, as EXTR reads its sign. -/
theorem sign_field (x pos n : Nat) : (x / 2 ^ pos % 2 ^ (n + 1) / 2 ^ n % 2 == 1) = x.testBit (pos + n) := by
  have h := testBit_field x pos (n + 1) n
  rwa [Nat.testBit_eq_decide_div_mod_eq, decide_eq_true (Nat.lt_succ_self n), Bool.true_and] at h

theorem getLsbD_extract (x c : W) {i : Nat} (hi : i < 64) : (extract x c).getLsbD i =
    if i < ux c / 64 % 64 + 1 then x.getLsbD (ux c % 64 + i)
    else (c.getLsbD 12 && x.getLsbD (ux c % 64 + (ux c / 64 % 64 + 1) - 1)) := by
  have hf : x.toNat / 2 ^ (ux c % 64) % 2 ^ (ux c / 64 % 64 + 1) < 2 ^ (ux c / 64 % 64 + 1) := Nat.mod_lt _ (Nat.two_pow_pos _)
  simp only [extract, bitsAt_position, bitsAt_length, Nat.add_sub_cancel, sign_field, BitVec.testBit_toNat, ← Nat.add_assoc]
  by_cases hsign : (c.getLsbD 12 && x.getLsbD (ux c % 64 + ux c / 64 % 64)) = true
  · rw [hsign, if_pos rfl, BitVec.getLsbD_ofNat, testBit_ones_above hf (by omega) hi, testBit_field, BitVec.testBit_toNat]
    by_cases hlen : i < ux c / 64 % 64 + 1 <;> simp [hi, hlen]
  · rw [Bool.eq_false_iff.2 hsign, if_neg Bool.false_ne_true, BitVec.getLsbD_ofNat, testBit_field, BitVec.testBit_toNat]
    by_cases hlen : i < ux c / 64 % 64 + 1 <;> simp [hi, hlen]

theorem getLsbD_insert (d x c : W) {i : Nat} (hi : i < 64) : (insert d x c).getLsbD i =
    if ux c % 64 ≤ i ∧ i < ux c % 64 + (ux c / 64 % 64 + 1) then x.getLsbD (i - ux c % 64) else d.getLsbD i := by
  unfold insert
  rw [bitsAt_position, bitsAt_length]
  have hmask : (BitVec.ofNat 64 (2 ^ (ux c / 64 % 64 + 1) - 1) <<< (ux c % 64)).getLsbD i =
      decide (ux c % 64 ≤ i ∧ i < ux c % 64 + (ux c / 64 % 64 + 1)) := by
    rw [BitVec.getLsbD_shiftLeft, BitVec.getLsbD_ofNat, Nat.testBit_two_pow_sub_one]
    grind
  simp only [BitVec.getLsbD_or, BitVec.getLsbD_and, BitVec.getLsbD_not, BitVec.getLsbD_shiftLeft, hmask, hi]
  by_cases h : ux c % 64 ≤ i ∧ i < ux c % 64 + (ux c / 64 % 64 + 1)
  · simp [h, Nat.not_lt.2 h.1]
  · simp [h]

/-! ### Zeros and ones -/

theorem leadingZeros_le (w x : Nat) : leadingZeros w x ≤ w := by unfold leadingZeros; split <;> omega

theorem testBit_of_lt_leadingZeros {w x i : Nat} (h : i < leadingZeros w x) : x.testBit (w - 1 - i) = false := by
  unfold leadingZeros at h
  split at h
  · simp [*]
  · exact Nat.testBit_lt_two_pow ((Nat.log2_lt ‹_›).1 (by omega))

theorem testBit_leadingZeros {w x : Nat} (hx : x < 2 ^ w) (h : leadingZeros w x < w) : x.testBit (w - 1 - leadingZeros w x) = true := by
  unfold leadingZeros at h ⊢
  split at h
  · omega
  · have hlog := (Nat.log2_lt ‹x ≠ 0›).2 hx
    rw [if_neg ‹_›, show w - 1 - (w - 1 - x.log2) = x.log2 by omega]
    exact Nat.testBit_log2 ‹_›

theorem trailingZeros_le : ∀ (n x : Nat), trailingZeros x n ≤ n
  | 0, _ => Nat.le_refl 0
  | n + 1, x => by
    have h := trailingZeros_le n (x / 2)
    unfold trailingZeros
    split <;> omega

theorem testBit_of_lt_trailingZeros : ∀ {n x i : Nat}, i < trailingZeros x n → x.testBit i = false
  | n + 1, x, i, h => by
    unfold trailingZeros at h
    split at h
    · omega
    · cases i with
      | zero => rw [Nat.testBit_zero]; exact decide_eq_false ‹_›
      | succ i => rw [Nat.testBit_add_one]; exact testBit_of_lt_trailingZeros (n := n) (by omega)

theorem testBit_trailingZeros : ∀ {n x : Nat}, trailingZeros x n < n → x.testBit (trailingZeros x n) = true
  | n + 1, x, h => by
    unfold trailingZeros at h ⊢
    split at h
    · rw [if_pos ‹_›, Nat.testBit_zero]; exact decide_eq_true ‹_›
    · rw [if_neg ‹_›, Nat.add_comm, Nat.testBit_add_one]; exact testBit_trailingZeros (by omega)

theorem countOnes_eq_countP (x : Nat) : ∀ n, countOnes x n = (List.range n).countP x.testBit
  | 0 => rfl
  | n + 1 => by
    rw [countOnes, countOnes_eq_countP x n, List.range_succ, List.countP_append, ← Nat.toNat_testBit]
    cases h : x.testBit n <;> simp [h]

end Sys2Proof.Machine
end

section
/-! SUPPORT. Proofs. The register and immediate forms of the scalar words (spec/05 R100–R103). -/

namespace Sys2Proof.Machine
open Sys2Proof.Claims

theorem registerArithmetic : Claims.RegisterArithmetic := by
  intro s d a b h
  have hmod : ux (s.g b) % 64 < 64 := Nat.mod_lt _ (by decide)
  exact ⟨
    show execAdd d a b s = _ from s.word_scalar h (add_eq_ofNat ..),
    show execSub d a b s = _ from s.word_scalar h (sub_eq_ofInt ..),
    show execAnd d a b s = _ from s.word_scalar h (and_eq_ofNat ..),
    show execOr d a b s = _ from s.word_scalar h (or_eq_ofNat ..),
    show execXor d a b s = _ from s.word_scalar h (xor_eq_ofNat ..),
    show execAndn d a b s = _ from s.word_scalar h (andn_eq_ofNat ..),
    show execOrn d a b s = _ from s.word_scalar h (orn_eq_ofNat ..),
    show execShl d a b s = _ from s.word_scalar h (shiftLeft_eq_ofNat ..),
    show execShr d a b s = _ from s.word_scalar h (shiftRight_eq_ofNat ..),
    show execSha d a b s = _ from s.word_scalar h (sshiftRight_eq_ofInt ..),
    show execRol d a b s = _ from s.word_scalar h (rotateLeft_eq_ofNat _ hmod),
    show execLea d a b s = _ from s.word_scalar h (lea_eq_ofNat ..)⟩

theorem registerSelection : Claims.RegisterSelection := by
  intro s d a b h
  exact ⟨
    show execSlt d a b s = _ from s.word_scalar h (bit64_eq_flag (slt_iff_sx ..)),
    show execSltn d a b s = _ from s.word_scalar h (bit64_eq_flag (ult_iff_ux ..)),
    show execSeq d a b s = _ from s.word_scalar h (bit64_eq_flag beq_iff_eq),
    show execSne d a b s = _ from s.word_scalar h (bit64_eq_flag bne_iff_ne),
    show execMin d a b s = _ from s.word_scalar h (min_eq_ofInt ..),
    show execMax d a b s = _ from s.word_scalar h (max_eq_ofInt ..),
    show execMinn d a b s = _ from s.word_scalar h (minn_eq_ofNat ..),
    show execMaxn d a b s = _ from s.word_scalar h (maxn_eq_ofNat ..),
    show execCsel d a b s = _ from s.word_scalar h (ite_not ..)⟩

theorem registerBitFields : Claims.RegisterBitFields := by
  intro s d a b h pos len
  exact ⟨
    ⟨_, show execExtr d a b s = _ from s.word_scalar h rfl, fun _ hi => getLsbD_extract _ _ hi⟩,
    ⟨_, show execInsr d a b s = _ from s.word_scalar h rfl, fun _ hi => getLsbD_insert _ _ _ hi⟩,
    ⟨_, leadingZeros_le .., show execClz d a s = _ from s.word_scalar h rfl, fun _ hi => testBit_of_lt_leadingZeros hi,
      testBit_leadingZeros (s.g a).isLt⟩,
    ⟨_, trailingZeros_le .., show execCtz d a s = _ from s.word_scalar h rfl, fun _ hi => testBit_of_lt_trailingZeros hi,
      testBit_trailingZeros⟩,
    show execPopc d a s = _ from s.word_scalar h (congrArg _ (countOnes_eq_countP ..)),
    ⟨_, show execBrev d a s = _ from s.word_scalar h rfl, fun i hi => by
      rw [BitVec.getLsbD_reverse, BitVec.getMsbD_eq_getLsbD, decide_eq_true hi, Bool.true_and]⟩⟩

/-- Settles O6: the value of each form is the number, or has the bits, that its rule names. -/
theorem registerForms : Obligations.RegisterForms := by
  unfold Obligations.RegisterForms
  exact ⟨registerArithmetic, registerSelection, registerBitFields⟩

/-- Settles O4: a sign-extended immediate is the number that its rule adds, compares or combines. -/
theorem immediateForms : Obligations.ImmediateForms := by
  unfold Obligations.ImmediateForms
  intro s d a i j n m h
  exact ⟨
    show execAddi d a i s = _ from s.word_scalar h (addSigned_eq_ofInt ..),
    show execAndi d a j s = _ from s.word_scalar h rfl,
    show execOri d a j s = _ from s.word_scalar h rfl,
    show execXori d a j s = _ from s.word_scalar h rfl,
    show execShli d a n s = _ from s.word_scalar h (shiftLeft_eq_ofNat ..),
    show execShri d a n s = _ from s.word_scalar h (shiftRight_eq_ofNat ..),
    show execShai d a n s = _ from s.word_scalar h (sshiftRight_eq_ofInt ..),
    show execSlti d a j s = _ from s.word_scalar h (bit64_eq_flag (slt_signExtend_iff _ (by decide) _)),
    show execSltni d a j s = _ from s.word_scalar h (bit64_eq_flag (ult_iff_ux ..)),
    show execSeqi d a j s = _ from s.word_scalar h (bit64_eq_flag beq_iff_eq),
    show execLimm d m s = _ from s.word_scalar h (shiftIn_eq_ofNat ..),
    show execAddpc d m s = _ from s.word_scalar h (addOffset_eq_ofInt ..)⟩

end Sys2Proof.Machine
end

section
/-! SUPPORT. Proofs. Products, quotients and remainders (spec/05 R104–R106), and the invalidations of firmware (spec/10 R225, R226). -/

namespace Sys2Proof.Machine
open Sys2Proof.Claims

/-! ### Quotients and remainders (R104, R105) -/

section Quotients
variable (x y : W)

theorem sdiv_eq_quotient : (if y = 0 then BitVec.allOnes 64 else x.sdiv y) = quotient x y := by
  refine ite_congr rfl (fun _ => rfl) fun _ => BitVec.eq_of_toInt_eq ?_
  rw [BitVec.toInt_sdiv, BitVec.toInt_ofInt]
  rfl

theorem udiv_eq_quotientN : (if y = 0 then BitVec.allOnes 64 else x / y) = quotientN x y := by
  refine ite_congr rfl (fun _ => rfl) fun _ => ?_
  rw [ux, ux, ← BitVec.toNat_udiv, BitVec.ofNat_toNat, BitVec.setWidth_eq]

theorem srem_eq_remainder : (if y = 0 then x else x.srem y) = remainder x y := by
  refine ite_congr rfl (fun _ => rfl) fun _ => ?_
  rw [← Int.tmod_def, sx, sx, ← BitVec.toInt_srem, BitVec.ofInt_toInt]

theorem umod_eq_remainderN : (if y = 0 then x else x % y) = remainderN x y := by
  refine ite_congr rfl (fun _ => rfl) fun _ => ?_
  rw [ux, ux, ← BitVec.toNat_umod, BitVec.ofNat_toNat, BitVec.setWidth_eq]

end Quotients

/-! ### The divider (R106) -/

theorem State.divide_eq_divides (s : State) (d : GReg) (x : W) : s.divide d x = divides s d x := rfl

theorem State.divideCheck_of_free {s : State} (h : s.tile.core.divider = none) : s.divideCheck = .pass := by
  rw [State.divideCheck, h]

theorem State.divideCheck_eq (s : State) :
    s.divideCheck = if s.tile.core.divider.isSome then Verdict.wait else Verdict.pass := by
  unfold State.divideCheck
  cases s.tile.core.divider <;> rfl

theorem State.word_divide {s : State} {d : GReg} {x : W} {f : State → W} (h : Passes s s.divideCheck) (hx : f s = x) :
    s.word s.divideCheck (fun s => s.divide d (f s)) = .next (divides s d x) := by
  rw [State.word_of_passes _ h, hx, State.divide_eq_divides]

/-! ### The words -/

theorem products : Claims.Products := by
  intro s d a b h
  exact ⟨
    show execMul d a b s = _ from s.word_scalar h (mul_eq_ofInt ..),
    show execMulh d a b s = _ from s.word_scalar h rfl,
    show execMulhn d a b s = _ from s.word_scalar h rfl⟩

theorem divisionsPerformed {s : State} (d a b : GReg) (h : Passes s s.divideCheck) :
    exec (.div d a b) s = .next (divides s d (quotient (s.g a) (s.g b))) ∧
    exec (.divn d a b) s = .next (divides s d (quotientN (s.g a) (s.g b))) ∧
    exec (.rem d a b) s = .next (divides s d (remainder (s.g a) (s.g b))) ∧
    exec (.remn d a b) s = .next (divides s d (remainderN (s.g a) (s.g b))) := ⟨
  show execDiv d a b s = _ from s.word_divide h (sdiv_eq_quotient ..),
  show execDivn d a b s = _ from s.word_divide h (udiv_eq_quotientN ..),
  show execRem d a b s = _ from s.word_divide h (srem_eq_remainder ..),
  show execRemn d a b s = _ from s.word_divide h (umod_eq_remainderN ..)⟩

theorem divisions : Claims.Divisions := by
  intro s d a b
  refine ⟨fun h hd => divisionsPerformed d a b ⟨h, hd.imp_right State.divideCheck_of_free⟩, fun h i hi => ?_⟩
  rw [← State.divideCheck_eq]
  simp only [List.mem_cons, List.not_mem_nil, or_false] at hi
  rcases hi with rfl | rfl | rfl | rfl
  · exact show execDiv d a b s = _ from s.word_of_asked _ h
  · exact show execDivn d a b s = _ from s.word_of_asked _ h
  · exact show execRem d a b s = _ from s.word_of_asked _ h
  · exact show execRemn d a b s = _ from s.word_of_asked _ h

/-- Settles O7: each word's value is the number that its rule names, and the divider's state is its check. DIVN divides unsigned
numbers, so that its quotient of −2^63 by −1 is 0 (log 121). -/
theorem productsAndDivisions : Obligations.ProductsAndDivisions := by
  unfold Obligations.ProductsAndDivisions
  exact ⟨products, divisions⟩

/-! ### Completion (R104–R106, R225, R226) -/

theorem State.firmwareTlbi_of_quiet {s : State} {t : TileId} {scope : Fin 3} {i : Inval} (h : s.invalWaits t scope.val i = false)
    (tlbs : BitVec 4) : s.firmwareTlbi t scope tlbs i = .next (s.invalidate t scope.val tlbs i) := if_neg (by rw [h]; decide)

/-- Settles O60: products and divisions as in O7, and an invalidation that nothing holds up. -/
theorem productsQuotientsAndInvalidationsComplete : Obligations.ProductsQuotientsAndInvalidationsComplete := by
  unfold Obligations.ProductsQuotientsAndInvalidationsComplete
  refine ⟨fun s d a b h => ?_, fun s t scope tlbs key p q z va => ?_⟩
  · obtain ⟨hmul, hmulh, hmulhn⟩ := products s d a b h
    refine ⟨hmul, hmulh, hmulhn, fun hfree => ?_⟩
    have hzero : ux (s.g b) = 0 ↔ s.g b = 0 := BitVec.toNat_inj (y := 0)
    have hones : BitVec.allOnes 64 = BitVec.ofInt 64 (-1) := by decide
    simpa only [quotient, quotientN, remainder, remainderN, hones, hzero, Nat.mod_eq_sub_mul_div]
      using divisionsPerformed d a b ⟨h, .inr (State.divideCheck_of_free hfree)⟩
  · dsimp only
    rw [Nat.div_mul_self_eq_mod_sub_self]
    exact ⟨
      fun h => show execTlbiKeySlot t scope tlbs key s = _ from State.firmwareTlbi_of_quiet h tlbs,
      fun h => show execTlbiPage t scope tlbs p q z va s = _ from State.firmwareTlbi_of_quiet h tlbs,
      fun h => show execTlbiSequence t scope tlbs p q s = _ from State.firmwareTlbi_of_quiet h tlbs,
      fun h => show execTlbiStage2Page t scope tlbs p z va s = _ from State.firmwareTlbi_of_quiet h tlbs,
      fun h => show execTlbiPartition t scope tlbs p s = _ from State.firmwareTlbi_of_quiet h tlbs,
      fun h => show execTlbiAll t scope tlbs s = _ from State.firmwareTlbi_of_quiet h tlbs⟩

end Sys2Proof.Machine
end

section
/-! SUPPORT. Proofs. Transfers, and the link of CALL (spec/05 R107–R111). -/

namespace Sys2Proof.Machine
open Sys2Proof.Claims

/-! ### Transfers (R107–R111) -/

section Transfers
variable (s : State)

theorem State.link_eq_after : s.link = after s := by rw [after, BitVec.ofNat_add, ofNat_ux]; rfl

theorem State.transfer_eq_goesTo (goal : W) (leave : Bool) : s.transfer goal leave = goesTo s goal leave := rfl

theorem State.offset_eq_target {n : Nat} (o : BitVec n) : s.issue.ba + o.signExtend 64 <<< 2 = target s o.toInt :=
  addOffset_eq_ofInt ..

theorem State.branch_eq_branches {n : Nat} {b : Bool} {p : Prop} [Decidable p] (h : b = true ↔ p) (o : BitVec n) :
    s.branch b (o.signExtend 64) = branches s p o.toInt := by
  rw [State.branch, State.offset_eq_target]
  exact ite_congr (propext h) (fun _ => rfl) fun _ => rfl

theorem State.callLink_eq_flying :
    s.callLink = flying s { ordinary s (.g 63) ((after s).setWidth 1024) 1 with cls := 2 } := by
  rw [← State.link_eq_after]
  rfl

/-- The call of CALL: its link flies, and its loops stay. -/
theorem exec_call {s : State} (h : Performed s) (q : BitVec 22) : exec (.call q) s =
    .next (goesTo (flying s { ordinary s (.g 63) ((after s).setWidth 1024) 1 with cls := 2 }) (target s q.toInt) false) :=
  show execCall q s = _ from s.word_of_performed h <| by
    rw [State.offset_eq_target, State.callLink_eq_flying, State.transfer_eq_goesTo]

theorem State.jumpCheck_aligned {s : State} {a : GReg} (h : ux (s.g a) % 4 = 0) : s.jumpCheck a = .pass := if_neg fun hn => hn h

theorem State.jumpCheck_unaligned {s : State} {a : GReg} (h : ux (s.g a) % 4 ≠ 0) :
    s.jumpCheck a = .trap .misalign (s.g a) := if_pos h

end Transfers

theorem offsetTransfers : Claims.OffsetTransfers := by
  intro s a b o p q h
  have hle (x y : W) : (!x.slt y) = true ↔ sx y ≤ sx x := by rw [Bool.not_eq_true', ← Bool.not_eq_true, slt_iff_sx, Int.not_lt]
  have hleN (x y : W) : (!x.ult y) = true ↔ ux y ≤ ux x := by rw [Bool.not_eq_true', ← Bool.not_eq_true, ult_iff_ux, Nat.not_lt]
  exact ⟨
    show execBeq a b o s = _ from s.word_of_performed h (s.branch_eq_branches beq_iff_eq o),
    show execBne a b o s = _ from s.word_of_performed h (s.branch_eq_branches bne_iff_ne o),
    show execBlt a b o s = _ from s.word_of_performed h (s.branch_eq_branches (slt_iff_sx ..) o),
    show execBge a b o s = _ from s.word_of_performed h (s.branch_eq_branches (hle ..) o),
    show execBltn a b o s = _ from s.word_of_performed h (s.branch_eq_branches (ult_iff_ux ..) o),
    show execBgen a b o s = _ from s.word_of_performed h (s.branch_eq_branches (hleN ..) o),
    show execBz a p s = _ from s.word_of_performed h (s.branch_eq_branches beq_iff_eq p),
    show execBnz a p s = _ from s.word_of_performed h (s.branch_eq_branches bne_iff_ne p),
    show execJmp q s = _ from s.word_of_performed h (congrArg (s.transfer · true) (s.offset_eq_target q)),
    exec_call h q⟩

theorem registerTransfers : Claims.RegisterTransfers := by
  intro s d a
  refine ⟨fun h hal => ?_, fun h hal => ?_⟩
  · have hp : Passes s (s.jumpCheck a) := ⟨h, .inr (State.jumpCheck_aligned hal)⟩
    exact ⟨
      show execJr a s = _ from s.word_of_passes _ hp,
      show execCallr d a s = _ from (s.word_of_passes _ hp).trans
        (by rw [State.link_eq_after, State.scalar_eq_gives, State.transfer_eq_goesTo])⟩
  · have hu := State.jumpCheck_unaligned hal
    exact ⟨
      show execJr a s = _ by rw [execJr, hu, State.word_of_refused _ h],
      show execCallr d a s = _ by rw [execCallr, hu, State.word_of_refused _ h]⟩

/-- Settles O9: an offset counts words from the bundle's address, and the check of a register target is its alignment. -/
theorem transfersGoThere : Obligations.TransfersGoThere := by
  unfold Obligations.TransfersGoThere
  exact ⟨offsetTransfers, registerTransfers⟩

/-! ### CALL's link (R111) -/

theorem State.landOne_of_g (s : State) (t : TileId) (k : StrandId) {l : Landing} {r : GReg} (hd : l.dest = .g r) :
    s.landOne t k l = s.modStrandAt t k fun x => { x with ctx := x.ctx.landOne l } := by
  rw [State.landOne, hd]

theorem Ctx.landOne_g (c : Ctx) {l : Landing} {r : GReg} (hd : l.dest = .g r) (hf : l.fault = none) :
    ∃ due, c.landOne l = { (c.orFlags l.flags).setG r (l.val.setWidth 64) with due := due } := by
  unfold Ctx.landOne
  rw [hf, hd]
  dsimp only
  split
  · exact ⟨_, rfl⟩
  · exact ⟨_, rfl⟩

theorem Ctx.g_landOne (c : Ctx) {l : Landing} {r : GReg} (hr : r ≠ 0) (hd : l.dest = .g r) (hf : l.fault = none) :
    (c.landOne l).g r = l.val.setWidth 64 := by
  obtain ⟨due, h⟩ := c.landOne_g hd hf
  rw [h]
  simp [Ctx.g, Ctx.setG, hr]

/-- Two results of one clock land in the order of their classes, whichever was put in flight first. -/
theorem sortLandings_pair {a b : Landing} (hdue : a.due = b.due) (ha : a.cls = 1) (hb : b.cls = 2) :
    sortLandings [a, b] = [a, b] ∧ sortLandings [b, a] = [a, b] := by
  simp [sortLandings, insertLanding, Landing.before, hdue, ha, hb]

theorem State.g_land_pair (s : State) (t : TileId) (k : StrandId) {a b : Landing} {r : GReg} {l : List Landing} (hr : r ≠ 0)
    (hab : sortLandings l = [a, b]) (hb : b.dest = .g r) (hfb : b.fault = none)
    (hl : (s.strandAt t k).ctx.inflight = l) (hdue : ∀ x ∈ l, x.due ≤ (s.strandAt t k).ctx.clock) :
    ((s.land t k).strandAt t k).ctx.g r = b.val.setWidth 64 := by
  have hnow : l.filter (fun x => x.due ≤ (s.strandAt t k).ctx.clock) = l := List.filter_eq_self.2 (by simpa using hdue)
  simp only [State.land, State.landList, hl, hnow, hab, List.foldl_cons, List.foldl_nil]
  rw [State.landOne_of_g _ _ _ hb, State.strandAt_modStrandAt_self]
  exact Ctx.g_landOne _ hr hb hfb

/-- Settles O53: CALL's link has the later class of its clock, so that it is the last of two results for g63 to land. -/
theorem callLinkWins : Obligations.CallLinkWins := by
  unfold Obligations.CallLinkWins
  refine ⟨fun _ => rfl, fun s q h => ⟨_, exec_call h q, rfl, rfl, rfl, rfl, rfl⟩, fun s x => ⟨rfl, rfl, rfl⟩, ?_⟩
  intro s t k a b ha hb hdue hca hcb hfa hfb hclock hl
  obtain ⟨hab, hba⟩ := sortLandings_pair hdue hca hcb
  have hclock' : b.due ≤ (s.strandAt t k).ctx.clock := hdue ▸ hclock
  rcases hl with hl | hl
  · exact s.g_land_pair t k (by decide) hab hb hfb hl (by simp [hclock, hclock'])
  · exact s.g_land_pair t k (by decide) hba hb hfb hl (by simp [hclock, hclock'])

end Sys2Proof.Machine
end

section
/-! SUPPORT. Proofs. A thread's HALT with an open batch that is not empty (spec/05 R118, spec/09 R191). -/

namespace Sys2Proof.Machine
open Sys2Proof.Claims

/-- A thread that has issued a command: its open batch, number 1, has a member. -/
def batching : State := State.reset.modStrand fun x =>
  { x with work := .thread 0, owner := 1, ctx := { x.ctx with
      batches := [{ num := 1, members := 1, used := true, sealed := false, fault := none, reported := false }] } }

theorem batching_batchnow : batching.ctx.batchnow = 1 := rfl

theorem exec_halt_of_thread {s : State} (h : Performed s) (hr : s.rewriting = none) :
    exec .halt s = .next (s.modCtx fun c => { c.sealHalt with halting := true }) :=
  show execHalt s = _ from s.word_of_performed h (by rw [hr])

/-- HALT seals batch 1, and batch 2 is the open one. -/
theorem halt_seals_batch : ∃ u, exec .halt batching = .next u ∧ u.ctx.batchnow = 2 := by
  refine ⟨_, exec_halt_of_thread rfl rfl, ?_⟩
  rw [State.ctx_modCtx]
  rfl

/-- Refutes O12: HALT seals the open batch when it is not empty (R191), so that BATCHNOW goes on, where the clause of HALT in
`SystemForms` leaves all but the halt as it was. -/
theorem not_systemWords : ¬ Obligations.SystemWords := by
  unfold Obligations.SystemWords
  rintro ⟨hforms, -⟩
  obtain ⟨_, _, _, _, _, _, hhalt, _⟩ := hforms batching rfl
  obtain ⟨u, hu, hnow⟩ := halt_seals_batch
  obtain rfl : u = batching.modCtx fun c => { c with halting := true } := by simpa [hu] using hhalt rfl
  rw [State.ctx_modCtx] at hnow
  exact absurd (batching_batchnow.symm.trans hnow) (by decide)

end Sys2Proof.Machine
end

section
/-! SUPPORT. Proofs. Elements of a vector register as numbers, the register that is packed from elements, the bytes that a mask
selects, and the results that vector words put in flight (spec/03 R66, R67, spec/07 R147). -/

namespace Sys2Proof.Machine
open Sys2Proof.Claims

/-! ### Widths (R89) -/

section Widths
variable (z : W2)

theorem w2Bytes_eq_laneBytes : w2Bytes z = laneBytes z := by cases z <;> rfl

theorem laneBytes_pos : 0 < laneBytes z := by cases z <;> decide

/-- The elements of a width fill a register. -/
theorem laneBytes_mul_lanes : laneBytes z * (128 / laneBytes z) = 128 := by cases z <;> rfl

end Widths

/-! ### Elements (R66) -/

section Lanes
variable (w : Nat) (x : V) (i : Nat)

theorem elem_eq_lane : elem w x i = lane w x i := by
  rw [elem, lane, BitVec.extractLsb'_toNat, Nat.shiftRight_eq_div_pow]

theorem elemS_eq_laneS : elemS w x i = laneS w x i := by
  rw [elemS, laneS, ← elem_eq_lane, elem, BitVec.ofNat_toNat, BitVec.setWidth_eq]

theorem elemT_eq_laneAs (signed : Bool) : elemT w signed x i = laneAs signed w x i := by
  rw [elemT, laneAs, elemS_eq_laneS, elem_eq_lane]

theorem lane_lt : lane w x i < 2 ^ (8 * w) := Nat.mod_lt _ (Nat.two_pow_pos _)

theorem lane_mod : lane w x i % 2 ^ (8 * w) = lane w x i := Nat.mod_mod _ _

theorem testBit_lane (t : Nat) : (lane w x i).testBit t = (decide (t < 8 * w) && x.getLsbD (8 * w * i + t)) :=
  testBit_field ..

end Lanes

/-- Two registers have the same element where they have the same bits. -/
theorem lane_congr {w i : Nat} {x y : V} (h : ∀ t < 8 * w, x.getLsbD (8 * w * i + t) = y.getLsbD (8 * w * i + t)) :
    lane w x i = lane w y i := by
  refine Nat.eq_of_testBit_eq fun t => ?_
  rw [testBit_lane, testBit_lane]
  by_cases ht : t < 8 * w
  · rw [h t ht]
  · simp [ht]

/-! ### Packed elements -/

theorem add_mul_lt_mul {m n x y : Nat} (hx : x < m) (hy : y < n) : x + m * y < m * n := calc
  x + m * y < m + m * y := Nat.add_lt_add_right hx _
  _ = m * (y + 1) := by rw [Nat.mul_succ, Nat.add_comm]
  _ ≤ m * n := Nat.mul_le_mul_left m hy

theorem packNat_lt (w : Nat) : ∀ l : List Nat, packNat w l < 2 ^ (8 * w * l.length)
  | [] => Nat.two_pow_pos _
  | x :: l => by
    rw [packNat, List.length_cons, Nat.mul_succ, Nat.add_comm (8 * w * _), Nat.pow_add]
    exact add_mul_lt_mul (Nat.mod_lt _ (Nat.two_pow_pos _)) (packNat_lt w l)

theorem packNat_div_mod (w : Nat) : ∀ (l : List Nat) (i : Nat),
    packNat w l / 2 ^ (8 * w * i) % 2 ^ (8 * w) = l.getD i 0 % 2 ^ (8 * w)
  | [], i => by simp [packNat]
  | x :: l, 0 => by simp [packNat]
  | x :: l, i + 1 => by
    have hlow : x % 2 ^ (8 * w) < 2 ^ (8 * w) := Nat.mod_lt _ (Nat.two_pow_pos _)
    have hup : packNat w (x :: l) / 2 ^ (8 * w) = packNat w l := by
      rw [packNat, Nat.add_mul_div_left _ _ (Nat.two_pow_pos _), Nat.div_eq_of_lt hlow, Nat.zero_add]
    rw [Nat.mul_succ, Nat.add_comm, Nat.pow_add, ← Nat.div_div_eq_div_mul, hup, packNat_div_mod w l i, List.getD_cons_succ]

section Pack
variable {w : Nat} {l : List Nat}

/-- Element i of a packed register: element i of the list, wrapped, and 0 above the list. -/
theorem lane_pack (h : w * l.length ≤ 128) (i : Nat) : lane w (pack w l) i = l.getD i 0 % 2 ^ (8 * w) := by
  have hbits : 8 * w * l.length ≤ 1024 := by rw [Nat.mul_assoc]; omega
  have hfit := Nat.lt_of_lt_of_le (packNat_lt w l) (Nat.pow_le_pow_right Nat.two_pos hbits)
  rw [lane, pack, BitVec.toNat_ofNat, Nat.mod_eq_of_lt hfit, packNat_div_mod]

theorem lane_pack_map {n i : Nat} (f : Nat → Nat) (h : w * n ≤ 128) (hi : i < n) :
    lane w (pack w ((List.range n).map f)) i = f i % 2 ^ (8 * w) := by
  rw [lane_pack (by rwa [List.length_map, List.length_range]), List.getD_eq_getElem?_getD, List.getElem?_map,
    List.getElem?_range hi, Option.map_some, Option.getD_some]

end Pack

/-! ### Active bytes (R66, R67) -/

/-- The number that `activeBytes` sums up. -/
def activeNat (w n : Nat) (k : K) : Nat :=
  (List.range n).foldl (fun a i => if k.getLsbD i then a + (2 ^ w - 1) * 2 ^ (w * i) else a) 0

theorem activeBytes_eq (w n : Nat) (k : K) : activeBytes w n k = BitVec.ofNat 128 (activeNat w n k) := rfl

/-- A byte in the topmost of n + 1 elements. -/
theorem div_eq_of_top_lane {w n b : Nat} (hlow : ¬ b < w * n) (htop : b < w * (n + 1)) : b / w = n := by
  rw [Nat.mul_comm] at hlow htop
  exact Nat.div_eq_of_lt_le (Nat.not_lt.1 hlow) htop

section Active
variable {w : Nat} (k : K)

theorem activeNat_succ (n : Nat) : activeNat w (n + 1) k =
    2 ^ (w * n) * (if k.getLsbD n then 2 ^ w - 1 else 0) + activeNat w n k := by
  unfold activeNat
  rw [List.range_succ, List.foldl_append, List.foldl_cons, List.foldl_nil]
  split
  · rw [Nat.mul_comm, Nat.add_comm]
  · rw [Nat.mul_zero, Nat.zero_add]

theorem activeNat_lt : ∀ n, activeNat w n k < 2 ^ (w * n)
  | 0 => Nat.two_pow_pos _
  | n + 1 => by
    have hnew : (if k.getLsbD n then 2 ^ w - 1 else 0) < 2 ^ w := by
      have := Nat.two_pow_pos w
      split <;> omega
    rw [activeNat_succ, Nat.add_comm, Nat.mul_succ, Nat.pow_add]
    exact add_mul_lt_mul (activeNat_lt n) hnew

theorem testBit_activeNat (hw : 0 < w) (b : Nat) : ∀ n, (activeNat w n k).testBit b = (decide (b < w * n) && k.getLsbD (b / w))
  | 0 => by simp [activeNat]
  | n + 1 => by
    rw [activeNat_succ, Nat.testBit_two_pow_mul_add _ (activeNat_lt k n)]
    split
    next h => rw [testBit_activeNat hw b n, decide_eq_true h, decide_eq_true (by rw [Nat.mul_succ]; omega)]
    next h =>
      by_cases hb : b < w * (n + 1)
      · have hbit : b - w * n < w := by rw [Nat.mul_succ] at hb; omega
        rw [decide_eq_true hb, Bool.true_and, div_eq_of_top_lane ‹_› hb]
        cases k.getLsbD n <;> simp [Nat.testBit_two_pow_sub_one, hbit]
      · have hbit : ¬ b - w * n < w := by rw [Nat.mul_succ] at hb; omega
        rw [decide_eq_false hb, Bool.false_and]
        cases k.getLsbD n <;> simp [Nat.testBit_two_pow_sub_one, hbit]

theorem getLsbD_activeBytes (hw : 0 < w) (n : Nat) {b : Nat} (hb : b < 128) :
    (activeBytes w n k).getLsbD b = (decide (b < w * n) && k.getLsbD (b / w)) := by
  rw [activeBytes_eq, BitVec.getLsbD_ofNat, decide_eq_true hb, Bool.true_and, testBit_activeNat k hw]

/-- The active bytes of all elements of a width are the bytes that the mask selects. -/
theorem selects_activeBytes (hw : 0 < w) (hfill : w * (128 / w) = 128) : selects (activeBytes w (128 / w) k) k w := by
  intro b hb
  rw [getLsbD_activeBytes k hw _ hb, hfill, decide_eq_true hb, Bool.true_and]

end Active

/-! ### Selected bits (R66, R170) -/

theorem getLsbD_spread (m : K) (w : Nat) {j : Nat} (hw : 0 < w) (hj : j < 1024) : ∀ n,
    (spread m w n).getLsbD j = (decide (j < w * n) && m.getLsbD (j / w))
  | 0 => by simp [spread]
  | n + 1 => by
    have hones : ((BitVec.ofNat 1024 (2 ^ w - 1)) <<< (w * n)).getLsbD j = (!decide (j < w * n) && decide (j < w * (n + 1))) := by
      rw [BitVec.getLsbD_shiftLeft, BitVec.getLsbD_ofNat, Nat.testBit_two_pow_sub_one, Nat.mul_succ]
      grind
    have hzero : BitVec.getLsbD (0 : V) j = false := BitVec.getLsbD_zero
    rw [spread, BitVec.getLsbD_or, getLsbD_spread m w hw hj n, apply_ite (BitVec.getLsbD · j), hones, hzero]
    by_cases hlow : j < w * n
    · simp [hlow, Nat.mul_succ, Nat.lt_add_right]
    · by_cases htop : j < w * (n + 1)
      · simp [hlow, htop, div_eq_of_top_lane hlow htop]
      · simp [hlow, htop]

theorem getLsbD_blend (sel new old : V) (j : Nat) :
    (blend sel new old).getLsbD j = if sel.getLsbD j then new.getLsbD j else old.getLsbD j := by
  by_cases hj : j < 1024
  · rw [blend, BitVec.getLsbD_or, BitVec.getLsbD_and, BitVec.getLsbD_and, BitVec.getLsbD_not, decide_eq_true hj]
    cases sel.getLsbD j <;> simp
  · simp [BitVec.getLsbD_of_ge _ j (Nat.not_lt.1 hj)]

/-- A bit of element i stands in a byte of element i. -/
theorem div_of_lane_bit {w i t : Nat} (ht : t < 8 * w) : (8 * w * i + t) / 8 / w = i := by
  rw [Nat.div_div_eq_div_mul, Nat.mul_add_div (by omega), Nat.div_eq_of_lt ht, Nat.add_zero]

/-- A register blended by the bytes of a mask holds, element by element, what the mask selects. -/
theorem lane_blend {w : Nat} (hw : 0 < w) (hfill : w * (128 / w) = 128) (k : K) (x y : V) {i : Nat} (hi : i < 128 / w) :
    lane w (blend (spread (activeBytes w (128 / w) k) 8 128) x y) i = if k.getLsbD i then lane w x i else lane w y i := by
  have hsel {t : Nat} (ht : t < 8 * w) :
      (spread (activeBytes w (128 / w) k) 8 128).getLsbD (8 * w * i + t) = k.getLsbD i := by
    have hj : 8 * w * i + t < 1024 := by
      have hin : 8 * w * (i + 1) ≤ 8 * (w * (128 / w)) := by rw [← Nat.mul_assoc]; exact Nat.mul_le_mul_left _ hi
      rw [hfill, Nat.mul_succ] at hin
      omega
    rw [getLsbD_spread _ _ (by decide) hj, decide_eq_true hj, Bool.true_and, selects_activeBytes k hw hfill _ (by omega),
      div_of_lane_bit ht]
  split
  next h => exact lane_congr fun t ht => by rw [getLsbD_blend, hsel ht, if_pos h]
  next h => exact lane_congr fun t ht => by rw [getLsbD_blend, hsel ht, if_neg h]

/-! ### Results (R147) -/

section Results
variable {s : State} {d : VReg} {e : State → State} {lat : Nat}

theorem State.vector_eq_flying (s : State) (d : VReg) (x : V) (act : K) (lat : Nat) (flags : BitVec 6) (hot : K) :
    s.vector d x act lat flags hot = flying s { ordinary s (.v d) x lat with act := act, flags := flags, hot := hot } := rfl

/-- A word that packs its elements gives them under the mask. -/
theorem givesLanes_of_pack {w : Nat} {k : K} {flags : BitVec 6} {hot : K} {f g : Nat → Nat} (h : Performed s) (hw : 0 < w)
    (hfill : w * (128 / w) = 128)
    (he : e s = s.vector d (pack w ((List.range (128 / w)).map g)) (activeBytes w (128 / w) k) lat flags hot)
    (hg : ∀ i < 128 / w, g i % 2 ^ (8 * w) = f i % 2 ^ (8 * w)) :
    GivesLanes (s.word .pass e) s d w k lat flags hot f :=
  ⟨_, _, State.word_of_performed h (he.trans (s.vector_eq_flying ..)), selects_activeBytes k hw hfill,
    fun i hi _ => (lane_pack_map g (Nat.le_of_eq hfill) hi).trans (hg i hi)⟩

theorem givesLanes_vint {k : KReg} {z : W2} {f : Nat → Nat} {g : State → Nat → Nat → Nat} (h : Performed s)
    (hg : ∀ i < 128 / laneBytes z, g s (laneBytes z) i = f i) :
    GivesLanes (s.word .pass fun s => s.vint d k z (g s)) s d (laneBytes z) (s.k k) 2 0 0 f :=
  givesLanes_of_pack h (laneBytes_pos z) (laneBytes_mul_lanes z) (by rw [State.vint, w2Bytes_eq_laneBytes])
    fun i hi => by rw [hg i hi]

/-- A word that writes a whole register gives all its elements. -/
theorem givesAll_of_vector {w : Nat} {x : V} {f : Nat → Nat} (h : Performed s)
    (he : e s = s.vector d x (BitVec.allOnes 128) lat 0 0) (hf : ∀ i < 128 / w, lane w x i = f i) :
    GivesAll (s.word .pass e) s d w lat f :=
  ⟨x, State.word_of_performed h (he.trans (s.vector_eq_flying ..)), hf⟩

end Results

end Sys2Proof.Machine
end

section
/-! SUPPORT. Proofs. Permutes, moves, narrowing and widening of vector elements (spec/07 R162, R163, R170). -/

namespace Sys2Proof.Machine
open Sys2Proof.Claims

/-! ### Permutes (R163) -/

theorem rankBelow_eq_countP (k : K) : ∀ i, rankBelow k i = (List.range i).countP fun j => k.getLsbD j
  | 0 => rfl
  | i + 1 => by
    rw [rankBelow, rankBelow_eq_countP k i, List.range_succ, List.countP_append]
    cases h : k.getLsbD i <;> simp [boolNat, h]

theorem map_elem_filter (w : Nat) (x : V) (k : K) :
    ((List.range (128 / w)).filter fun i => k.getLsbD i).map (elem w x) = chosen w x k :=
  List.map_congr_left fun i _ => elem_eq_lane w x i

theorem chosen_length_le (w : Nat) (x : V) (k : K) : (chosen w x k).length ≤ 128 / w := by
  rw [chosen, List.length_map]
  exact Nat.le_trans (List.length_filter_le ..) (Nat.le_of_eq List.length_range)

theorem chosen_getD_lt (w : Nat) (x : V) (k : K) (i : Nat) : (chosen w x k).getD i 0 < 2 ^ (8 * w) := by
  rw [List.getD_eq_getElem?_getD]
  cases h : (chosen w x k)[i]? with
  | none => exact Nat.two_pow_pos _
  | some y =>
    obtain ⟨j, _, rfl⟩ := List.mem_map.1 (List.mem_of_getElem? h)
    exact lane_lt w x j

/-- The chosen elements, packed, are the register that VCOMPR writes. -/
theorem lane_pack_chosen {w : Nat} (hfill : w * (128 / w) = 128) (x : V) (k : K) (i : Nat) :
    lane w (pack w (chosen w x k)) i = (chosen w x k).getD i 0 := by
  have hfit : w * (chosen w x k).length ≤ 128 := hfill ▸ Nat.mul_le_mul_left w (chosen_length_le w x k)
  rw [lane_pack hfit, Nat.mod_eq_of_lt (chosen_getD_lt ..)]

theorem vectorPermutes : Claims.VectorPermutes := by
  intro s d a b g k z h
  exact ⟨
    show GivesLanes (execVperm d a b k z s) .. from givesLanes_vint h fun i _ => by rw [elem_eq_lane, elem_eq_lane],
    show GivesLanes (execVslide d a g k z s) .. from givesLanes_vint h fun i _ => by simp only [elem_eq_lane]; rfl,
    show GivesLanes (execVtrn d a b k z s) .. from givesLanes_vint h fun i _ => by rw [elem_eq_lane, elem_eq_lane],
    show GivesLanes (execVexpd d a k z s) .. from givesLanes_vint h fun i _ => by rw [elem_eq_lane, rankBelow_eq_countP],
    show GivesAll (execVcompr d a k z s) .. from givesAll_of_vector h rfl fun i _ => by
      rw [w2Bytes_eq_laneBytes, map_elem_filter, lane_pack_chosen (laneBytes_mul_lanes z)]⟩

/-! ### Moves (R170) -/

theorem laneOf_eq (x : W) (z : W2) : laneOf x z = ux x % (128 / laneBytes z) := by
  rw [laneOf, w2Bytes_eq_laneBytes]
  rfl

theorem vectorMoves : Claims.VectorMoves := by
  intro s d a b g h k z hs
  have hfill := laneBytes_mul_lanes z
  refine ⟨?_, ?_, ?_, ?_⟩
  · refine show GivesAll (execVsel d a b k z s) .. from givesAll_of_vector hs rfl fun i hi => ?_
    rw [w2Bytes_eq_laneBytes]
    exact lane_blend (laneBytes_pos z) hfill _ _ _ hi
  · exact show GivesLanes (execVbcast d g k z s) .. from givesLanes_vint hs fun _ _ => rfl
  · exact show execVext g a h z s = _ from s.word_scalar hs (by rw [elem_eq_lane, laneOf_eq, w2Bytes_eq_laneBytes])
  · refine show GivesAll (execVins d g h z s) .. from givesAll_of_vector hs rfl fun i hi => ?_
    rw [w2Bytes_eq_laneBytes, laneOf_eq, lane_pack_map _ (Nat.le_of_eq hfill) hi, elem_eq_lane]
    split
    · rfl
    · exact lane_mod ..

/-! ### Narrowing and widening (R162) -/

theorem two_pow_int_pos (n : Nat) : (0 : Int) < 2 ^ n := Int.pow_pos (by decide)

section Wrapped
variable (w : Nat) (x : Int)

theorem wrapS_eq : wrapS w x = (x % 2 ^ (8 * w)).toNat := by
  unfold wrapS
  norm_cast

theorem cast_wrapS : (wrapS w x : Int) = x % 2 ^ (8 * w) := by
  rw [wrapS_eq, Int.toNat_of_nonneg (Int.emod_nonneg _ (Int.ne_of_gt (two_pow_int_pos _)))]

theorem wrapS_mod : wrapS w x % 2 ^ (8 * w) = wrapS w x := by
  refine Nat.mod_eq_of_lt ?_
  have hlt := Int.emod_lt_of_pos x (two_pow_int_pos (8 * w))
  rw [← cast_wrapS] at hlt
  exact_mod_cast hlt

end Wrapped

section Clamped
variable {lo hi : Int} (h : lo ≤ hi)
include h

theorem clampTo_eq_min_max (x : Int) : clampTo lo hi x = Min.min hi (Max.max lo x) := by
  unfold clampTo
  split
  next => omega
  next => split <;> omega

theorem clampTo_bne_iff (x : Int) : (clampTo lo hi x != x) = true ↔ x < lo ∨ hi < x := by
  rw [bne_iff_ne, clampTo_eq_min_max h]
  omega

theorem any_clamped_iff (n : Nat) (k : K) (x : Nat → Int) :
    ((List.range n).any fun i => k.getLsbD i && clampTo lo hi (x i) != x i) = true ↔
      ∃ i < n, k.getLsbD i = true ∧ (x i < lo ∨ hi < x i) := by
  simp only [List.any_eq_true, List.mem_range, Bool.and_eq_true, clampTo_bne_iff h]

end Clamped

/-- SAT is raised where a condition holds, and no flag elsewhere (R33). -/
theorem flagIf_flagSAT {b : Bool} {p : Prop} (h : b = true ↔ p) :
    (p → flagIf b flagSAT = 0x20) ∧ (¬ p → flagIf b flagSAT = 0) :=
  ⟨fun hp => if_pos (h.2 hp), fun hp => if_neg (mt h.1 hp)⟩

theorem typeRange_eq (w : Nat) (signed : Bool) : typeRange w signed =
    (if signed then - 2 ^ (8 * w - 1) else 0, if signed then 2 ^ (8 * w - 1) - 1 else 2 ^ (8 * w) - 1) := by
  cases signed <;> rfl

theorem typeRange_le (w : Nat) (signed : Bool) : (typeRange w signed).1 ≤ (typeRange w signed).2 := by
  cases signed with
  | false => exact Int.le_sub_one_of_lt (two_pow_int_pos _)
  | true => exact Int.le_sub_one_of_lt (Int.lt_trans (Int.neg_neg_of_pos (two_pow_int_pos _)) (two_pow_int_pos _))

theorem narrowSel_eq (c : NarrowSel) : narrowSel c = (2 * (narrowing c).1, narrowing c) := by cases c <;> rfl

theorem narrowing_mul_lanes (c : NarrowSel) : (narrowing c).1 * (64 / (narrowing c).1) = 64 := by cases c <;> rfl

theorem narrowing_pos (c : NarrowSel) : 0 < (narrowing c).1 := by cases c <;> decide

theorem widenSel_eq (e : WidenSel) : widenSel e = ((widening e).1, (widening e).1 / 2, (widening e).2) := by cases e <;> rfl

theorem widening_mul_lanes (e : WidenSel) : (widening e).1 * (128 / (widening e).1) = 128 := by cases e <;> rfl

theorem widening_pos (e : WidenSel) : 0 < (widening e).1 := by cases e <;> decide

/-- VNARROW by the width and sign of its destination type and by the range of that type. -/
theorem exec_vnarrow {s : State} {c : NarrowSel} {lo hi : Int} (h : Performed s)
    (hr : typeRange (narrowing c).1 (narrowing c).2 = (lo, hi)) (d a : VReg) (k : KReg) :
    let w := (narrowing c).1
    let n := 64 / w
    let x := laneAs (narrowing c).2 (2 * w) (s.v a)
    exec (.vnarrow d a c k) s = .next (s.vector d (pack w ((List.range n).map fun i => wrapS w (clampTo lo hi (x i))))
      (activeBytes w n (s.k k)) 4
      (flagIf ((List.range n).any fun i => (s.k k).getLsbD i && clampTo lo hi (x i) != x i) flagSAT) 0) := by
  have hn : 128 / (2 * (narrowing c).1) = 64 / (narrowing c).1 := Nat.mul_div_mul_left 64 _ Nat.two_pos
  refine show execVnarrow d a c k s = _ from s.word_of_performed h ?_
  simp only [narrowSel_eq, elemT_eq_laneAs, hn, hr]

theorem givesLanes_vwiden {s : State} (h : Performed s) (d a : VReg) (e : WidenSel) (k : KReg) :
    GivesLanes (exec (.vwiden d a e k) s) s d (widening e).1 (s.k k) 4 0 0
      fun i => (laneAs (widening e).2 ((widening e).1 / 2) (s.v a) i % 2 ^ (8 * (widening e).1)).toNat := by
  refine show GivesLanes (execVwiden d a e k s) .. from
    givesLanes_of_pack h (widening_pos e) (widening_mul_lanes e) (by rw [widenSel_eq]) fun i _ => ?_
  rw [elemT_eq_laneAs, wrapS_eq]

theorem vectorNarrowAndWiden : Claims.VectorNarrowAndWiden := by
  intro s d a k c e h
  have hrange := typeRange_eq (narrowing c).1 (narrowing c).2
  have hle := typeRange_le (narrowing c).1 (narrowing c).2
  rw [hrange] at hle
  have hfill := narrowing_mul_lanes c
  refine ⟨⟨_, _, _, exec_vnarrow h hrange d a k, fun b hb => ?_, fun i hi _ => ?_, flagIf_flagSAT (any_clamped_iff hle ..)⟩,
    givesLanes_vwiden h d a e k⟩
  · rw [getLsbD_activeBytes _ (narrowing_pos c) _ hb, hfill]
  · rw [lane_pack_map _ (by omega) hi, wrapS_mod, cast_wrapS, clampTo_eq_min_max hle]

/-- Settles O34: each word packs the elements that its rule names, and the mask selects the bytes that it writes. -/
theorem vectorShapes : Obligations.VectorShapes := by
  unfold Obligations.VectorShapes
  exact ⟨vectorPermutes, vectorMoves, vectorNarrowAndWiden⟩

end Sys2Proof.Machine
end

section
/-! SUPPORT. Proofs. Copy commands (spec/09 R188–R195). -/

namespace Sys2Proof.Machine
open Sys2Proof.Claims

/-! ### What the context and memory depend on -/

theorem sameMemory_of_eq {s u : State} (hm : u.mem = s.mem) (hk : u.keyed = s.keyed) : SameMemory s u := fun key a => by
  rw [State.byteAs, State.byteAs, hm, hk]

/-- The current context stands in the core of the current tile. -/
theorem State.ctx_of_core {s u : State} (h : u.tile.core = s.tile.core) : u.ctx = s.ctx :=
  congrArg (fun c : Core => c.strands[c.fg.getD 0].ctx) h

theorem State.tile_of_cur {s u : State} (h : u.cur = s.cur) : u.tile = u.tiles[s.cur] := by simp only [State.tile, h]

theorem State.chans_modCtx (s : State) (f : Ctx → Ctx) : (s.modCtx f).tile.chans = s.tile.chans := by
  rw [State.tile_of_cur (s := s) rfl]
  simp [State.modCtx, State.modStrand, State.tile]

theorem State.chans_modChan (s : State) (c : ChanId) (f : Chan → Chan) :
    (s.modChan s.cur c f).tile.chans = s.tile.chans.set c (f s.tile.chans[c]) := by
  simp [State.modChan, State.tile]

theorem State.core_modChan (s : State) (c : ChanId) (f : Chan → Chan) : (s.modChan s.cur c f).tile.core = s.tile.core := by
  simp [State.modChan, State.tile]

/-! ### Panes handed to an engine (R194) -/

/-- A tile without its panes. -/
def Tile.unpaned (x : Tile) : Tile := { x with panes := Vector.replicate 128 Pane.zero }

/-- A state without the panes of its tiles: what a pane's change leaves. -/
def State.unpaned (s : State) : State := { s with tiles := s.tiles.map Tile.unpaned }

theorem State.unpaned_modTile (s : State) (t : TileId) (f : Tile → Tile) (h : ∀ x, (f x).unpaned = x.unpaned) :
    (s.modTile t f).unpaned = s.unpaned :=
  congrArg (fun v => { s with tiles := v }) (map_set_of_eq s.tiles Tile.unpaned t (h _))

theorem State.unpaned_lend (s : State) (t : TileId) (l : List (Fin 128)) :
    (l.foldl (fun a p => a.modPane t p Pane.lend) s).unpaned = s.unpaned :=
  foldl_keeps (fun a _ => a.unpaned_modTile t _ fun _ => rfl) l s

theorem State.tile_of_unpaned {s u : State} (h : u.unpaned = s.unpaned) : u.tile.unpaned = s.tile.unpaned := by
  rw [State.tile_of_cur (s := s) (u := u) (congrArg State.cur h :)]
  simpa [State.unpaned, State.tile] using congrArg (fun v : State => v.tiles[s.cur]) h

/-! ### Commands (R190, R191) -/

/-- The command that the current strand places, with its operands as they stand. -/
def State.newCmd (s : State) (k : CmdKind) (st : CmdStep) (panes : List (Fin 128)) : Cmd :=
  { uid := s.fresh, owner := s.strand.owner, seq := s.q, batch := s.ctx.batchnow, kind := k,
    after := (s.ctx.pends.filter (·.mem)).map (·.uid), step := st, row := 0, parked := false, cancel := false, held := [],
    busy := panes, xfault := none, refused := [] }

theorem State.command_eq (s : State) (c : ChanId) (k : CmdKind) (st : CmdStep) (panes : List (Fin 128)) :
    s.command c k st panes = (panes.foldl (fun a p => a.modPane s.cur p Pane.lend) (s.bump.modCtx Ctx.join)).modChan s.cur c fun x =>
      { x with queue := x.queue ++ [s.newCmd k st panes], state := if x.queue.isEmpty then .run else x.state } := rfl

/-- The panes handed over apart, a command is in its channel's queue, and the open batch is joined. -/
theorem commands_command (s : State) (c : ChanId) (k : CmdKind) (st : CmdStep) (panes : List (Fin 128)) :
    Commands s (s.command c k st panes) c k st := by
  have h := State.unpaned_lend (s.bump.modCtx Ctx.join) s.cur panes
  have htile := State.tile_of_unpaned h
  rw [State.command_eq]
  generalize panes.foldl (fun a p => a.modPane s.cur p Pane.lend) (s.bump.modCtx Ctx.join) = u at h htile ⊢
  have hcur : s.cur = u.cur := (congrArg State.cur h :).symm
  have hchans : u.tile.chans = s.tile.chans := (congrArg Tile.chans htile :).trans (s.bump.chans_modCtx Ctx.join)
  have hctx : u.ctx = s.ctx.join := (State.ctx_of_core (congrArg Tile.core htile :)).trans (s.bump.ctx_modCtx Ctx.join)
  rw [hcur]
  refine ⟨⟨s.newCmd k st panes, ?_, rfl, rfl, rfl, rfl, rfl, rfl⟩, fun x hx => ?_, ?_, ?_⟩
  · rw [State.chans_modChan, hchans]
    simp
  · have hne : c.val ≠ x.val := fun e => hx (Fin.ext e.symm)
    rw [State.chans_modChan, hchans]
    simp [hne]
  · rw [State.ctx_of_core (u.core_modChan c _), hctx]
  · exact sameMemory_of_eq (congrArg State.mem h :) (congrArg State.keyed h :)

/-- A word that places a command, where its checks refuse nothing. -/
theorem State.word_command {s : State} {v : Verdict} {e : State → State} {c : ChanId} {k : CmdKind} {st : CmdStep}
    {panes : List (Fin 128)} (h : Passes s v) (he : e s = s.command c k st panes) :
    ∃ u, s.word v e = .next u ∧ Commands s u c k st :=
  ⟨_, (s.word_of_passes e h).trans (congrArg _ he), commands_command s c k st panes⟩

/-! ### The checks of copy words (R188, R189, R194) -/

section Checks
variable {s : State}

/-- A register group that ends within the file is no reserved value (R188). -/
theorem State.illegalIf_group {n m : Nat} (h : m < n + 1) : s.illegalIf (decide (n < m)) = .pass := by
  rw [decide_eq_false (by omega)]
  rfl

theorem State.illegalIf_rewriting (h : s.rewriting.isSome) : s.illegalIf s.rewriting.isSome = .trap .illegalOp (wordVal s) := by
  rw [h]
  rfl

theorem State.illegalIf_thread (h : s.rewriting = none) : s.illegalIf s.rewriting.isSome = .pass := by
  rw [h]
  rfl

/-- Whichever of the two refuses the word, it is ILLEGAL_OP (R188, R189). -/
theorem State.illegalIf_andThen_illegal (b : Bool) :
    (s.illegalIf b).andThen (.trap .illegalOp (wordVal s)) = .trap .illegalOp (wordVal s) := by
  cases b <;> rfl

theorem State.singleCheck_rewriting (h : s.rewriting.isSome) (c : ChanId) (r : Rec) (align : Option W) :
    s.singleCheck c r align = .trap .illegalOp (wordVal s) := by
  unfold State.singleCheck
  rw [State.illegalIf_rewriting h]
  rfl

theorem State.singleCheck_misaligned (h : s.rewriting = none) (c : ChanId) (r : Rec) (a : W) :
    s.singleCheck c r (some a) = .trap .misalign a := by
  unfold State.singleCheck
  rw [State.illegalIf_thread h]
  rfl

theorem unaligned64_first {a : W} (h : ux a % 64 ≠ 0) (l : List W) : unaligned64 (a :: l) = some a :=
  List.find?_cons_of_pos (bne_iff_ne.2 h)

/-- The checks of CHAIN (R189, R190, R197). -/
def State.chainCheck (s : State) (a : W) (c : ChanId) : Verdict :=
  ((s.illegalIf s.rewriting.isSome).andThen (if ux a % 64 ≠ 0 then .trap .misalign a else .pass)).andThen (s.chanRoom c)

theorem chainCheck_pass {a : W} {c : ChanId} (h : s.rewriting = none) (ha : ux a % 64 = 0) (hq : s.tile.chans[c].queue.length < 16) :
    s.chainCheck a c = .pass := by
  unfold State.chainCheck State.chanRoom
  rw [State.illegalIf_thread h, if_neg (not_not_intro ha), if_neg (Nat.not_le_of_lt hq)]
  rfl

theorem chainCheck_misaligned {a : W} (c : ChanId) (h : s.rewriting = none) (ha : ux a % 64 ≠ 0) :
    s.chainCheck a c = .trap .misalign a := by
  unfold State.chainCheck
  rw [State.illegalIf_thread h, if_pos ha]
  rfl

end Checks

/-- The shape word of R194 with its fields in ascending order. -/
theorem cpyShape_eq (len : Nat) : BitVec.ofNat 64 ((len - 1) * 2 ^ 12 + len * 2 ^ 24 + len * 2 ^ 44) = cpyShape len :=
  congrArg (BitVec.ofNat 64) (by omega)

/-! ### The words -/

section Words
variable (s : State) (a b : GReg) (c : ChanId)

theorem exec_cpy (l : BitVec 6) : exec (.cpy a b l c) s =
    s.word (s.singleCheck c (singleRec .copy .none (s.g b) (s.g a) (cpyShape (64 * (l.toNat + 1))) 0) (unaligned64 [s.g a, s.g b]))
      fun s => s.single c .copy .none (s.g b) (s.g a) (cpyShape (64 * (l.toNat + 1))) 0 := rfl

theorem exec_cpys (x : XPose) : exec (.cpys a b x c) s =
    s.word ((s.illegalIf (decide (62 < b.val))).andThen (s.singleCheck c (singleRec .copy x (s.g b) (s.g a) (s.g (after_ b 1)) 0)
      (singleRec .copy x (s.g b) (s.g a) (s.g (after_ b 1)) 0).misaligned))
      fun s => s.single c .copy x (s.g b) (s.g a) (s.g (after_ b 1)) 0 := rfl

theorem exec_cgath : exec (.cgath a b c) s =
    s.word ((s.illegalIf (decide (61 < b.val))).andThen
      (s.singleCheck c (singleRec .gather .none (s.g b) (s.g a) (s.g (after_ b 1)) (s.g (after_ b 2)))
        (singleRec .gather .none (s.g b) (s.g a) (s.g (after_ b 1)) (s.g (after_ b 2))).misaligned))
      fun s => s.single c .gather .none (s.g b) (s.g a) (s.g (after_ b 1)) (s.g (after_ b 2)) := rfl

theorem exec_cscat : exec (.cscat a b c) s =
    s.word ((s.illegalIf (decide (61 < b.val))).andThen
      (s.singleCheck c (singleRec .scatter .none (s.g b) (s.g a) (s.g (after_ b 1)) (s.g (after_ b 2)))
        (singleRec .scatter .none (s.g b) (s.g a) (s.g (after_ b 1)) (s.g (after_ b 2))).misaligned))
      fun s => s.single c .scatter .none (s.g b) (s.g a) (s.g (after_ b 1)) (s.g (after_ b 2)) := rfl

theorem exec_chain : exec (.chain a c) s =
    s.word (s.chainCheck (s.g a) c) fun s => s.command c (.chain (s.g a)) .fetch [] := rfl

end Words

/-- No copy word stands in a rewrite (R189). -/
theorem copyWords_of_rewrite {s : State} (h : Unchecked s) (hr : s.rewriting.isSome) (a b : GReg) (l : BitVec 6) (x : XPose)
    (c : ChanId) : ∀ i ∈ [Instr.cpy a b l c, .cpys a b x c, .cgath a b c, .cscat a b c, .chain a c, .cseal a, .cwait 0,
      .cstat a true c, .cstat a false c, .ccancel c], exec i s = .next (refusedBy s .illegalOp (wordVal s)) := by
  have hword {v : Verdict} (e : State → State) (hv : v = .trap .illegalOp (wordVal s)) :
      s.word v e = .next (refusedBy s .illegalOp (wordVal s)) := hv ▸ s.word_of_refused e h ..
  have hone := State.illegalIf_rewriting hr
  have hthen (v : Verdict) : (s.illegalIf s.rewriting.isSome).andThen v = .trap .illegalOp (wordVal s) := by rw [hone]; rfl
  have hsingle := State.singleCheck_rewriting hr c
  have hgroup (b : Bool) (r : Rec) (align : Option W) : (s.illegalIf b).andThen (s.singleCheck c r align) = .trap .illegalOp (wordVal s) := by
    rw [hsingle, State.illegalIf_andThen_illegal]
  simp only [List.forall_mem_cons]
  exact ⟨(exec_cpy ..).trans (hword _ (hsingle ..)), (exec_cpys ..).trans (hword _ (hgroup ..)),
    (exec_cgath ..).trans (hword _ (hgroup ..)), (exec_cscat ..).trans (hword _ (hgroup ..)),
    (exec_chain ..).trans (hword _ (by rw [State.chainCheck, hthen]; rfl)),
    show execCseal a s = _ from hword _ (hthen _), show execCwait 0 s = _ from hword _ (hthen _),
    show execCstat a true c s = _ from hword _ hone, show execCstat a false c s = _ from hword _ hone,
    show execCcancel c s = _ from hword _ hone, List.forall_mem_nil _⟩

/-- Settles O39: each word's checks stand before its command, which joins the channel's queue with the operands as they stand. -/
theorem copyCommandsQueue : Obligations.CopyCommandsQueue := by
  unfold Obligations.CopyCommandsQueue
  intro s a b l x c
  dsimp only
  rw [cpyShape_eq]
  refine ⟨fun h => ?_, fun hb h => ?_, fun hb h => ?_, fun hb h => ?_, fun h hc => ?_, fun h hr => copyWords_of_rewrite h hr a b l x c,
    fun h hr ha => ?_⟩
  · rw [exec_cpy]
    exact State.word_command h rfl
  · rw [exec_cpys, State.illegalIf_group hb]
    exact State.word_command h rfl
  · rw [exec_cgath, State.illegalIf_group hb]
    exact State.word_command h rfl
  · rw [exec_cscat, State.illegalIf_group hb]
    exact State.word_command h rfl
  · rw [exec_chain]
    exact State.word_command ⟨h, hc.imp_right fun ⟨hr, ha, hq⟩ => chainCheck_pass hr ha hq⟩ rfl
  · simp only [List.forall_mem_cons]
    refine ⟨?_, ?_, List.forall_mem_nil _⟩
    · rw [exec_cpy, unaligned64_first ha, State.singleCheck_misaligned hr, State.word_of_refused _ h]
    · rw [exec_chain, chainCheck_misaligned c hr ha, State.word_of_refused _ h]

end Sys2Proof.Machine
end

section
/-! SUPPORT. Proofs. An MSEND for which the commit buffer has no room (spec/06 R137, spec/09 R189, R208, spec/10 R222). -/

namespace Sys2Proof.Machine
open Sys2Proof.Claims

/-! ### The 129th entry of a commit buffer (R137, R214) -/

/-- COMMIT_OVERFLOW of the current rewrite. -/
def State.overflowed (s : State) : State := s.takeTrap s.cur s.curK .commitOverflow s.issue.ba (some 0) s.issue.ba

theorem State.byteAs_commit_of_full {s : State} {r : Rewrite} (hr : s.rewriting = some r) (h : 128 ≤ r.buf.length) (e : Commit)
    (key : KeyView) (a : Nat) : (s.commit e).byteAs key a = s.overflowed.byteAs key a := by
  unfold State.commit
  rw [hr]
  dsimp only
  rw [if_pos h]
  rfl

/-- In a rewrite whose bundle has passed its checks, MSEND is an entry of the commit buffer (R189). -/
theorem exec_msend_of_rewrite {s : State} {r : Rewrite} (h : Performed s) (hc : s.issue.checked = true) (hr : s.rewriting = some r)
    (a : GReg) (v : VReg) (l : Fin 64) : ∃ e, exec (.msend a v l) s = .next (s.commit e) :=
  ⟨_, show execMsend a v l s = _ from (s.word_of_passes _ ⟨h, .inl hc⟩).trans (by rw [hr])⟩

/-! ### A rewrite whose buffer is full -/

/-- A rewrite of the nodes at 0x40001000 and 0x40001040 with 128 entries in its commit buffer. -/
def fullRewrite : Rewrite :=
  { pair := { seq := 0, lineA := lineOf 0x40001000, lineB := lineOf 0x40001040, pri := 0, roam := true, quiet := false, park := 0, spilled := false,
              waited := 0, poisons := 0, borrowed := false, types := (0, 0) },
    node1 := 0x40001000, node2 := 0x40001040, buf := List.replicate 128 (.free 0), bundles := 0, allocs := [], staged := [],
    committing := false, wrote := [] }

/-- Table entries written where a walk reads them, in HBM homed on tile 0. -/
def State.tabled (s : State) (p : Party) (l : List (Nat × Nat)) : State :=
  l.foldl (fun a x => a.writeNum p (.hbm x.1 0) 8 x.2) s

/-- A sequence's address space: stage 2 maps the first GiB to itself, stage 1 the second GiB to the tile windows of quarter 0 (R398,
R403). The headers of two nodes, at 0x1000 and 0x1040 of tile 0's store, have CLAIMED set, as a running rewrite's nodes have (R221). -/
def claimed : State :=
  let s := State.reset.placeWord 0
  let s1 := { s with parts := s.parts.set 0 (some { Partition.bare with s2root := 0x10000 }),
                     seqs := s.seqs.set 0 (some { Sequence.bare with s1root := 0x20000 }) }
  let s2 := (s1.tabled .firmware [(0x10000, 0x11001), (0x11000, 127)]).tabled (.seq 0) [(0x20000, 0x21001), (0x21008, 639)]
  (s2.writeNum (.seq 0) (.win 0 0x1000) 8 (2 ^ 27)).writeNum (.seq 0) (.win 0 0x1040) 8 (2 ^ 27)

/-- The rewrite of these nodes in front, at a bundle that has passed its checks. -/
def overfull : State :=
  { claimed.modStrand fun x => { x with work := .rewrite fullRewrite } with issue := { Issue.zero with checked := true } }

/-- CLAIMED is bit 3 of the fourth byte of the first node's header. -/
theorem overfull_claimed : overfull.byteAs (ownKeys overfull) (storeKey 0 0x1003) = 8 := by decide +kernel

/-- The trap discards the rewrite, which releases its claims (R222, R305). -/
theorem overflowed_unclaimed : overfull.overflowed.byteAs (ownKeys overfull) (storeKey 0 0x1003) = 0 := by decide +kernel

/-- Refutes O42: MSEND as the 129th entry of a commit buffer raises COMMIT_OVERFLOW; the rewrite is discarded and its nodes' claims are
released in memory, where the clause of MSEND has every byte stay, however full the buffer is. -/
theorem not_messageWords : ¬ Obligations.MessageWords := by
  unfold Obligations.MessageWords
  intro h
  obtain ⟨hsend, -⟩ := h overfull 0 0 0 0
  obtain ⟨u, hu, hmem, -⟩ := hsend rfl (.inl rfl)
  obtain ⟨e, he⟩ := exec_msend_of_rewrite (s := overfull) (r := fullRewrite) rfl rfl rfl 0 0 0
  obtain rfl : overfull.commit e = u := by simpa [he] using hu
  have hkept := hmem (ownKeys overfull) (storeKey 0 0x1003)
  rw [State.byteAs_commit_of_full (r := fullRewrite) rfl (by simp [fullRewrite]), overfull_claimed, overflowed_unclaimed] at hkept
  exact absurd hkept (by decide)

end Sys2Proof.Machine
end

section
/-! SUPPORT. Proofs. A byte copied into a memory whose list is not in canonical form (spec/09 R196). -/

namespace Sys2Proof.Machine
open Sys2Proof.Claims

/-! ### A memory out of order -/

/-- A list of memory whose addresses fall: 1 above an address, then 7 at it. The canonical form has them rise (log 2), so that a write of
0 to the address ends its search at the higher one, and the 7 stays. -/
def fallingAt (a : Nat) : List Host.Cell := [(a + 64, 1), (a, 7)]

/-! ### A copy of one byte -/

/-- A copy of two rows of one byte, from 0x1000 to 0x2000, at its second row. -/
def byteCopy : Cmd :=
  { uid := 3, owner := 1, seq := 0, batch := 1, kind := .single .copy .none 0x1000 0x2000 1 0, after := [], step := .rows, row := 1,
    parked := false, cancel := false, held := [], busy := [], xfault := none, refused := [] }

/-- Channel 0 of tile 0 reaches the tile's window at address 0, whose panes the engines own. The byte at 0x1000 has been written, as 0;
memory is out of order at 0x2000. -/
def outOfOrder : State :=
  { (State.reset.placeWord 0).modTile 0 fun x => { x with
      tlbCopy := x.tlbCopy.set 0 [{ fetchEntry 0 0 with window := some 0, size := 2 }],
      panes := Vector.replicate 128 { Pane.zero with seq := some 0, engine := true } } with
    mem := fallingAt (storeKey 0 0x2000), keyed := [(storeKey 0 0x1000, 1)] }

/-- The source of the row reads as 0. -/
theorem outOfOrder_source : outOfOrder.byteAs (outOfOrder.keyOn 0 0) (storeKey 0 0x1000) = 0 := by decide +kernel

/-- Its destination reads as 7 once the row has been moved. -/
theorem outOfOrder_destination :
    (outOfOrder.engineStep 0 0 byteCopy).byteAs (outOfOrder.keyOn 0 0) (storeKey 0 0x2000) = 7 := by decide +kernel

theorem not_copyRow : ¬ CopyRow := by
  intro h
  obtain ⟨-, hrow, -⟩ := h outOfOrder 0 0 byteCopy 0x1000 0x2000 1 rfl rfl (by decide) (by decide) rfl rfl rfl rfl (by decide) (by decide)
    (by decide) rfl rfl rfl rfl rfl
  have hbyte := hrow (by decide) (.inl rfl) 0 (by decide)
  exact absurd (outOfOrder_destination.symm.trans (hbyte.trans outOfOrder_source)) (by decide)

/-- Refutes O40: `CopyRow` does not ask that memory be in its canonical form (`State.memOk`), on which a write's effect on a later read
rests. -/
theorem not_copyWork : ¬ Obligations.CopyWork := by
  unfold Obligations.CopyWork
  rintro ⟨-, -, hrow⟩
  exact not_copyRow hrow

end Sys2Proof.Machine
end

section
/-! SUPPORT. Proofs. A word that lands in a memory whose list is not in canonical form (spec/11 R234). -/

namespace Sys2Proof.Machine
open Sys2Proof.Claims

/-! ### A word of zeros in a landing ring -/

/-- A circuit from tile 0 to a ring of pane 0 of tile 1, with a word of zeros on its wire. -/
def landingCircuit : Circuit :=
  { loadedCircuit with dst := 1, peer := none, remote := none, path := [.e], queue := [], wire := [{ word := 0, lands := 0, done := none }] }

/-- The package with that circuit, its memory out of order at the ring's first byte. -/
def ringOutOfOrder : State :=
  { State.reset.placeWord 0 with circuits := [landingCircuit], mem := fallingAt (storeKey 1 0) }

/-- The ring's first byte reads as 7 once the word has landed. -/
theorem ringOutOfOrder_landed :
    (ringOutOfOrder.landWord landingCircuit).byteAs (ringOutOfOrder.keyOn 0 0) (storeKey 1 0) = 7 := by decide +kernel

theorem not_circuitWordsTravel : ¬ CircuitWordsTravel := by
  intro h
  obtain ⟨-, -, -, -, hring, -⟩ := h ringOutOfOrder 1 landingCircuit rfl
  obtain ⟨-, -, -, hword⟩ := hring _ _ rfl rfl rfl rfl rfl rfl (by decide +kernel)
  have hbyte := hword (by decide) (.inl rfl) 0 (by decide)
  exact absurd (ringOutOfOrder_landed.symm.trans hbyte) (by decide)

/-- Refutes O41: `CircuitWordsTravel` does not ask that memory be in its canonical form (`State.memOk`), on which a landing's effect on a
later read rests. -/
theorem not_circuitWordsAndSteps : ¬ Obligations.CircuitWordsAndSteps := by
  unfold Obligations.CircuitWordsAndSteps
  rintro ⟨-, htravel, -⟩
  exact not_circuitWordsTravel htravel

end Sys2Proof.Machine
end

section
/-! SUPPORT. Proofs. The key operations of a die (spec/10 R227, R228). -/

namespace Sys2Proof.Machine

/-! ### A slot -/

/-- A slot once an operation has been performed on it or refused, with `key` drawn where `healthy` is the DRBG's answer (R227). -/
def KeySlot.operated (k : KeySlot) (op : KeyOp) (healthy : Bool) (key : Nat) : KeySlot :=
  if (k.refuses op healthy).isNone then k.after op key else k

section Slot
variable (k : KeySlot) (healthy : Bool) (key : Nat)

theorem KeySlot.operated_gen_of_ready (p : PartId) (q : Fin 16) (hempty : k.state = .empty) (hpend : k.pendinv = false) :
    k.operated (.gen p q) healthy key = if healthy = true then k.after (.gen p q) key else k := by
  cases healthy <;> simp [operated, refuses, hempty, hpend]

theorem KeySlot.operated_gen_of_refused (p : PartId) (q : Fin 16) (h : k.state ≠ .empty ∨ k.pendinv = true) :
    k.operated (.gen p q) healthy key = k := by
  obtain hstate | hpend := h
  · cases hpend : k.pendinv <;> simp [operated, refuses, hstate, hpend]
  · simp [operated, refuses, hpend]

theorem KeySlot.operated_zero : k.operated .zero healthy key = k.after .zero key := rfl

theorem KeySlot.operated_rotate_of_ready (hlive : k.state = .live) (hstill : k.rotating = false) :
    k.operated .rotate healthy key = if healthy = true then k.after .rotate key else k := by
  cases healthy <;> simp [operated, refuses, hlive, hstill]

theorem KeySlot.operated_rotate_of_refused (h : k.state ≠ .live ∨ k.rotating = true) :
    k.operated .rotate healthy key = k := by
  simp [operated, refuses, h]

theorem KeySlot.operated_retire_of_swept (hrotating : k.rotating = true) (hswept : k.swept = true) :
    k.operated .retire healthy key = k.after .retire key := by
  simp [operated, refuses, hrotating, hswept]

theorem KeySlot.operated_retire_of_refused (h : k.rotating = false ∨ k.swept = false) :
    k.operated .retire healthy key = k := by
  obtain hstill | hunswept := h
  · simp [operated, refuses, hstill]
  · cases hrotating : k.rotating <;> simp [operated, refuses, hrotating, hunswept]

theorem KeySlot.operated_stat : k.operated .stat healthy key = k := rfl

/-- Generation 0 has key0 and generation 1 has key1: a rotation draws the key of the other generation (R228). -/
theorem KeySlot.after_rotate : k.after .rotate key =
    { k with rotating := true, swept := false, key0 := if k.gen then key else k.key0, key1 := if k.gen then k.key1 else key } := by
  unfold after
  cases k.gen <;> rfl

theorem KeySlot.after_retire : k.after .retire key =
    { k with rotating := false, swept := false, gen := !k.gen, key0 := if k.gen then k.key0 else 0,
             key1 := if k.gen then 0 else k.key1 } := by
  unfold after
  cases k.gen <;> rfl

end Slot

/-! ### The operation on a die -/

section Die
variable (s : State) (d : DieId) (slot : Fin 512) (op : KeyOp)

theorem State.keyop_key : (s.keyop d slot op).1.dies[d].keys[slot] =
    s.dies[d].keys[slot].operated op (Config.drbgHealthy s.free) s.fresh := by
  simp [State.keyop, KeySlot.operated]

theorem State.keyop_key_ne {j : Fin 512} (h : j ≠ slot) : (s.keyop d slot op).1.dies[d].keys[j] = s.dies[d].keys[j] := by
  have hval : slot.val ≠ j.val := fun e => h (Fin.ext e.symm)
  simp [State.keyop, hval]

theorem State.keyop_die_ne {e : DieId} (h : e ≠ d) : (s.keyop d slot op).1.dies[e] = s.dies[e] := by
  have hval : d.val ≠ e.val := fun e' => h (Fin.ext e'.symm)
  simp [State.keyop, hval]

/-- A key operation leaves its slot as `operated` says, and the other slots, the other dies, the tiles and the memory as they are. -/
theorem State.keyop_leaves {x : KeySlot} (h : s.dies[d].keys[slot].operated op (Config.drbgHealthy s.free) s.fresh = x) :
    ∃ u : State, (.next (s.keyop d slot op).1 : Out) = .next u ∧ u.dies[d].keys[slot] = x ∧
      (∀ j, j ≠ slot → u.dies[d].keys[j] = s.dies[d].keys[j]) ∧ (∀ e, e ≠ d → u.dies[e] = s.dies[e]) ∧
      u.tiles = s.tiles ∧ u.mem = s.mem ∧ u.keyed = s.keyed :=
  ⟨_, rfl, (s.keyop_key d slot op).trans h, fun _ => s.keyop_key_ne d slot op, fun _ => s.keyop_die_ne d slot op, rfl, rfl, rfl⟩

end Die

/-- Settles O14: what each operation leaves of its slot, where it is performed and where it is refused. -/
theorem keyOperations : Obligations.KeyOperations := by
  unfold Obligations.KeyOperations
  intro s d slot p q
  exact ⟨
    fun hempty hpend => s.keyop_leaves d slot _ (KeySlot.operated_gen_of_ready _ _ _ p q hempty hpend),
    fun h => s.keyop_leaves d slot _ (KeySlot.operated_gen_of_refused _ _ _ p q h),
    s.keyop_leaves d slot _ (KeySlot.operated_zero ..),
    fun hlive hstill => s.keyop_leaves d slot _
      ((KeySlot.operated_rotate_of_ready _ _ _ hlive hstill).trans (by rw [KeySlot.after_rotate])),
    fun h => s.keyop_leaves d slot _ (KeySlot.operated_rotate_of_refused _ _ _ h),
    fun hrotating hswept => s.keyop_leaves d slot _
      ((KeySlot.operated_retire_of_swept _ _ _ hrotating hswept).trans (KeySlot.after_retire ..)),
    fun h => s.keyop_leaves d slot _ (KeySlot.operated_retire_of_refused _ _ _ h),
    s.keyop_leaves d slot _ (KeySlot.operated_stat ..)⟩

end Sys2Proof.Machine
end

section
/-! SUPPORT. Proofs. What a TLBI drops, and what it leaves (spec/10 R225–R227). -/

namespace Sys2Proof.Machine
open Sys2Proof.Claims

/-! ### The TLBs of a tile -/

/-- The TLBs that a selector names: all four where its field is 0 (R225). -/
def selectedTlbs (tlbs : BitVec 4) : BitVec 4 := if tlbs = 0 then 15 else tlbs

theorem selectedTlbs_getLsbD : ∀ (tlbs : BitVec 4) (n : Fin 4),
    (selectedTlbs tlbs).getLsbD n = true ↔ tlbs = 0 ∨ tlbs.getLsbD n = true := by decide

theorem selectedTlbs_eq_all : ∀ tlbs : BitVec 4, selectedTlbs tlbs = 15 ↔ tlbs = 0 ∨ tlbs = 15 := by decide

/-- A TLB that is selected loses the entries named, and another keeps all of its own. -/
theorem kept_of_selected (tlbs : BitVec 4) (n : Fin 4) (p : TlbEntry → Bool) (l : List TlbEntry) :
    let new := if (selectedTlbs tlbs).getLsbD n = true then l.filter fun e => !p e else l
    (tlbs = 0 ∨ tlbs.getLsbD n = true → new = l.filter fun e => !p e) ∧ (¬ (tlbs = 0 ∨ tlbs.getLsbD n = true) → new = l) := by
  rw [← selectedTlbs_getLsbD]
  exact ⟨fun h => if_pos h, fun h => if_neg h⟩

theorem Tile.dropEntries_tlbCopy (x : Tile) (tlbs : BitVec 4) (p : TlbEntry → Bool) (c : ChanId) :
    (x.dropEntries tlbs p).tlbCopy[c] = if tlbs.getLsbD 2 = true then x.tlbCopy[c].filter fun e => !p e else x.tlbCopy[c] := by
  by_cases h : tlbs.getLsbD 2 = true
  · simp only [Tile.dropEntries, if_pos h, Fin.getElem_fin, Vector.getElem_map]
  · simp only [Tile.dropEntries, if_neg h]

/-! ### The parts of an invalidation -/

section Invalidation
variable (s : State) (t : TileId) (scope : Nat) (tlbs : BitVec 4) (i : Inval)

/-- The TLBs of the tiles of a scope without the entries that a selector names. -/
def State.withoutEntries : State := s.dropEntries (s.scopeTiles t scope i) (selectedTlbs tlbs) i.hits

theorem State.withoutEntries_eq : ∃ v, s.withoutEntries t scope tlbs i = { s with tiles := v } := ⟨_, rfl⟩

@[simp] theorem State.withoutEntries_dies : (s.withoutEntries t scope tlbs i).dies = s.dies := by
  obtain ⟨v, hv⟩ := s.withoutEntries_eq t scope tlbs i
  rw [hv]

/-- A key slot at SCOPE 2: its invalidation is pending no more on the tile's die (R227). -/
theorem State.invalidate_slot (k : Fin 512) : s.invalidate t 2 tlbs (.slot k) =
    (s.withoutEntries t 2 tlbs (.slot k)).modDie (dieOf t) fun d => { d with keys := d.keys.set k d.keys[k].invalidated } := by
  have hscope : ¬ (2 : Nat) = 1 := by decide
  simp only [State.invalidate, hscope, false_and, if_false, State.withoutEntries, selectedTlbs]

/-- Any other selector: the directories are cleared where all four TLBs are selected at SCOPE 1 (R410, log 39). -/
theorem State.invalidate_other (h : ∀ k, ¬ (scope = 2 ∧ i = .slot k)) : s.invalidate t scope tlbs i =
    if scope = 1 ∧ selectedTlbs tlbs = 15 then
      { s.withoutEntries t scope tlbs i with
        dies := s.dies.map fun (d : Die) => { d with directory := d.directory.filter fun x => !i.covers x.1 } }
    else s.withoutEntries t scope tlbs i := by
  rw [← s.withoutEntries_dies t scope tlbs i]
  unfold State.invalidate State.withoutEntries selectedTlbs
  dsimp only
  split
  · exact absurd ⟨rfl, rfl⟩ (h _)
  · rfl

/-- The TLBs and the dies are all that an invalidation changes. -/
theorem State.invalidate_frame : s.invalidate t scope tlbs i =
    { s with tiles := (s.withoutEntries t scope tlbs i).tiles, dies := (s.invalidate t scope tlbs i).dies } := by
  obtain ⟨v, hv⟩ := s.withoutEntries_eq t scope tlbs i
  by_cases h : ∃ k, scope = 2 ∧ i = .slot k
  · obtain ⟨k, rfl, rfl⟩ := h
    rw [State.invalidate_slot, hv]
    rfl
  · rw [State.invalidate_other _ _ _ _ _ (not_exists.1 h), hv]
    split <;> rfl

theorem State.invalidate_tiles : (s.invalidate t scope tlbs i).tiles = (s.withoutEntries t scope tlbs i).tiles :=
  (congrArg State.tiles (s.invalidate_frame t scope tlbs i) :)

theorem State.invalidate_tile (v : TileId) : (s.invalidate t scope tlbs i).tiles[v] =
    if s.scopeTiles t scope i v = true then s.tiles[v].dropEntries (selectedTlbs tlbs) i.hits else s.tiles[v] := by
  rw [State.invalidate_tiles]
  simp [State.withoutEntries, State.dropEntries]

/-- What an invalidation leaves of a die. -/
theorem State.invalidate_die (d : DieId) : let x := s.dies[d]
    let y := (s.invalidate t scope tlbs i).dies[d]
    y = { x with directory := y.directory, keys := y.keys } ∧
    y.directory = (if scope = 1 ∧ (tlbs = 0 ∨ tlbs = 15) then x.directory.filter fun r => !i.covers r.1 else x.directory) ∧
    ∀ k : Fin 512, y.keys[k] = if scope = 2 ∧ i = .slot k ∧ d = dieOf t then x.keys[k].invalidated else x.keys[k] := by
  by_cases h : ∃ k, scope = 2 ∧ i = .slot k
  · obtain ⟨j, rfl, rfl⟩ := h
    rw [State.invalidate_slot]
    by_cases hd : d = dieOf t
    · subst hd
      refine ⟨by simp, by simp, fun k => ?_⟩
      by_cases hk : j = k
      · subst hk; simp
      · have hval : j.val ≠ k.val := fun e => hk (Fin.ext e)
        simp [hk, hval]
    · have hval : (dieOf t).val ≠ d.val := fun e => hd (Fin.ext e.symm)
      simp [hd, hval]
  · have hother := not_exists.1 h
    have hkeys : ∀ k : Fin 512, ¬ (scope = 2 ∧ i = .slot k ∧ d = dieOf t) := fun k ⟨h2, hk, _⟩ => hother k ⟨h2, hk⟩
    rw [State.invalidate_other _ _ _ _ _ hother]
    by_cases hclear : scope = 1 ∧ selectedTlbs tlbs = 15
    · have hall : scope = 1 ∧ (tlbs = 0 ∨ tlbs = 15) := hclear.imp_right (selectedTlbs_eq_all tlbs).1
      simp only [if_pos hclear, if_pos hall, if_neg (hkeys _), Fin.getElem_fin, Vector.getElem_map, implies_true, and_self]
    · have hall : ¬ (scope = 1 ∧ (tlbs = 0 ∨ tlbs = 15)) := mt (And.imp_right (selectedTlbs_eq_all tlbs).2) hclear
      simp only [if_neg hclear, if_neg hall, if_neg (hkeys _), State.withoutEntries_dies, implies_true, and_self]

theorem State.invalidate_invalidated : Invalidated s (s.invalidate t scope tlbs i) t scope tlbs i := by
  refine ⟨by rw [State.invalidate_tiles]; exact s.invalidate_frame .., fun v hv => ?_, fun v hv => ?_, s.invalidate_die t scope tlbs i⟩
  · rw [State.invalidate_tile, if_neg (by rw [hv]; decide)]
  · dsimp only
    rw [State.invalidate_tile, if_pos hv]
    refine ⟨rfl, kept_of_selected tlbs 0 .., kept_of_selected tlbs 1 .., fun c => ?_, kept_of_selected tlbs 3 ..⟩
    rw [Tile.dropEntries_tlbCopy]
    exact kept_of_selected tlbs 2 ..

end Invalidation

/-! ### The steps of firmware -/

/-- An invalidation of firmware drops its entries once nothing holds it up, and changes nothing before (R226). -/
theorem State.firmwareTlbi_invalidates (s : State) (t : TileId) (scope : Fin 3) (tlbs : BitVec 4) (i : Inval) :
    (s.invalWaits t scope.val i = false → ∃ u, s.firmwareTlbi t scope tlbs i = .next u ∧ Invalidated s u t scope.val tlbs i) ∧
    (s.invalWaits t scope.val i = true → s.firmwareTlbi t scope tlbs i = .next s) :=
  ⟨fun h => ⟨_, State.firmwareTlbi_of_quiet h tlbs, s.invalidate_invalidated ..⟩, fun h => if_pos h⟩

/-- Settles O15: each step is the invalidation of its selector, whose page starts at the address rounded down to its size. PENDINV clears on
the issuing tile's die (log 42), and the directories are cleared where all four TLBs are named (log 39). -/
theorem invalidationsDropEntries : Obligations.InvalidationsDropEntries := by
  unfold Obligations.InvalidationsDropEntries
  intro s t scope tlbs key p q z va
  dsimp only
  rw [Nat.div_mul_self_eq_mod_sub_self]
  have h := s.firmwareTlbi_invalidates t scope tlbs
  exact ⟨h (.slot key), h (.page (seqOf p q) z _), h (.seq (seqOf p q)), h (.stage2 p z _), h (.part p), h .all⟩

end Sys2Proof.Machine
end

section
/-! SUPPORT. Proofs. A partition created on tiles whose banks hold a dirty line (spec/26 R405, R420, R433). -/

namespace Sys2Proof.Machine

/-- A dirty line of sequence 0 of partition 1, at the first address of HBM. -/
def dirtyLine : BankLine := { line := 0, seq := 16, dirty := true, bad0 := false, bad1 := false }

/-- A cold package whose partition 1 holds block 1 and runs sequence 16, of which a dirty line stands in the bank of tile 0. -/
def dirtyBank : State :=
  { State.reset.modTile 0 fun x => { x with bank := [dirtyLine] } with
    cold := { State.reset.cold with state := .cold },
    parts := State.reset.parts.set 1 (some { Partition.bare with blocks := 2, vfs := 2 }),
    seqs := State.reset.seqs.set 16 (some { Sequence.bare with vf := 1 }) }

/-- The body of a partition of block 0, to which tile 0 belongs, with VF 0 and no memory circuits. -/
def firstBlock : CreateBody :=
  { part := 0, linkbud := 4, blocks := 1, s2root := 0x10000, vfs := 1, membud := List.replicate 12 0, mslots := 1, reserved := false }

theorem dirtyBank_badCreate : dirtyBank.badCreate firstBlock = false := by decide +kernel

theorem dirtyBank_refusesCreate : dirtyBank.refusesCreate firstBlock = false := by decide +kernel

/-- The lines that sequence 16 has written to HBM (R433). -/
def State.writtenBack (s : State) : Option Nat := s.seqs[(16 : SeqId)].map (·.counts.linesWritten)

theorem dirtyBank_writtenBack : dirtyBank.writtenBack = some 0 := by decide +kernel

/-- The banks write their dirty lines back before PLACEMASK is written (R405), and the write-back counts for its sequence (R433). -/
theorem dirtyBank_create_writtenBack : (dirtyBank.create firstBlock).1.writtenBack = some 1 := by decide +kernel

theorem not_partitionsCreated : ¬ Claims.PartitionsCreated := by
  intro h
  obtain ⟨-, -, hmade⟩ := h dirtyBank firstBlock
  obtain ⟨u, x, hu, -, -, -, -, -, -, -, -, hseqs, -⟩ := hmade dirtyBank_badCreate dirtyBank_refusesCreate
  have hsame : u.writtenBack = dirtyBank.writtenBack := congrArg (fun l => (l[(16 : SeqId)]).map (·.counts.linesWritten)) hseqs
  have hwritten : u.writtenBack = some 1 := by simpa only [hu] using dirtyBank_create_writtenBack
  exact absurd (hwritten.symm.trans (hsame.trans dirtyBank_writtenBack)) (by decide)

/-- Refutes O48: before CREATE_PARTITION writes PLACEMASK, the banks of the partition's tiles write their dirty lines back (R405), and each
write counts for the line's sequence (R433). `PartitionsCreated` asks nothing of those banks, so that its clause `u.seqs = s.seqs` fails
where a line of a sequence stands in one. -/
theorem not_managementCommands : ¬ Obligations.ManagementCommands := by
  unfold Obligations.ManagementCommands
  rintro ⟨-, -, -, hcreated, -⟩
  exact not_partitionsCreated hcreated

end Sys2Proof.Machine
end
